-- ==== Sys2Proof/Word.lean ====
section
/-! DEFINITION. Words and bytes of the D1 package. -/

namespace Sys2Proof

/-- One byte. -/
abbrev Byte := BitVec 8

/-- A 32-bit scalar word (R59). -/
abbrev Word := BitVec 32

/-- A 64-bit word: an instruction word of the code shelf (R121) or a 64-bit register. -/
abbrev DWord := BitVec 64

end Sys2Proof
end

