-- ==== Sys2Proof/Config.lean ====
section
/-! DEFINITION. The free values of the model: what the spec leaves open, as opaque constants, and the functions of
standards that the spec names without giving their text. Nothing can be proved about any of them but that it is a function. -/

namespace Sys2Proof.Config

/-- A byte the spec leaves undefined, drawn by a counter of the state: staging at cycle 0 of a frame (R131), a word of a random source (R204, R463,
R471). (DESIGN CHOICE, log entry 1), safe. -/
opaque freeByte : Nat → BitVec 8

/-- A natural number the spec leaves open, drawn by a counter of the state (DESIGN CHOICE, log entry 1), safe. -/
opaque freeNat : Nat → Nat

/-- A choice the spec leaves open, drawn by a counter of the state (DESIGN CHOICE, log entry 1), safe. -/
opaque freeBool : Nat → Bool

/-- The post-package repair resources of each bank of a cellar (R173): the spec gives no number (DESIGN CHOICE, log entry 32), safe. -/
opaque pprPerBank : Nat

/-- Whether an ML-DSA-65 signature verifies: public key, context, message, signature (R464). The algorithm is that of FIPS 204, whose text the spec
does not hold. (DESIGN CHOICE, log entry 12), safe. -/
opaque mldsaVerify : List (BitVec 8) → List (BitVec 8) → List (BitVec 8) → List (BitVec 8) → Bool

/-- The bytes of a structure whose contents the spec gives and whose byte layout it does not (DESIGN CHOICE, log entry 15): by a number of the
structure and its contents as numbers. Safe. -/
opaque layout : Nat → List Nat → List (BitVec 8)

/-- What a memory holds whose contents a reset leaves undefined (R435), as pairs of an address and a byte, drawn by a counter of the state (DESIGN
CHOICE, log entry 8), safe. -/
opaque undefinedMemory : Nat → List (Nat × BitVec 8)

/-- The bytes of a response whose format is that of a DMTF or PCI-SIG standard (R470, R487), by the counter and the request (DESIGN CHOICE, log entry
13), safe. -/
opaque standardResponse : Nat → List (BitVec 8) → List (BitVec 8)

end Sys2Proof.Config
end

