-- ==== Sys2Proof/Syntax.lean ====
section
/-! DEFINITION. The commands of the D1: one constructor per row of spec/opcode_table.json, in the table's order. -/

namespace Sys2Proof

/-- The four engines of a core (R52), and the order in which R63 ranks units. -/
inductive Engine where
  | mx | vx | sx | nx
  deriving DecidableEq, Repr

/-- One host command packet as the device reads it at an intake (R410): the fields of the slot, the parameter bytes from
byte 16 on (inline or from the parameter block), whether the block read without a CXL error, the block's host address, and the host memory that the
command itself pulls through CXL.cache. -/
structure Packet where
  seq : Nat := 1
  role : Nat := 0
  pver : Nat := 1
  pblk : Bool := false
  plen : Nat := 0
  readOk : Bool := true
  paddr : Nat := 0
  params : List Byte := []
  pulled : List Byte := []
  deriving DecidableEq, Repr

/-- A command ring slot as read: its opcode and its packet (R410, R411). -/
structure RingSlot where
  opcode : Nat
  packet : Packet
  deriving DecidableEq, Repr

/-- A routed note (R191, R243): type, destination, source, slice, sequence number, part and payload. -/
structure RNote where
  ntype : Nat
  destX : Nat
  destY : Nat
  destZ : Nat
  srcX : Nat
  srcY : Nat
  srcZ : Nat
  srcSlice : Nat
  seq : Nat
  lastp : Bool
  tag : Nat
  part : Nat
  payload : List Byte
  deriving DecidableEq, Repr

/-- A sensor reading of R518: the sensor and its temperature in whole degrees Celsius. -/
inductive Sensor where
  | region (j : Nat)
  | site (k : Nat)
  | cellar (c : Nat)
  deriving DecidableEq, Repr

/-- A reference clock of R388. -/
inductive RefClock where
  | time | sys
  deriving DecidableEq, Repr

/-- What bring-up finds outside the logic that the spec gives (R446): the settings copies' faults, the pseudo-channels and
cores that fail training or self-test, the lanes that train, and the failures of steps. -/
structure BootFindings where
  failStep : Nat := 0
  avsFail : Bool := false
  calRecordBad : Bool := false
  badPcs : List Nat := []
  badCores : List Nat := []
  badRegions : List Nat := []
  lanes : List (Nat × Nat) := []
  ms : Nat := 0
  deriving DecidableEq, Repr

/-- The outcome of one training attempt of a port (R197): the first step that fails (0 for none) and the lanes that pass
step 3. -/
structure TrainResult where
  failStep : Nat
  lanesGood : Nat
  partnerWidth : Nat
  deriving DecidableEq, Repr

/-- One IEEE 1588 message as the time-receiver of R397 uses it. -/
inductive PtpMsg where
  | announce (grandmaster : Nat) (priority : Nat) (utcOffset : Nat) (utcValid : Bool)
  | sync (offsetNs : Int)
  | delayResp (delayNs : Int)
  | pdelayReq
  | other
  deriving DecidableEq, Repr

/-- THE COMMANDS. `c` is always a logical core index, `p` a port index, `k` a slot memory controller (160 × MIO + pseudo-channel). -/
inductive Instr where
  -- sequencer instructions (R122)
  | nop (c : Nat)
  | frameEnd (c : Nat)
  | loop (c : Nat) (len : Nat) (cnt : Nat)
  | brb (c : Nat) (cond : Fin 32) (len tgt cnt : Nat)
  | jmp (c : Nat) (tgt : Nat)
  | skip (c : Nat) (cond : Fin 32) (len : Nat)
  | call (c : Nat) (tgt : Nat)
  | ret (c : Nat)
  | add (c : Nat) (rd ra rb : Fin 32)
  | sub (c : Nat) (rd ra rb : Fin 32)
  | and (c : Nat) (rd ra rb : Fin 32)
  | or (c : Nat) (rd ra rb : Fin 32)
  | xor (c : Nat) (rd ra rb : Fin 32)
  | shl (c : Nat) (rd ra rb : Fin 32)
  | shr (c : Nat) (rd ra rb : Fin 32)
  | sra (c : Nat) (rd ra rb : Fin 32)
  | mul (c : Nat) (rd ra rb : Fin 32)
  | mulhu (c : Nat) (rd ra rb : Fin 32)
  | min (c : Nat) (rd ra rb : Fin 32)
  | max (c : Nat) (rd ra rb : Fin 32)
  | slt (c : Nat) (rd ra rb : Fin 32)
  | sltu (c : Nat) (rd ra rb : Fin 32)
  | seq (c : Nat) (rd ra rb : Fin 32)
  | csel (c : Nat) (rd ra rb : Fin 32)
  | addi (c : Nat) (rd ra : Fin 32) (imm : Word)
  | andi (c : Nat) (rd ra : Fin 32) (imm : Word)
  | ori (c : Nat) (rd ra : Fin 32) (imm : Word)
  | xori (c : Nat) (rd ra : Fin 32) (imm : Word)
  | shli (c : Nat) (rd ra : Fin 32) (imm : Word)
  | shri (c : Nat) (rd ra : Fin 32) (imm : Word)
  | srai (c : Nat) (rd ra : Fin 32) (imm : Word)
  | muli (c : Nat) (rd ra : Fin 32) (imm : Word)
  | li (c : Nat) (rd : Fin 32) (imm : Word)
  | lds (c : Nat) (rd ra : Fin 32) (bankm : Byte) (imm : Word)
  | sts (c : Nat) (rd ra : Fin 32) (bankm : Byte) (imm : Word)
  | rdid (c : Nat) (rd : Fin 32)
  | tget (c : Nat) (rd : Fin 32) (imm : Word)
  | waitf (c : Nat) (imm : Word)
  | setf (c : Nat) (imm : Word)
  | clrf (c : Nat) (imm : Word)
  | chka (c : Nat) (imm : Word)
  | clra (c : Nat) (imm : Word)
  | pset (c : Nat) (rd ra : Fin 32)
  | pget (c : Nat) (rd ra : Fin 32)
  | gload (c : Nat) (ra : Fin 32) (bankm : Byte) (imm : Word)
  | gstep (c : Nat) (ra : Fin 32) (imm : Word)
  | enq (c : Nat) (daddr : Nat)
  | illegalOpcode (c : Nat) (opc : Byte)
  | enqueueAfterStall (c : Nat)
  | engineDispatch (c : Nat) (e : Engine)
  | commandComplete (c : Nat) (e : Engine)
  -- engine commands (R130): the command that the engine of core `c` has taken
  | mma (c : Nat)
  | maxexp (c : Nat)
  | tclr (c : Nat)
  | tset (c : Nat)
  | texp (c : Nat)
  | texpmx (c : Nat)
  | toutp (c : Nat)
  | taddp (c : Nat)
  | vld (c : Nat)
  | vst (c : Nat)
  | vadd (c : Nat)
  | vsub (c : Nat)
  | vmul (c : Nat)
  | vfma (c : Nat)
  | vdiv (c : Nat)
  | vmin (c : Nat)
  | vmax (c : Nat)
  | vcmp (c : Nat)
  | sel (c : Nat)
  | vcvt (c : Nat)
  | vfn (c : Nat)
  | vasum (c : Nat)
  | vainit (c : Nat)
  | vacvt (c : Nat)
  | vmaxe (c : Nat)
  | vargmax (c : Nat)
  | vmovs (c : Nat)
  | vbcast (c : Nat)
  | draw (c : Nat)
  | gather (c : Nat)
  | scatter (c : Nat)
  | xmov (c : Nat)
  | xput (c : Nat)
  | xcrd (c : Nat)
  | xcwr (c : Nat)
  | xhrd (c : Nat)
  | xhwr (c : Nat)
  | xovl (c : Nat)
  | xstream (c : Nat)
  | post (c : Nat)
  | nclra (c : Nat)
  | streamElement (c : Nat) (prog : Nat)
  | streamElementReady (c : Nat) (prog : Nat)
  -- frame and freeze (R34 to R46)
  | scheduleEnd
  | freezeHalt
  | freezeResume (periods : Nat)
  | freezeOver
  | circularWait
  | arrivalTimeout
  | faultHalt
  | frameTick (ring : List RingSlot)
  | frameStart
  | holdHorizon
  | holdTimeout (x y z : Nat)
  | holdNote (x y z : Nat) (frame : Nat) (cause : Nat) (pause : Bool)
  | ready (x y z : Nat) (frame : Nat) (tick : Nat)
  | stop (x y z : Nat) (frame : Nat) (reason : Nat)
  | detour (x y z : Nat) (flipRound : Nat) (lostPort : Nat) (frame : Nat)
  | detourFlip
  | tableSetWritten
  | resend (x y z : Nat) (flow : Nat) (frame : Nat) (first : Nat) (count : Nat)
  | resendWaitExpiry (c : Nat) (flag : Fin 64)
  | foMsg (x y z : Nat) (msg : List Byte)
  | routedNoteReceive (p : Nat) (n : RNote)
  | noteGap (x y z : Nat)
  -- ports (R186 to R213)
  | roundStart
  | roundMarker (p : Nat) (lane : Nat) (marker : List Byte)
  | dataSlot (p : Nat) (slot : Nat)
  | serviceSlot (p : Nat) (slot : Nat)
  | containerReceive (p : Nat) (round : Nat) (slot : Nat) (words : List (List (BitVec 10)))
  | parcelLanding
  | heartbeat (p : Nat) (body : List Byte)
  | portDown (p : Nat)
  | portTrain (p : Nat) (r : TrainResult)
  | trainRetry (p : Nat) (r : TrainResult)
  | identity (p : Nat) (body : List Byte)
  | idkey (p : Nat) (idx : Nat) (piece : List Byte)
  | idsig (p : Nat) (idx : Nat) (piece : List Byte)
  | identProofChecked (p : Nat)
  | loss (p : Nat) (round : Nat) (slot : Nat) (cause : Nat)
  | flightMeasure (p : Nat)
  | sync (p : Nat) (body : List Byte) (arrival : Nat)
  | holdoverExpiry
  | ethFrameReceive (p : Nat) (fcsOk : Bool) (frame : List Byte)
  | ptpMessage (p : Nat) (m : PtpMsg)
  | ptpAnnounceTimeout
  | transitApply
  -- cellars (R154 to R164)
  | sectorReturn (k : Nat)
  | act (k : Nat) (delta bank row : Nat)
  | pre (k : Nat) (delta bank : Nat)
  | rd (k : Nat) (delta bank row col tag : Nat)
  | wr (k : Nat) (delta bank row col tag : Nat)
  | bact (k : Nat) (delta bank tag : Nat)
  | repeat (k : Nat) (n m colInc rowInc : Nat)
  | gap (k : Nat) (delay : Nat)
  | progEnd (k : Nat)
  | pinnedRefresh (k : Nat)
  | scrubWindow (k : Nat)
  | retentionRefresh (k : Nat) (bank : Nat)
  | hostHatchWrite (off : Nat) (data : List Byte)
  | hostHatchRead (off : Nat) (len : Nat)
  | cellarWindowRead (off : Nat)
  | cellarWindowWrite (off : Nat) (data : List Byte)
  -- the command window (R409 to R433)
  | intake (ring : List RingSlot)
  | replyWrite
  | longCommandDone
  | ping (k : Packet)
  | identify (k : Packet)
  | negotiate (k : Packet)
  | setMode (k : Packet)
  | getSettings (k : Packet)
  | stageSettings (k : Packet)
  | commitSettings (k : Packet)
  | loadCrate (k : Packet)
  | verify (k : Packet)
  | place (k : Packet)
  | loadTimetable (k : Packet)
  | start (k : Packet)
  | hold (k : Packet)
  | resume (k : Packet)
  | abort (k : Packet)
  | runToFrame (k : Packet)
  | checkpoint (k : Packet)
  | restore (k : Packet)
  | admitStream (k : Packet)
  | retireStream (k : Packet)
  | streamStatus (k : Packet)
  | readInventory (k : Packet)
  | replayBegin (k : Packet)
  | getCertificate (k : Packet)
  | attest (k : Packet)
  | debugUnlockChallenge (k : Packet)
  | debugUnlockResponse (k : Packet)
  | challengeLapse
  | setSlice (k : Packet)
  | loadTransit (k : Packet)
  | portDisable (k : Packet)
  | portEnable (k : Packet)
  | portRetrain (k : Packet)
  | discover (k : Packet)
  | resetSystem (k : Packet)
  | resetCore (k : Packet)
  | timeSetUtc (k : Packet)
  | timeStatus (k : Packet)
  | firmwareStage (k : Packet)
  | firmwareActivateMark (k : Packet)
  | firmwareActivateNow (k : Packet)
  -- register accesses (R8, R409 to R490)
  | cmdEnable (value : Word)
  | cmdDisable (value : Word)
  | rplConsumedWrite (value : Word)
  | reacquire
  | mtNsRead
  | alarmAck (slot : Nat)
  | alarmClear
  | rstCauseClear (mask : Word)
  | sampleCfgWrite (p : Nat) (value : Word)
  | ovfGibWrite (value : Word)
  | registerWrite (addr : Nat) (value : DWord)
  | blockReset (kind : Nat) (index : Nat)
  | blockQuiesceTimeout
  | blockResetDone (us : Nat) (ok : Bool)
  | ringWrite
  | boxRoomWrite
  | pldmEventSend
  -- clocks, power and temperature (R378 to R388, R510 to R520)
  | marginCheck (region : Nat) (margins : List Int)
  | stretchEventApply (region : Nat)
  | beatCapture (region : Nat) (lateHalfCycles : Int)
  | governorStep (power : Nat)
  | autoThrottle
  | targetApply
  | avsConfirm (ok : Bool)
  | sensorSample (readings : List (Sensor × Int))
  | thermalThrottle
  | thermalTrip (sn : Sensor) (temp : Int)
  | thermalTripRelease
  | refclkLoss (r : RefClock)
  | refclkRestore (r : RefClock)
  | ppsInEdge
  | ppsMissing
  | ppsOutEdge
  | railFail (rail : Nat)
  | powerOnRelease
  | hbmEnSequence
  -- resets and bring-up (R435 to R446)
  | porst (asserted : Bool)
  | sysrst (asserted : Bool)
  | debugReset (asserted : Bool)
  | wdog (pc sp : DWord)
  | cxlHot
  | cxlLdn
  | resetRelease (f : BootFindings)
  | tapInstruction (code : Nat)
  -- board management and security (R470, R487 to R489)
  | setEndpointId (eid : Byte)
  | setEventReceiver (eid : Byte)
  | pldmRequest (ptype : Nat) (command : Nat) (data : List Byte)
  | requestUpdate
  | activateFirmware
  | spdmGetVersion
  | spdmGetCapabilities
  | spdmNegotiateAlgorithms
  | spdmGetCertificate (slot : Nat) (off len : Nat)
  | spdmChallenge (slot : Nat) (nonce : List Byte)
  | spdmGetMeasurements (index : Nat) (nonce : List Byte)
  | spdmKeyExchange
  | spdmFinish (session : Nat)
  | spdmKeyUpdate (session : Nat)
  | spdmHeartbeat (session : Nat)
  | spdmEndSession (session : Nat)
  | ideKm (session : Nat) (protocol : Nat)
  | certSigned
  | timeErrExceeded
  | delayReq
  | activeToggle
  | deviceCommitWritten (ok : Bool)
  | pldmFirmwareData (data : List Byte) (last : Bool)
  deriving DecidableEq, Repr

end Sys2Proof
end

