-- ==== Sys2Proof/Decode.lean ====
section
/-! DEFINITION. The command table of the D1 gives no row any bits: its commands are not encoded in one word space, so no
word spells a command (DESIGN CHOICE, log entry 14). -/

namespace Sys2Proof

/-- The command that a word spells by the table's bits: none, for the table gives no row bits (DESIGN CHOICE, log entry 14). -/
def decodeTableWord (_nbits _w : Nat) : Option Instr := none

end Sys2Proof
end

