-- ==== Sys2Proof/Machine/Sparse.lean ====
section
/-! DEFINITION. Sparse stores: lists of (key, value) pairs in one canonical form, keys strictly rising, no entry equal to
the value that an unlisted key reads as. -/

namespace Sys2Proof.Machine

/-- The value at key `k`; an unlisted key reads as `d`. -/
def spGet {α : Type} (d : α) : List (Nat × α) → Nat → α
  | [], _ => d
  | (k', v) :: t, k => if k' = k then v else spGet d t k

/-- Insert a pair before the first larger key. -/
def spInsert {α : Type} (k : Nat) (v : α) : List (Nat × α) → List (Nat × α)
  | [] => [(k, v)]
  | (k', v') :: t => if k < k' then (k, v) :: (k', v') :: t else (k', v') :: spInsert k v t

/-- Remove a key. -/
def spErase {α : Type} (k : Nat) : List (Nat × α) → List (Nat × α)
  | [] => []
  | (k', v') :: t => if k' = k then spErase k t else (k', v') :: spErase k t

/-- Write `v` at key `k`; writing the default removes the entry. -/
def spSet {α : Type} [DecidableEq α] (d : α) (m : List (Nat × α)) (k : Nat) (v : α) : List (Nat × α) :=
  if v = d then spErase k m else spInsert k v (spErase k m)

/-- Whether every key of the list is at least `lo`, keys strictly rise and no value is `d`. -/
def spWfFrom {α : Type} [DecidableEq α] (d : α) : Nat → List (Nat × α) → Bool
  | _, [] => true
  | lo, (k, v) :: t => decide (lo ≤ k) && decide (v ≠ d) && spWfFrom d (k + 1) t

/-- The canonical form of a sparse store. -/
def spWf {α : Type} [DecidableEq α] (d : α) (m : List (Nat × α)) : Bool := spWfFrom d 0 m

/-- Apply `f` to the value at `k`. -/
def spModify {α : Type} [DecidableEq α] (d : α) (m : List (Nat × α)) (k : Nat) (f : α → α) : List (Nat × α) :=
  spSet d m k (f (spGet d m k))

/-- Apply `f` to every listed value; a value that becomes the default is listed no more. -/
def spMap {α : Type} [DecidableEq α] (d : α) (f : α → α) : List (Nat × α) → List (Nat × α)
  | [] => []
  | (k, v) :: t => if f v = d then spMap d f t else (k, f v) :: spMap d f t

/-- Read `n` consecutive bytes from `a`. -/
def readBytes (m : List (Nat × Byte)) (a n : Nat) : List Byte :=
  (List.range n).map (fun i => spGet 0 m (a + i))

/-- Write consecutive bytes from `a`. -/
def writeBytes (m : List (Nat × Byte)) (a : Nat) : List Byte → List (Nat × Byte)
  | [] => m
  | b :: t => writeBytes (spSet 0 m a b) (a + 1) t

end Sys2Proof.Machine
end

