-- ==== Sys2Proof/Machine/Ecc.lean ====
section
/-! DEFINITION. The code of a cellar sector (R169): a Reed–Solomon code over GF(2^8) on the 32 data bytes and three check bytes, and the
address byte. The code is linear, so what the corrector finds depends on the errors of the stored bits alone. -/

namespace Sys2Proof.Machine

open Sys2Proof

/-- A byte times α in GF(2^8), of the polynomial x^8 + x^4 + x^3 + x^2 + 1 (R169). -/
def gfDouble (b : Byte) : Byte := if b.msb then (b <<< 1) ^^^ 0x1d else b <<< 1

/-- A byte times α^n. -/
def gfTimes : Nat → Byte → Byte
  | 0, b => b
  | n + 1, b => gfDouble (gfTimes n b)

/-- Byte `i` of a sector's 36 stored bytes: 32 data bytes, three check bytes, the address byte (R169). -/
def sectorSymbol (e : BitVec 288) (i : Nat) : Byte := (e >>> (8 * i)).setWidth 8

/-- Syndrome `j` of the errors of a sector: the code word at α^j, byte 0 the highest coefficient (R169). -/
def sectorSyndrome (e : BitVec 288) (j : Nat) : Byte :=
  (List.range 35).foldl (fun acc i => gfTimes j acc ^^^ sectorSymbol e i) 0

/-- What the corrector finds in a sector whose stored bits differ from the code word by `e`: 0 correct, 1 corrected, 2 uncorrectable, and the errors
that remain in what it gives. One symbol is corrected; an address byte that does not match is uncorrectable (R169) (DEDUCED, log entry 30). -/
def sectorDecode (e : BitVec 288) : Nat × BitVec 288 :=
  if e = 0 then (0, 0)
  else if sectorSymbol e 35 ≠ 0 then (2, e)
  else
    let s0 := sectorSyndrome e 0
    let s1 := sectorSyndrome e 1
    let s2 := sectorSyndrome e 2
    if s0 = 0 ∧ s1 = 0 ∧ s2 = 0 then (0, e)
    else match (List.range 35).find? (fun p => s0 != 0 && s1 == gfTimes p s0 && s2 == gfTimes (2 * p) s0) with
      | some p => (1, e ^^^ (s0.setWidth 288 <<< (8 * (34 - p))))
      | none => (2, e)

/-- What the corrector finds in a sector (R169, R170). -/
def sectorClass (e : BitVec 288) : Nat := (sectorDecode e).1

/-- The errors that are left in the data the corrector gives: none where it could correct one symbol or two errors were detected. -/
def sectorResidue (e : BitVec 288) : BitVec 288 := (sectorDecode e).2

/-- The check bits that a whole-sector write stores (R169, R170): the three check bytes, and the exclusive OR of the four bytes of the
sector's address within the pseudo-channel. -/
def sectorCheck (data : List Byte) (a : Nat) : List Byte :=
  let step := fun (r : Byte × Byte × Byte) (d : Byte) =>
    let f := d ^^^ r.1
    -- the generator is x^3 + 7 x^2 + 14 x + 8
    (r.2.1 ^^^ (f ^^^ gfTimes 1 f ^^^ gfTimes 2 f), r.2.2 ^^^ (gfTimes 1 f ^^^ gfTimes 2 f ^^^ gfTimes 3 f), gfTimes 3 f)
  let r := data.foldl step (0, 0, 0)
  [r.1, r.2.1, r.2.2, BitVec.ofNat 8 (a / 2 ^ 24) ^^^ BitVec.ofNat 8 (a / 2 ^ 16) ^^^ BitVec.ofNat 8 (a / 2 ^ 8) ^^^ BitVec.ofNat 8 a]

end Sys2Proof.Machine
end

