-- ==== Sys2Proof/Machine/Bytes.lean ====
section
/-! DEFINITION. Byte order (R5), bit fields (R6) and padding. -/

namespace Sys2Proof.Machine

/-- `n` little-endian bytes of `v`. -/
def leBytes : Nat → Nat → List Byte
  | 0, _ => []
  | n + 1, v => BitVec.ofNat 8 v :: leBytes n (v / 256)

/-- The value of little-endian bytes. -/
def ofLe : List Byte → Nat
  | [] => 0
  | b :: t => b.toNat + 256 * ofLe t

/-- The value of big-endian bytes (link headers, R5). -/
def ofBe (bs : List Byte) : Nat := ofLe bs.reverse

/-- `n` big-endian bytes of `v`. -/
def beBytes (n v : Nat) : List Byte := (leBytes n v).reverse

/-- `n` zero bytes. -/
def zeros (n : Nat) : List Byte := List.replicate n 0

/-- Bytes `a` to `a + n - 1` of a list, zero beyond its end (R410: inline bytes beyond `PLEN` read as zero). -/
def slice (bs : List Byte) (a n : Nat) : List Byte :=
  let t := (bs.drop a).take n
  t ++ zeros (n - t.length)

/-- The little-endian field of `n` bytes at byte `a`. -/
def le (bs : List Byte) (a n : Nat) : Nat := ofLe (slice bs a n)

/-- Bits `hi` to `lo` of a number (R6). -/
def bits (v hi lo : Nat) : Nat := (v / 2 ^ lo) % 2 ^ (hi + 1 - lo)

/-- Bit `i` of a number. -/
def bit (v i : Nat) : Bool := v / 2 ^ i % 2 = 1

/-- The two's-complement value of the low `w` bits of `v`. -/
def sext (w v : Nat) : Int :=
  let u := v % 2 ^ w
  if u < 2 ^ (w - 1) then (u : Int) else (u : Int) - (2 ^ w : Nat)

/-- The low `w` bits of an integer. -/
def wrap (w : Nat) (v : Int) : Nat := (v % ((2 ^ w : Nat) : Int)).toNat

/-- The smallest multiple of `m` not below `n`. -/
def roundUp (n m : Nat) : Nat := (n + m - 1) / m * m

/-- The quotient rounded up. -/
def ceilDiv (a b : Nat) : Nat := (a + b - 1) / b

/-- Bytes padded with zeros to a multiple of `m`. -/
def padTo (m : Nat) (bs : List Byte) : List Byte := bs ++ zeros (roundUp bs.length m - bs.length)

/-- The bytes of ASCII text. -/
def ascii (s : String) : List Byte := s.toList.map (fun c => BitVec.ofNat 8 c.toNat)

/-- 1 for true. -/
def b2n (b : Bool) : Nat := if b then 1 else 0

/-- Write bytes `bs` at offset `a` of a list of bytes. -/
def putAt (dst : List Byte) (a : Nat) (bs : List Byte) : List Byte :=
  dst.take a ++ bs ++ dst.drop (a + bs.length)

/-- The bytes at even spacing: cut a list into pieces of `n`. -/
def chunks (n : Nat) (bs : List Byte) : List (List Byte) :=
  (List.range (ceilDiv bs.length n)).map (fun i => (bs.drop (i * n)).take n)

end Sys2Proof.Machine
end

