-- ==== Sys2Proof/Machine/State.lean ====
section
/-! DEFINITION. The state of the D1 package: everything the spec gives the machine, as plain data, and its value right
after reset. Sparse stores are lists of (key, value) pairs, keys strictly rising, holding no entry equal to the default. -/

namespace Sys2Proof.Machine

/-- What stops the model with a fault: a command that names a part that the package does not have. -/
inductive Fault where
  /-- A logical core index above 81,919 (R10, R60): no such core exists. Raised by every core command. Safe: the model
  stops where the hardware cannot be addressed. -/
  | noSuchCore
  /-- A port index that the variant does not have (R184). Raised by every port command. Safe. -/
  | noSuchPort
  /-- A slot memory controller that the variant does not have (R150, R154). Raised by the cellar commands. Safe. -/
  | noSuchController
  /-- A region, rail, die or sensor that the package does not have (R10, R511, R518). Safe. -/
  | noSuchUnit
  deriving DecidableEq, Repr

/-- What the model refuses. -/
inductive Refusal where
  /-- The command has no meaning in the model yet. Safe. -/
  | notModelled (mnemonic : String)
  deriving DecidableEq, Repr

/-! ### Identity -/

/-- The assembly variants of R1. -/
inductive Variant where
  | d1m | d1b | d1l
  deriving DecidableEq, Repr

/-- The steppings of R3. -/
inductive Stepping where
  | a0 | b0
  deriving DecidableEq, Repr

/-- The device states of R409 and R418, in the order of their codes. -/
inductive DevState where
  | off | boot | idle | loaded | running | held | faulted | replay
  deriving DecidableEq, Repr

/-- The clock modes of R32. -/
inductive Mode where
  | peak | steady | cool
  deriving DecidableEq, Repr

/-- Machine-time and local-time states of R390; `free` reads as `INVALID` for local time. -/
inductive TimeState where
  | free | acquire | locked | holdover
  deriving DecidableEq, Repr

/-- Port states of R211, in the order of their codes. -/
inductive PortState where
  | off | training | discovery | quiet | up | down | disabled
  deriving DecidableEq, Repr

/-! ### The core (R59) -/

/-- A ready-cycle tag (R82): the cycle from which the value may be read, and the unit (R87 `ENGINE`) and program counter
of the write (R83). -/
structure Tag where
  ready : Nat := 0
  unit : Nat := 0
  pc : Nat := 0
  deriving DecidableEq, Repr

/-- An accumulator tile (R59, R94, R97). -/
structure Tile where
  acc : List (Nat × BitVec 128) := []
  tags : List (Nat × BitVec 2) := []
  wexp : BitVec 16 := 0
  h : BitVec 6 := 24
  ovf : Bool := false
  ovfEn : Bool := false
  deriving DecidableEq, Repr

/-- One level of the loop stack (R74, R124): the first and last word of the body and the iterations left after this one. -/
structure LoopFrame where
  first : Nat
  last : Nat
  left : Nat
  deriving DecidableEq, Repr

/-- A balanced-branch arm in execution (R75): its words, its rejoin address and the depth of the return stack at its entry. -/
structure Arm where
  second : Bool
  first : Nat
  last : Nat
  rejoin : Nat
  depth : Nat
  deriving DecidableEq, Repr

/-- The fields of a command descriptor (R126). -/
structure Desc where
  dver : Nat := 1
  eng : Nat := 0
  cop : Nat := 0
  wflag : Nat := 0
  wen : Bool := false
  wclr : Bool := false
  sflag : Nat := 0
  sen : Bool := false
  dce : Bool := false
  fmta : Nat := 0
  fmtb : Nat := 0
  fmtd : Nat := 0
  rnd : Nat := 0
  sat : Bool := false
  pred : Nat := 0
  ctx : Nat := 0
  bankm : BitVec 8 := 0
  count : Nat := 0
  tile : Nat := 0
  vd : Nat := 0
  va : Nat := 0
  vb : Nat := 0
  sa : Nat := 0
  sb : Nat := 0
  fn : Nat := 0
  dcyc : Nat := 0
  opnd0 : BitVec 32 := 0
  opnd1 : BitVec 32 := 0
  opnd2 : BitVec 32 := 0
  opnd3 : BitVec 32 := 0
  deriving DecidableEq, Repr

/-- A queue entry (R56, R58): the descriptor with the scalars and the predicate read at the enqueue, the cycle and program
counter of the enqueue, the address of its descriptor, and whether it is a null command (R76). -/
structure QEntry where
  desc : Desc
  daddr : Nat := 0
  enqCycle : Nat := 0
  pc : Nat := 0
  null : Bool := false
  sa : Word := 0
  sb : Word := 0
  sb1 : Word := 0
  pred : BitVec 16 := 0
  base0 : Word := 0
  base1 : Word := 0
  base2 : Word := 0
  base3 : Word := 0
  base3n : Word := 0
  deriving DecidableEq, Repr

/-- A command that an engine has taken: its queue entry, its dispatch cycle (R56), and the tags that its destinations had
before it, by which its own reads are checked (R82, R129). -/
structure InFlight where
  q : QEntry
  d : Nat
  old : List (Nat × Tag) := []
  deriving DecidableEq, Repr

/-- One engine (R56): its queue, the end of its occupancy, the command taken and not yet executed, the command executing
and the cycles of the last dispatches (an entry freed at cycle d counts from d + 1, R57). -/
structure EngineState where
  queue : List QEntry := []
  occEnd : Nat := 0
  cur : Option InFlight := none
  running : Option InFlight := none
  freedAt : Nat := 0
  deriving DecidableEq, Repr

/-- A store that a write reaches. -/
inductive Space where
  | shelf | attic | staging | hatch | cellar | code
  deriving DecidableEq, Repr

/-- Bytes to be written into a store at completion. `core` is the logical core of a shelf, attic, staging or code write. -/
structure MemWrite where
  space : Space
  core : Nat := 0
  addr : Nat
  bytes : List Byte
  deriving DecidableEq, Repr

/-- What a command in flight does at its completion (R128): its memory writes become readable at `ready`, its sync flag
is set or cleared, and an arrival flag is cleared. `src` names another core whose SX makes the transfer (R70). -/
structure Pending where
  unit : Nat
  src : Option Nat := none
  pc : Nat := 0
  ready : Nat
  writes : List MemWrite := []
  flag : Option Nat := none
  clearFlag : Option Nat := none
  clearArrival : Option Nat := none
  deriving DecidableEq, Repr

/-- A use of a bank (0 to 7), or of the attic port (8), in a cycle by a unit (R63, R64): its granule or line, and the other core whose SX makes
it (R131). -/
structure BankUse where
  cycle : Nat
  bank : Nat
  unit : Nat
  pc : Nat
  addr : Nat := 0
  src : Option Nat := none
  deriving DecidableEq, Repr

/-- A use of a shared path resource in a cycle (R68, R534). -/
structure PathUse where
  cycle : Nat
  resource : Nat
  core : Nat
  unit : Nat
  pc : Nat
  dispatch : Nat
  deriving DecidableEq, Repr

/-- A running stream prefetch program (R166, R167). -/
structure StreamProg where
  num : Nat
  pc : Nat
  start : Nat
  next : Nat
  readyNext : Nat
  destAttic : Bool
  setFlag : Bool
  flag : Nat
  stage : Nat
  da : Nat
  stride : Int
  dest : Nat
  ring : Nat
  beats : Nat
  count : Nat
  period : Nat
  deriving DecidableEq, Repr

/-- A declared setter of a sync flag (R80, R143). -/
structure Setter where
  unit : Nat := 0
  other : Bool := false
  core : Nat := 0
  deriving DecidableEq, Repr

/-- A flow that a core owns (R143): its declared count, the parcels posted in this frame and the last `POST`. -/
structure OwnFlow where
  flow : Nat
  count : Nat
  posted : Nat := 0
  lastPc : Nat := 0
  deriving DecidableEq, Repr

/-- A logical core (R52 to R66, R143). -/
structure Core where
  section_ : Bool := false
  group : BitVec 15 := 0
  owner : Bool := false
  entries : List Nat := []
  setters : List (Nat × Setter) := []
  afmap : List (Nat × Nat) := []
  flows : List OwnFlow := []
  sregs : List (Nat × Word) := []
  vregs : List (Nat × BitVec 256) := []
  pregs : List (Nat × BitVec 16) := []
  tiles : List (Nat × Tile) := []
  tags : List (Nat × Tag) := []
  sflags : List (Nat × Bool) := []
  sflagAt : List (Nat × Nat) := []
  aflags : List (Nat × Bool) := []
  loops : List LoopFrame := []
  rets : List Nat := []
  arms : List Arm := []
  pc : Nat := 0
  cyc : Nat := 0
  ended : Bool := false
  skip : Nat := 0
  stalled : Option Nat := none
  waitFlag : Option Nat := none
  halted : Bool := false
  mx : EngineState := {}
  vx : EngineState := {}
  sx : EngineState := {}
  nx : EngineState := {}
  pend : List Pending := []
  uses : List BankUse := []
  progs : List StreamProg := []
  shelf : List (Nat × Byte) := []
  attic : List (Nat × Byte) := []
  staging : List (Nat × Byte) := []
  stagingFree : Option Nat := none
  code : List (Nat × DWord) := []
  deriving DecidableEq, Repr

/-- A generator context (R116): seed, step counter, ready cycle. -/
structure GenCtx where
  seed : BitVec 128 := 0
  step : BitVec 64 := 0
  ready : Nat := 0
  deriving DecidableEq, Repr

/-- A fault record (R87): the fields that a fault fills. `lcore2` is none where no second unit is named. -/
structure FaultRec where
  reason : Nat := 0
  engine : Nat := 6
  lcore : Nat := 0xFFFFFFFF
  pdie : Nat := 0xFF
  pregion : Nat := 0xFF
  prow : Nat := 0xFF
  pcol : Nat := 0xFF
  pc : Nat := 0xFFFF
  bytes14 : Nat := 0
  frame : Nat := 0
  cycle : Nat := 0
  object : Nat := 0
  shortfall : Nat := 0
  engine2 : Nat := 0xFF
  byte37 : Nat := 0
  pc2 : Nat := 0
  lcore2 : Option Nat := none
  detail : Nat := 0
  deriving DecidableEq, Repr

/-- A freeze request (R34): who asks (core, unit, program counter of the wait), for which flag, and whether it is an arrival flag. -/
structure FreezeReq where
  core : Nat
  unit : Nat
  arrival : Bool
  flag : Nat
  cycle : Nat
  pc : Nat := 0xFFFF
  deriving DecidableEq, Repr

/-! ### Tables of the fabric (R214 to R226) -/

/-- A transmit entry (R221). -/
structure TEntry where
  port : Nat
  transit : Bool
  round : Nat
  slot : Nat
  flow : Nat
  run : Nat
  rounds : Nat
  deriving DecidableEq, Repr

/-- A crossbar entry (R218). -/
structure XEntry where
  transit : Bool
  input : Nat
  flow : Nat
  dmask : BitVec 24
  hops : Nat
  outclass : Bool
  deriving DecidableEq, Repr

/-- A landing entry (R226). -/
structure LEntry where
  flow : Nat
  pmod : Nat
  phase : Nat
  lcore : Nat
  attic : Bool
  base : Nat
  count : Nat
  aflag : Nat
  deriving DecidableEq, Repr

/-- A link of a loss set (R275): device coordinates and port code. -/
structure Link where
  x : Nat
  y : Nat
  z : Nat
  port : Nat
  deriving DecidableEq, Repr

/-- A table set of a timetable (R229, R275). -/
structure TableSet where
  index : Nat := 0
  tx : List TEntry := []
  xbar : List XEntry := []
  landing : List LEntry := []
  base : Option Nat := none
  lossSet : List Link := []
  deriving DecidableEq, Repr

/-- One version of the slot tables (R214): job and transit transmit entries, job and transit crossbar entries, landing table. -/
structure TableVersion where
  tx : List TEntry := []
  ttx : List TEntry := []
  xbar : List XEntry := []
  txbar : List XEntry := []
  landing : List LEntry := []
  set : Option Nat := none
  deriving DecidableEq, Repr

/-- The fields of a container header (R215). -/
structure Hdr where
  hver : Nat := 1
  cls : Nat := 0
  epoch : Bool := false
  lastf : Bool := false
  slice : Nat := 0
  flow : Nat := 0
  framelo : Nat := 0
  seq : Nat := 0
  offset : Nat := 0
  hops : Nat := 0
  xoff : Bool := false
  credit : Nat := 0
  deriving DecidableEq, Repr

/-- A copy in a departure store (R220, R224): header, payload, order of entry, straggler mark, frame index of posting. -/
structure Copy where
  hdr : Hdr
  payload : List Byte
  order : Nat
  straggler : Bool := false
  deriving DecidableEq, Repr

/-- A parcel for local delivery (R227): input port, or 31 for local posting. -/
structure Landing where
  input : Nat
  hdr : Hdr
  payload : List Byte
  deriving DecidableEq, Repr

/-- The state of a landing buffer (R227): instance frame and landed offsets. -/
structure LandState where
  inst : Option Nat := none
  landed : List Nat := []
  deriving DecidableEq, Repr

/-- A retry record (R194). -/
structure RetryRec where
  round : Nat
  slot : Nat
  cont : Nat
  hdr : Hdr
  payload : List Byte
  served : Bool := false
  deriving DecidableEq, Repr

/-- A NAK waiting to be sent (R193): each is sent twice. -/
structure Nak where
  round : Nat
  slot : Nat
  left : Nat
  deriving DecidableEq, Repr

/-- A container sent on a port: slot word `CONT`, the NAK carried, header, payload or notes. -/
structure TxContainer where
  round : Nat
  slot : Nat
  cont : Nat
  nak : Option (Nat × Nat) := none
  hdr : Hdr := {}
  payload : List Byte := []
  deriving DecidableEq, Repr

/-- A link-local note due on a port (R191): type, index, body. -/
structure LNote where
  ntype : Nat
  index : Nat
  body : List Byte
  deriving DecidableEq, Repr

/-- A routed note in a store, or taken by a port for its next bundles (R239, R242): the port it came in by (31: injected here)
and the ports it must leave by. -/
structure NoteCopy where
  note : RNote
  input : Nat
  outs : List Nat
  deriving DecidableEq, Repr

/-- The plan entry of a port (R203). -/
structure PlanEntry where
  port : Nat
  sigReq : Bool
  valid : Bool
  serial : Nat
  x : Nat
  y : Nat
  z : Nat
  peerPort : Nat
  slice : Nat
  keydig : List Byte
  deriving DecidableEq, Repr

/-- A wiring plan (R203). -/
structure WiringPlan where
  x : Nat
  y : Nat
  z : Nat
  slice : Nat
  serial : Nat
  extX : Nat
  extY : Nat
  extZ : Nat
  wrapX : Bool
  wrapY : Bool
  wrapZ : Bool
  entries : List PlanEntry
  deriving DecidableEq, Repr

/-- A Dexdin or ingest port (R182 to R212, R215 to R246). -/
structure Port where
  -- PORT_CFG (R211)
  pmode : Nat := 0
  precode : Bool := false
  retryEn : Bool := true
  reach : Nat := 0
  preset : Nat := 15
  enable : Bool := false
  flightDecl : Nat := 2
  -- PORT_STATUS
  state : PortState := .off
  width : Nat := 0
  halfHi : Bool := false
  peer : Nat := 0
  signed : Bool := false
  planMatch : Bool := false
  lanesGood : BitVec 16 := 0
  -- measurement
  flight : BitVec 24 := 0
  cableAsym : BitVec 32 := 0
  phyTx : BitVec 32 := 0
  phyRx : BitVec 32 := 0
  ownLag : Option Int := none
  peerLag : Option Int := none
  peerPhyTx : BitVec 32 := 0
  peerPhyRx : BitVec 32 := 0
  peerSerial : BitVec 64 := 0
  peerX : Nat := 0
  peerY : Nat := 0
  peerZ : Nat := 0
  peerPort : BitVec 8 := 0
  peerSlice : BitVec 8 := 0
  -- counters (R211, R246)
  fecCorr : BitVec 64 := 0
  fecUncorr : BitVec 32 := 0
  crcErr : BitVec 32 := 0
  markerErr : BitVec 32 := 0
  naksSent : BitVec 32 := 0
  retries : BitVec 32 := 0
  losses : BitVec 32 := 0
  hbMisses : BitVec 32 := 0
  downs : BitVec 32 := 0
  retrains : BitVec 32 := 0
  ethAccept : BitVec 32 := 0
  ethDrops : BitVec 32 := 0
  dropSlice : BitVec 32 := 0
  dropHdr : BitVec 32 := 0
  dropHops : BitVec 32 := 0
  dropStale : BitVec 32 := 0
  depFull : BitVec 32 := 0
  stragglers : BitVec 32 := 0
  slotEmpty : BitVec 32 := 0
  notesSent : BitVec 32 := 0
  notesReceived : BitVec 32 := 0
  xoffRounds : BitVec 32 := 0
  samples : BitVec 32 := 0
  ethCause : List (Nat × BitVec 32) := []
  -- SLICE_PERMIT and SAMPLE_CFG
  permit : BitVec 256 := 0
  sampleEn : Bool := false
  sampleDir : Nat := 0
  sampleN : Nat := 0
  sampleRx : Nat := 0
  sampleTx : Nat := 0
  sampleNext : Option Word := none
  -- Ethernet identity (R212)
  ethMac : BitVec 64 := 0
  ethVlan : BitVec 32 := 0
  ethReqType : BitVec 32 := 0x88B5
  ethIp4 : BitVec 32 := 0
  ethIp6 : BitVec 128 := 0
  -- stores
  departure : List Copy := []
  copyOrder : Nat := 0
  retry : List RetryRec := []
  naks : List Nak := []
  resends : List RetryRec := []
  localNotes : List LNote := []
  store : List NoteCopy := []
  outNotes : List NoteCopy := []
  noteSent : BitVec 12 := 0
  noteCredit : BitVec 12 := 0
  noteLeft : BitVec 12 := 0
  peerXoff : Bool := false
  hbSeen : List Nat := []
  tries : Nat := 0
  named : Bool := true
  disableAtTick : Bool := false
  -- discovery (R204, R205)
  ownNonce : List Byte := []
  peerIdentity : List Byte := []
  keyPieces : List (Nat × List Byte) := []
  sigPieces : List (Nat × List Byte) := []
  -- sync (R391)
  ssent : BitVec 16 := 0
  sTxTime : Nat := 0
  peerSseq : BitVec 16 := 0xFFFF
  peerRxseq : BitVec 16 := 0xFFFF
  peerArrival : Nat := 0
  sentTx : List TxContainer := []
  deriving DecidableEq, Repr

/-! ### Registers of the blocks -/

/-- FABRIC counters and settings (R50, R247, R279). -/
structure Fabric where
  holdLead : Nat := 8
  guardPm : Nat := 20
  frameRounds : Nat := 0
  freezeAllow : Nat := 4096
  arrivalLimit : Nat := 4096
  frameIndex : BitVec 64 := 0
  curCycle : Nat := 0
  budget : Nat := 0
  freezes : BitVec 32 := 0
  frozenCycles : BitVec 64 := 0
  frameFrozen : BitVec 32 := 0
  holdsSent : BitVec 32 := 0
  holdsJoined : BitVec 32 := 0
  framesDeferred : BitVec 32 := 0
  deferRounds : BitVec 32 := 0
  freezeOver : BitVec 32 := 0
  flips : BitVec 32 := 0
  landDups : BitVec 32 := 0
  landStale : BitVec 32 := 0
  noteDups : BitVec 32 := 0
  noteGaps : BitVec 32 := 0
  noteDrops : BitVec 32 := 0
  hubXoff : BitVec 32 := 0
  -- SLICE_CFG (R247)
  slice : Nat := 0
  sizeX : Nat := 1
  sizeY : Nat := 1
  sizeZ : Nat := 1
  x0 : Nat := 0
  y0 : Nat := 0
  z0 : Nat := 0
  wrapX : Bool := false
  wrapY : Bool := false
  wrapZ : Bool := false
  flowBase : Nat := 0
  flowCount : Nat := 0
  resendWait : Nat := 4
  resendReq : BitVec 32 := 0
  resendServed : BitVec 32 := 0
  resendStale : BitVec 32 := 0
  detours : BitVec 32 := 0
  noteReversals : BitVec 32 := 0
  -- epochs (R229 to R233)
  active : Bool := false
  writable : Bool := false
  writing : Option Nat := none
  staged : Option (Nat × Nat) := none
  ticksSinceFlip : Nat := 0
  flipRound : Option Nat := none
  -- detour (R233, R275, R277)
  union : List Link := []
  announced : List Nat := []
  detourSet : Option Nat := none
  flippedUnion : Option (List Link) := none
  deriving DecidableEq, Repr

/-- One hold of a sender for a frame (R42, R43, R244). -/
structure HoldRec where
  x : Nat
  y : Nat
  z : Nat
  frame : Nat
  pause : Bool
  at_ : Nat
  ready : Option Nat := none
  deriving DecidableEq, Repr

/-- Frame control (R38 to R46, R421). -/
structure FrameCtl where
  e : Nat := 0
  tick : Nat := 0
  nextTick : Nat := 0
  tickWait : Bool := false
  waitStart : Bool := false
  completedAt : Option Nat := none
  holdOut : Bool := false
  ownReady : Option Nat := none
  pauseSent : Bool := false
  holds : List HoldRec := []
  stopFor : Option (Nat × Nat) := none
  stopped : Bool := false
  pauseAt : Option Nat := none
  runTo : Option Nat := none
  pausedFrom : DevState := .running
  abortAt : Option Nat := none
  abortUnload : Bool := false
  horizonDone : Bool := false
  tickTaken : Bool := false
  ranOnce : Bool := false
  firstFrame : Nat := 0
  framesRun : Nat := 0
  lastClean : Option Nat := none
  deriving DecidableEq, Repr

/-- The freeze network (R34 to R37, R85, R163). -/
structure FreezeNet where
  reqs : List FreezeReq := []
  held : Option Nat := none
  halted : Bool := false
  faultAt : Option Nat := none
  startMt : Nat := 0
  causes : List FreezeReq := []
  retention : Nat := 0
  overThis : Bool := false
  raised : List FaultRec := []
  deriving DecidableEq, Repr

/-- An executed entry of a controller program (R158): kind 1 ACT, 2 PRE, 3 RD, 4 WR, 6 GAP, 7 BACT. -/
structure CtlEntry where
  kind : Nat
  delta : Nat
  bank : Nat := 0
  row : Nat := 0
  col : Nat := 0
  tag : Nat := 0
  deriving DecidableEq, Repr

/-- A slot memory controller (R154 to R164): the open row of each bank plus 1, the cycle of the last entry, the entries executed in the
frame, the refreshes and scrub windows done, the scrub pointers, the machine time of each bank's last refresh, the request table (arrival
cycle and row), the sectors on their way to the corrector, and the programs. -/
structure Ctl where
  openRow : List (Nat × Nat) := []
  cycle : Nat := 0
  entries : List CtlEntry := []
  ended : Bool := false
  refreshN : Nat := 0
  scrubN : Nat := 0
  scrubRow : List (Nat × Nat) := []
  lastRefresh : List (Nat × Nat) := []
  requests : List (Nat × Nat) := []
  returns : List (Nat × Nat) := []
  windowsDone : Nat := 0
  programs : List (List DWord) := []
  deriving DecidableEq, Repr

/-- An entry of the repair list (R172): controller, bank, row, and whether uncorrectable. -/
structure RepairEntry where
  ctl : Nat
  bank : Nat
  row : Nat
  ue : Bool
  deriving DecidableEq, Repr

/-- A page remap (R174): controller, page, spare. -/
structure Remap where
  ctl : Nat
  page : Nat
  spare : Nat
  deriving DecidableEq, Repr

/-- A zone (R152): its MIO and its groups in order. -/
structure Zone where
  mio : Nat
  groups : List Nat
  deriving DecidableEq, Repr

/-- The cellars (R146 to R181). -/
structure Cellar where
  bytes : List (Nat × Byte) := []
  errors : List (Nat × BitVec 288) := []
  zones : List Zone := []
  ctls : List (Nat × Ctl) := []
  retired : List Nat := []
  remaps : List Remap := []
  sparesUsed : List (Nat × Nat) := []
  pprUsed : List (Nat × Nat) := []
  repair : List RepairEntry := []
  rowCe : List (Nat × Nat) := []
  ueBanks : List (Nat × Nat) := []
  windowOpen : Bool := false
  ageNs : Nat := 1600
  quietNs : Nat := 200
  ceRowLimit : Nat := 16
  ueCount : BitVec 32 := 0
  scrubUe : BitVec 32 := 0
  retRefreshes : BitVec 64 := 0
  retHolds : BitVec 32 := 0
  pagesRetired : BitVec 32 := 0
  pcsRetired : BitVec 32 := 0
  winDenied : BitVec 32 := 0
  lastUeDa : BitVec 64 := 0
  scrubPasses : BitVec 32 := 0
  ceCount : List (Nat × BitVec 32) := []
  lastRead : Option (List Byte) := none
  deriving DecidableEq, Repr

/-- A Hatch area of the timetable (R176, R283): kind 0 `IN`, 1 `OUT`, 2 `WORK`, 3 ingest, 4 token output. -/
structure Area where
  offset : Nat
  size : Nat
  kind : Nat
  deriving DecidableEq, Repr

/-- The Hatch (R176 to R178) with the host journal, the ingest requests and the pages written in the frame. -/
structure Hatch where
  bytes : List (Nat × Byte) := []
  areas : List Area := []
  journal : List (Nat × List Byte) := []
  journalBytes : Nat := 0
  withheld : List (Nat × List Byte) := []
  requests : List (List Byte) := []
  reqDropped : Nat := 0
  dirtyPages : List Nat := []
  lastRead : Option (List Byte) := none
  deriving DecidableEq, Repr

/-- CMDWIN registers, the outstanding commands and the replies (R409 to R416). -/
structure Reply where
  seq : Nat
  status : Nat
  reason : Nat := 0
  results : List (Nat × Byte) := []
  deriving DecidableEq, Repr

/-- A command that was answered `ACCEPTED` and has no final reply yet (R416). -/
structure Outstanding where
  opcode : Nat
  packet : Packet
  long : Bool
  final : Option (Nat × Nat × List (Nat × Byte)) := none
  deriving DecidableEq, Repr

/-- The command window. -/
structure CmdWin where
  log2Slots : Nat := 6
  irqEn : Bool := false
  en : Bool := false
  cmdBase : BitVec 64 := 0
  rplBase : BitVec 64 := 0
  intakePeriod : Nat := 2000
  nextSeq : BitVec 32 := 0
  rplWritten : BitVec 32 := 0
  rplConsumed : BitVec 32 := 0
  rplFull : Bool := false
  intakes : BitVec 32 := 0
  commands : BitVec 32 := 0
  repliesLost : BitVec 32 := 0
  authFails : BitVec 32 := 0
  queue : List Reply := []
  out : List Outstanding := []
  irqs : Nat := 0
  suspended : Bool := false
  foMsgs : List (Nat × Nat × Nat × List Byte) := []
  deriving DecidableEq, Repr

/-! ### Crates, images, placement -/

/-- A section of a crate as pulled (R282, R283). -/
structure Section where
  stype : Nat
  var : Nat
  devX : Nat
  devY : Nat
  devZ : Nat
  offset : Nat
  length : Nat
  sdig : List Byte
  data : List Byte
  deriving DecidableEq, Repr

/-- A loaded crate (R281). -/
structure Crate where
  digest : List Byte
  fpcmin : Nat
  mode : Mode
  props : Nat
  features : Nat
  frameRounds : Nat
  nvar : Nat
  shapeWrap : Nat
  shapeX : Nat
  shapeY : Nat
  shapeZ : Nat
  timeErr : Nat
  nflows : Nat
  reserve : Nat
  nframes : Nat
  sections : List Section
  signed : Bool
  deriving DecidableEq, Repr

/-- A variant record (R292). -/
structure VariantRec where
  index : Nat
  pref : Nat
  n0 : Nat
  n1 : Nat
  n2 : Nat
  n3 : Nat
  batch : Nat
  deriving DecidableEq, Repr

/-- A data segment of a core (R143). -/
structure Seg where
  attic : Bool
  offset : Nat
  bytes : List Byte
  deriving DecidableEq, Repr

/-- A core section of an image (R143). -/
structure CoreSect where
  lcore : Nat
  group : Nat
  owner : Bool
  entries : List Nat
  setters : List (Nat × Setter)
  afmap : List (Nat × Nat)
  tileinit : List Word
  sinit : List Word
  flows : List OwnFlow
  code : List (Nat × DWord)
  segs : List Seg
  deriving DecidableEq, Repr

/-- The resend source of an owned flow and phase (R289). -/
structure SourceRec where
  flow : Nat
  phase : Nat
  attic : Bool
  lcore : Nat
  base : Nat
  deriving DecidableEq, Repr

/-- A timetable image (R301) of one variant, or the reason for which the variant is unfit (R292). -/
structure Image where
  variant : Nat
  fit : Bool
  reason : Nat := 0
  detail : Nat := 0
  location : List (Nat × Byte) := []
  origin : Nat := 0
  fpc : Nat := 1
  assy : Nat := 0
  crateDigest : List Byte := []
  sheetDigest : List Byte := []
  devX : Nat := 0
  devY : Nat := 0
  devZ : Nat := 0
  digest : List Byte := []
  e : Nat := 0
  budget : Nat := 0
  guardPm : Nat := 0
  inputDigest : List Byte := []
  stepping : Stepping := .a0
  mode : Mode := .peak
  frameRounds : Nat := 64
  nent : Nat := 1
  nframes : Nat := 0
  flowBase : Nat := 0
  cores : List CoreSect := []
  sets : List TableSet := []
  flips : List (Nat × Nat) := []
  sources : List SourceRec := []
  sourceDevs : List (Nat × Nat × Nat) := []
  areas : List Area := []
  seeds : List (Nat × GenCtx) := []
  programs : List (Nat × List (List DWord)) := []
  signed : Bool := false
  deriving DecidableEq, Repr

/-- The placement in force (R321). -/
structure Placement where
  variant : Nat
  flags : Nat
  policy : Nat
  frame : Nat
  regionMap : List (Nat × Nat)
  temps : List (Nat × Nat)
  wears : List (Nat × Nat)
  streamLoad : Nat
  binBase : Nat
  binCount : Nat
  rowcol : List (Nat × List Nat)
  binOrder : List Nat
  ttDigest : List Byte
  digest : List Byte
  record : List Byte := []
  deriving DecidableEq, Repr

/-- Loader and Storekeeper (R286, R303, R306, R311, R314). -/
structure Mgmt where
  fpc : Nat := 1
  crate : Option Crate := none
  images : List Image := []
  verified : Bool := false
  verifiedSettings : List Byte := []
  placed : Option Placement := none
  loadedImage : Option Image := none
  defectCores : List Nat := []
  defectRows : List Nat := []
  retiredCores : List Nat := []
  retiredRegions : List Nat := []
  usable : List Nat := [16, 16, 16, 16]
  wear : List (Nat × BitVec 64) := []
  refRegion : Nat := 0
  deriving DecidableEq, Repr

/-- The states of a stream entry (R330). -/
inductive StreamSt where
  | free | pending | waiting | active | drain | done
  deriving DecidableEq, Repr

/-- A stream table entry (R330). -/
structure Stream where
  state : StreamSt := .free
  cause : Nat := 0
  sid : Nat := 0
  pos : Nat := 0
  gen : Nat := 0
  bpos : Option Nat := none
  nbins : Nat := 0
  step : BitVec 64 := 0
  placeFrame : Nat := 0
  endFrame : Nat := 0
  atFrame : Nat := 0
  plen : Nat := 0
  maxtok : Nat := 0
  promptOff : Nat := 0
  temp : Word := 0
  topp : Word := 0
  topk : Nat := 0
  nstop : Nat := 0
  tpblog : Nat := 0
  stops : List Word := []
  seed : BitVec 128 := 0
  step0 : BitVec 64 := 0
  diroff : Option Nat := none
  retireAt : Option Nat := none
  bins : List Nat := []
  deriving DecidableEq, Repr

/-- A batch record (R342) as the hub keeps it for the output check of R343. -/
structure BatchRec where
  bpos : Nat
  entry : Nat
  sid : Nat
  pos : Nat
  emits : Bool
  drain : Bool
  bytes : List Byte
  deriving DecidableEq, Repr

/-- Generation streams (R327 to R347). -/
structure Streams where
  entries : List (Nat × Stream) := []
  waiting : List Nat := []
  freeOrder : List Nat := []
  positions : Nat := 0
  nclass : Nat := 0
  batch : List (Nat × List BatchRec) := []
  admitted : BitVec 32 := 0
  completed : BitVec 32 := 0
  drainSteps : BitVec 32 := 0
  outMismatch : BitVec 32 := 0
  deriving DecidableEq, Repr

/-- An inventory record (R350). `read` marks one that a `READ_INVENTORY` has returned, and, in the larder, one that the host has acknowledged (R357,
R358). -/
structure InvRec where
  kind : Nat
  flags : Nat
  sub : Nat
  seqno : Nat
  frame : Nat
  length : Nat
  time : Nat
  src : Nat
  digest : List Byte
  content : List Byte
  read : Bool := false
  deriving DecidableEq, Repr

/-- The kept run certificate (R373, R375). -/
structure Cert where
  body : List Byte
  ckind : Nat
  signature : Option (List Byte)
  deriving DecidableEq, Repr

/-- The inventory, the chains, the replay and the certificate (R349 to R376). -/
structure Inventory where
  sizeGib : Nat := 16
  smallKib : Nat := 4
  digestOnly : Bool := false
  buffer : List InvRec := []
  bufBytes : Nat := 0
  ring : List InvRec := []
  ringBytes : Nat := 0
  head : Nat := 0
  nextSeq : BitVec 64 := 0
  larder : List InvRec := []
  recovered : Bool := false
  chain : List Byte := []
  linking : Bool := false
  links : List (List Byte) := []
  frameHead : List Byte := []
  outputHead : List Byte := []
  choices : BitVec 64 := 0
  throttles : BitVec 32 := 0
  holds : BitVec 32 := 0
  sealMismatch : BitVec 32 := 0
  portCheck : List (Nat × BitVec 64) := []
  records : Nat := 0
  replay : Option (List InvRec) := none
  replayNext : Bool := false
  lastFrame : Nat := 0
  replayRef : List Byte := []
  cert : Option Cert := none
  interim : Option Cert := none
  wasHoldover : Bool := false
  utcStart : Nat := 0
  utcEnd : Nat := 0
  ueBase : BitVec 32 := 0
  deriving DecidableEq, Repr

/-- Machine time, local time and UTC (R388 to R401). `mtFrac` counts 2^-32 ns. -/
structure Time where
  mtState : TimeState := .free
  ltState : TimeState := .free
  depth : Nat := 0xFF
  root : Bool := false
  parent : Nat := 31
  sameRef : Bool := false
  utcSteer : Bool := false
  jumpNs : Nat := 2000
  holdoverMax : Nat := 1000
  tick : BitVec 64 := 0
  mtNs : BitVec 64 := 0
  mtFrac : BitVec 32 := 0
  mtFracLatch : BitVec 32 := 0
  rho : Int := 0
  pendingOff : Int := 0
  ltPending : Int := 0
  ltOffset : Int := 0
  ltRate : Int := 0
  ltBase : BitVec 64 := 0
  utcOffset : Nat := 0
  utcOffsetValid : Bool := false
  lastTheta : Int := 0
  thetas : List (Nat × Int) := []
  errBound : Nat := 0
  holdoverAt : Nat := 0
  holdoverErr : Nat := 0
  goodRun : Nat := 0
  ltGoodRun : Nat := 0
  syncRx : BitVec 32 := 0
  jumpsRefused : BitVec 32 := 0
  holdovers : BitVec 32 := 0
  ptpDiscards : BitVec 32 := 0
  ptpEn : Bool := false
  ptpPort : Nat := 0
  ptpP2p : Bool := false
  ptpTransport : Nat := 0
  ptpDomain : Nat := 0
  masters : List (Nat × Nat × Nat × Bool) := []
  master : Option Nat := none
  ptpDelay : Int := 0
  ppsWidth : Nat := 1000
  ppsInDisc : Bool := false
  ppsInEn : Bool := false
  ppsOutSrc : Bool := false
  ppsOutEn : Bool := false
  ppsInTs : BitVec 64 := 0
  ppsInCount : BitVec 32 := 0
  ppsWait : Option (Nat × Nat × Nat) := none
  refTime : Bool := true
  refSys : Bool := true
  parentErrb : Nat := 0
  deriving DecidableEq, Repr

/-- Clocks and the power governor (R378 to R387, R402). -/
structure Clock where
  mode : Mode := .peak
  staged : Option Mode := none
  stagedByGov : Bool := false
  byGovernor : Bool := false
  ditherAmp : Nat := 0
  ditherPeriod : Nat := 100
  targetKhz : Nat := 1200000
  nextTargetKhz : Option Nat := none
  power : Nat := 0
  overRounds : Nat := 0
  throttleRounds : Nat := 0
  stretchEvents : BitVec 64 := 0
  marginWarns : BitVec 32 := 0
  govSteps : BitVec 32 := 0
  autoThrottles : BitVec 32 := 0
  minMargin : List (Nat × Nat) := []
  warned : List (Nat × Bool) := []
  lastMargin : List (Nat × Nat) := []
  lastWarned : List (Nat × Bool) := []
  storekeeperTemp : List (Nat × Nat) := []
  events : List Nat := []
  applied : List (Nat × Nat) := []
  lastStretch : List (Nat × Nat) := []
  stretchDue : List (Nat × Nat) := []
  avsPending : Bool := false
  govKhz : Nat := 1200000
  deriving DecidableEq, Repr

/-- Temperatures, power, thermal state and faults counted (R477, R518). -/
structure Stats where
  faults : BitVec 32 := 0
  windowOvf : BitVec 32 := 0
  regionTemp : List (Nat × Int) := []
  siteTemp : List (Nat × Int) := []
  cellarTemp : List (Nat × Int) := []
  tstate : Nat := 0
  tmax : Nat := 0
  hottest : Nat := 0
  railPower : List (Nat × Nat) := []
  energy : BitVec 64 := 0
  energyFrac : Nat := 0
  sensorState : List (Nat × Nat) := []
  pinSlew : BitVec 32 := 0x463
  deriving DecidableEq, Repr

/-- An alarm slot (R483). -/
structure AlarmSlot where
  reason : Nat := 0
  source : Nat := 0
  spill : Bool := false
  pending : Bool := false
  fault : Bool := false
  count : BitVec 32 := 0
  firstMt : Nat := 0
  lastMt : Nat := 0
  firstFrame : Nat := 0
  lastFrame : Nat := 0
  body : List Byte := []
  block : Nat := 0
  deriving DecidableEq, Repr

/-- The first-fault latch (R485). -/
structure Latch where
  record : FaultRec
  mt : Nat
  slot : Nat
  deriving DecidableEq, Repr

/-- A box room record waiting in a queue or written (R478): partition 0 seals, 1 events, 2 samples. -/
structure BoxRec where
  part : Nat
  port : Nat := 0
  bytes : List Byte
  deriving DecidableEq, Repr

/-- Alarms and the box room (R478 to R490). -/
structure Alarms where
  slots : List (Nat × AlarmSlot) := []
  latch : Option Latch := none
  larderFault : Option FaultRec := none
  irqEn : Bool := false
  raised : BitVec 32 := 0
  spills : BitVec 32 := 0
  eventDrops : BitVec 32 := 0
  irqs : Nat := 0
  alertOn : Bool := false
  boxQueue : List BoxRec := []
  box : List (Nat × List Byte) := []
  headSeal : BitVec 64 := 0
  headEvent : BitVec 64 := 0
  headSample : BitVec 64 := 0
  lostSeal : BitVec 32 := 0
  lostEvent : BitVec 32 := 0
  lostSample : BitVec 32 := 0
  copiedSeal : BitVec 64 := 0
  copiedEvent : BitVec 64 := 0
  copiedSample : BitVec 64 := 0
  partialDue : Bool := false
  brPage : Nat := 0
  ovfGib : Nat := 0
  evmask : BitVec 10 := 0x3FF
  crashLog : List (List Byte) := []
  deriving DecidableEq, Repr

/-- An enrolled key (R465). -/
structure Key where
  role : Nat
  index : Nat
  key : List Byte
  deriving DecidableEq, Repr

/-- One settings copy of the flash (R448, R451), or a staged image: its sequence number, its TLV entries (type with the critical bit, value),
its signature and digest, bytes 0 to 15 as staged, and what its device-owned entries hold: the retirement list, wear and counters. -/
structure SetCopy where
  present : Bool := false
  valid : Bool := false
  seq : BitVec 64 := 0
  entries : List (Nat × List Byte) := []
  sigBytes : List Byte := []
  digest : List Byte := []
  head : List Byte := []
  retCores : List Nat := []
  retRegions : List Nat := []
  retPcs : List Nat := []
  remaps : List Remap := []
  wear : List (Nat × BitVec 64) := []
  counters : List (Nat × BitVec 64) := []
  deriving DecidableEq, Repr

/-- A calibration item (R454): item, index, factory value, bounds, user offset. -/
structure CalItem where
  item : Nat
  index : Nat
  factory : Int
  lower : Int
  upper : Int
  deriving DecidableEq, Repr

/-- The settings store and what is in force (R448 to R455). -/
structure Settings where
  copyA : SetCopy := {}
  copyB : SetCopy := {}
  inForceB : Bool := false
  defaults : Bool := false
  badA : Bool := false
  badB : Bool := false
  staged : Option SetCopy := none
  writing : Bool := false
  deviceDue : Nat := 0
  calClamped : Bool := false
  calRecordBad : Bool := false
  verifyPolicy : Nat := 0
  rotatePolicy : Nat := 0
  zoning : Option (List (Nat × Nat)) := none
  ideRequired : Bool := false
  keys : List Key := []
  factory : List CalItem := []
  fusedCal : List (Nat × Int) := []
  factoryDigest : List Byte := []
  applied : List (Nat × Int) := []
  userCal : List (Nat × Nat × Int) := []
  deriving DecidableEq, Repr

/-- A firmware copy (R458): present, activated, version, security version, whether it passes R459, its measurement. -/
structure FwCopy where
  present : Bool := false
  activated : Bool := false
  fwver : BitVec 32 := 0
  svn : Nat := 0
  authOk : Bool := false
  measurement : List Byte := []
  deriving DecidableEq, Repr

/-- Keys, firmware, debug and sessions (R457 to R475, R487 to R489). -/
structure Sec where
  copyA : FwCopy := { present := true, activated := true, authOk := true }
  copyB : FwCopy := {}
  runB : Bool := false
  fallback : Bool := false
  fwStaged : Bool := false
  actPending : Bool := false
  arb : Nat := 0
  unlockFuses : Nat := 0
  unlocked : Bool := false
  setsig : Bool := false
  challenge : Option (List Byte) := none
  challengeAt : Nat := 0
  sigFails : BitVec 32 := 0
  sessions : List Nat := []
  ideStreams : List Nat := []
  romDigest : List Byte := []
  rootDigest : List Byte := []
  fuseDigest : List Byte := []
  signKeySlots : List (List Byte) := []
  slotRevoked : List Nat := []
  debugKeyDigest : List Byte := []
  idPublic : List Byte := []
  chain : List Byte := []
  measLog : List Byte := []
  sheetDigest : List Byte := []
  crateSigned : Bool := false
  crateKey : Nat := 0
  crateUnknown : Bool := false
  imageSigned : Bool := false
  imageKey : Nat := 0
  eid : Byte := 0
  eventReceiver : Option Byte := none
  events : List (Nat × List Byte) := []
  lastResponse : List Byte := []
  pldmUpdate : Bool := false
  pldmData : List Byte := []
  foCounters : List (Nat × BitVec 64) := []
  tapIr : Nat := 1
  deriving DecidableEq, Repr

/-- Reset control and bring-up (R435 to R446). -/
structure Resets where
  cause : BitVec 12 := 1
  firstLevel : Nat := 0
  firstSrc : Nat := 0
  wdogMs : Nat := 2000
  quiesce10us : Nat := 10
  ldnCore : Bool := false
  hotCore : Bool := false
  bootFail : Nat := 0
  bootStep : Nat := 0
  bootMs : Nat := 0
  blockKind : Nat := 0
  blockIndex : Nat := 0
  blockBusy : Bool := false
  blockUs : Nat := 0
  blockRefused : Bool := false
  blockTimedOut : Bool := false
  blockDone : Bool := false
  sysResets : BitVec 32 := 0
  coreResets : BitVec 32 := 0
  backup : List (Nat × BitVec 64) := []
  asserted : List Nat := []
  level : Option Nat := some 0
  first : Option Nat := some 0
  bootCount : Nat := 0
  pendingReset : Option (Nat × Nat) := none
  tripped : Bool := false
  larderFrame : Nat := 0
  larderState : Nat := 0
  deriving DecidableEq, Repr

/-- The pins that the package drives, and the rails (R511, R514, R524). -/
structure Pins where
  active : Bool := false
  alertN : Bool := false
  thermtripN : Bool := true
  ppsOut : Bool := false
  hbmVpp : Bool := false
  hbmVdd : Bool := false
  hbmVddq : Bool := false
  txIdle : Bool := true
  railsGood : BitVec 16 := 0xFFFF
  deriving DecidableEq, Repr

/-- A note source as the receiver tracks it (R241): next sequence expected, notes held out of order, message parts. -/
structure NoteSrc where
  x : Nat
  y : Nat
  z : Nat
  bcast : Bool
  next : BitVec 16 := 0
  held : List RNote := []
  parts : List RNote := []
  gapAt : Option Nat := none
  deriving DecidableEq, Repr

/-- THE STATE. `pending` is the model's queue of waiting commands, `freeCtr` its counter of free values. -/
structure State where
  variant : Variant := .d1m
  stepping : Stepping := .a0
  serial : BitVec 64 := 0
  boardPos : BitVec 2 := 0
  dev : DevState := .off
  cores : List (Nat × Core) := []
  contexts : List (Nat × GenCtx) := []
  pathUses : List PathUse := []
  frame : FrameCtl := {}
  freeze : FreezeNet := {}
  fabric : Fabric := {}
  verA : TableVersion := {}
  verB : TableVersion := {}
  land : List (Nat × LandState) := []
  landQueue : List Landing := []
  capture : Bool := false
  ports : List (Nat × Port) := []
  plan : Option WiringPlan := none
  noteIn : List RNote := []
  xoff : Bool := false
  noteSrcs : List NoteSrc := []
  noteSeqs : List (Nat × BitVec 16) := []
  requests : List (Nat × Nat × Nat × Nat × Nat) := []
  heldRequests : List (Nat × Nat × Nat × Nat) := []
  resendQueue : List (Nat × Nat × Nat) := []
  resendPosted : Nat := 0
  transit : Option (Bool × List TEntry × List XEntry) := none
  cellar : Cellar := {}
  hatch : Hatch := {}
  cmd : CmdWin := {}
  mgmt : Mgmt := {}
  streams : Streams := {}
  inv : Inventory := {}
  time : Time := {}
  clock : Clock := {}
  stats : Stats := {}
  alarms : Alarms := {}
  settings : Settings := {}
  sec : Sec := {}
  resets : Resets := {}
  pins : Pins := {}
  hostOut : List (Nat × List Byte) := []
  freeCtr : Nat := 0
  pending : List Instr := []
  deriving DecidableEq, Repr

/-- The machine right after power-on reset (R8, R418, R435): the device is `OFF` until its release, every register holds the reset value of its table,
and every value without one is that of its log entry (DESIGN CHOICE, log entries 2, 3, 4 and 5; DEDUCED, log entry 10). -/
def State.reset : State := {}

end Sys2Proof.Machine
end

