-- ==== Sys2Proof/Machine/Ops.lean ====
section
/-! DEFINITION. The named operations over the state that every family shares: access to cores, ports and controllers,
completion of writes in flight, core faults (R85 to R87), alarms (R482 to R486), events (R479) and the first-fault latch. -/

namespace Sys2Proof.Machine

open Sys2Proof

/-- What a command answers. -/
abbrev Out := Host.Outcome State Fault Refusal

/-! ### Free values -/

/-- The next free byte (DESIGN CHOICE, log entry 1). -/
def State.freeByte (s : State) : Byte := Config.freeByte s.freeCtr

/-- `n` free bytes (DESIGN CHOICE, log entry 1). -/
def State.freeBytes (s : State) (n : Nat) : List Byte := (List.range n).map (fun i => Config.freeByte (s.freeCtr + i))

/-- Advance the counter of free values (DESIGN CHOICE, log entry 1). -/
def State.useFree (s : State) (n : Nat) : State := { s with freeCtr := s.freeCtr + n }

/-! ### Parts -/

/-- The number of logical cores of the package (R10) (DEDUCED, log entry 85). -/
def coreCount : Nat := 81920

/-- A logical core. -/
def State.core (s : State) (c : Nat) : Core := spGet {} s.cores c

/-- Replace a logical core. -/
def State.setCore (s : State) (c : Nat) (k : Core) : State := { s with cores := spSet {} s.cores c k }

/-- A command of a core: a core that does not exist stops the model (R10, R60) (DEDUCED, log entries 84 and 85). -/
def onCore (c : Nat) (s : State) (f : State → State) : Out :=
  if c < coreCount then .next (f s) else .fault .noSuchCore

/-- The ports of a variant (R184) (DESIGN CHOICE, log entry 3; DEDUCED, log entry 85). -/
def portExists (v : Variant) (p : Nat) : Bool :=
  match v with
  | .d1m => decide (p < 11)
  | .d1b => decide (p < 15) || p == 20 || p == 21
  | .d1l => decide (p < 22)

/-- A port. -/
def State.port (s : State) (p : Nat) : Port := spGet {} s.ports p

/-- Replace a port. -/
def State.setPort (s : State) (p : Nat) (q : Port) : State := { s with ports := spSet {} s.ports p q }

/-- Change a port. -/
def State.modPort (s : State) (p : Nat) (f : Port → Port) : State := s.setPort p (f (s.port p))

/-- A command of a port: a port that the variant does not have stops the model (R184) (DEDUCED, log entries 84 and 85). -/
def onPort (p : Nat) (s : State) (f : State → State) : Out :=
  if portExists s.variant p then .next (f s) else .fault .noSuchPort

/-- The indexes of the ports of the variant, ascending. -/
def State.portList (s : State) : List Nat := (List.range 22).filter (portExists s.variant)

/-- The number of MIO dies of a variant (R1, R9) (DESIGN CHOICE, log entry 3). -/
def mioCount : Variant → Nat
  | .d1m => 4
  | .d1b => 3
  | .d1l => 2

/-- The number of cellars of a variant (R1) (DESIGN CHOICE, log entry 3; DEDUCED, log entry 85). -/
def cellarCount (v : Variant) : Nat := 5 * mioCount v

/-- A slot memory controller (DESIGN CHOICE, log entry 9). -/
def State.ctl (s : State) (k : Nat) : Ctl := spGet {} s.cellar.ctls k

/-- Replace a slot memory controller. -/
def State.setCtl (s : State) (k : Nat) (x : Ctl) : State :=
  { s with cellar := { s.cellar with ctls := spSet {} s.cellar.ctls k x } }

/-- A command of a controller: one that the variant does not have stops the model (R9, R154) (DEDUCED, log entries 84 and 85). -/
def onCtl (k : Nat) (s : State) (f : State → State) : Out :=
  if k < 160 * mioCount s.variant then .next (f s) else .fault .noSuchController

/-- Whether a port is an ingest port (R184). -/
def isIngest (p : Nat) : Bool := p == 9 || p == 10 || p == 20 || p == 21

/-- The full width of a port in lanes (R184). -/
def fullWidth (p : Nat) : Nat := if isIngest p then 8 else 16

/-! ### Time and frame -/

/-- Machine time in ns (R388, R389) (DESIGN CHOICE, log entry 11). -/
def State.now (s : State) : Nat := s.time.mtNs.toNat

/-- The current slot round (R27). -/
def State.round (s : State) : Nat := s.now / 1024

/-- The frame index (R30). -/
def State.frameIndex (s : State) : Nat := s.fabric.frameIndex.toNat

/-- What `n` ticks of slew drain from a pending offset (R394), in 2^-32 ns: 50 × 10^-6 ns in each tick, never past zero. -/
def drained (p : Int) (n : Nat) : Int :=
  let m : Int := 214748 * n
  if p < 0 then (if p < -m then -m else p) else (if m < p then m else p)

/-- `n` ticks of 1 GHz pass for the tick counter, for the pending offset of machine time and for that of local time (R389, R394) (DESIGN CHOICE, log
entry 11; DEDUCED, log entry 82). -/
def Time.pass (t : Time) (n : Nat) : Time :=
  let d := drained t.pendingOff n
  let l := drained t.ltPending n
  { t with tick := t.tick + BitVec.ofNat 64 n, pendingOff := t.pendingOff - d, ltPending := t.ltPending - l, ltOffset := t.ltOffset + l }

/-- Machine time moves on to the time of an event, never back (DESIGN CHOICE, log entry 11). -/
def State.advanceTo (s : State) (t : Nat) : State :=
  if s.now < t then { s with time := { s.time.pass (t - s.now) with mtNs := BitVec.ofNat 64 t, mtFrac := 0 } } else s

/-- Whether local time is valid (R389). -/
def State.ltValid (s : State) : Bool := s.time.ltState == .locked || s.time.ltState == .holdover

/-- Local time in ns (R389); its offset is kept in 2^-32 ns. -/
def State.localTime (s : State) : Int :=
  (s.time.tick.toNat : Int) + s.time.ltOffset / (2 ^ 32 : Nat)
    + (((s.time.tick.toNat : Int) - s.time.ltBase.toNat) * s.time.ltRate) / (2 ^ 40 : Nat)

/-- UTC in ns, zero where it is not set (R374, R397). -/
def State.utcNow (s : State) : Nat :=
  if s.ltValid && s.time.utcOffsetValid then (s.localTime - s.time.utcOffset * 1000000000).toNat else 0

/-- Whether the device runs frames (R418). -/
def State.inRun (s : State) : Bool := s.dev == .running || s.dev == .replay

/-- All ones in 64 bits. -/
def ones64 : Nat := 2 ^ 64 - 1

/-- The frame index, or all ones outside a run (R483) (DEDUCED, log entry 38). -/
def State.frameOrOnes (s : State) : Nat := if s.inRun then s.frameIndex else ones64

/-- A 32-bit counter that saturates (R476). -/
def satInc (v : BitVec 32) : BitVec 32 := if v = BitVec.allOnes 32 then v else v + 1

/-! ### Coordinates -/

/-- The physical region 16 × die + region of a logical one (R290, R314); without a placement, itself. -/
def State.physRegion (s : State) (g : Nat) : Nat :=
  match s.mgmt.placed with
  | some p => match p.regionMap.find? (fun e => e.1 = g) with
    | some e => e.2
    | none => g
  | none => g

/-- The disabled row, and the disabled column of a physical row, of physical region `j` (R71 to R73): 32 and 40, the spares,
where no core is disabled. The list of a region is its disabled row and then its 33 disabled columns. -/
def State.spares (s : State) (j : Nat) : List Nat :=
  match s.mgmt.placed with
  | some p => match p.rowcol.find? (fun e => e.1 = j) with
    | some e => e.2
    | none => []
  | none => []

/-- The physical die, region, row and column of a logical core (R71, R72). -/
def State.physCore (s : State) (c : Nat) : Nat × Nat × Nat × Nat :=
  let j := s.physRegion (c / 1280)
  let l := s.spares j
  let row := c % 1280 / 40
  let col := c % 40
  let drow := l.headD 32
  let prow := if row < drow then row else row + 1
  let dcol := (l.drop (1 + prow)).headD 40
  (j / 16, j % 16, prow, if col < dcol then col else col + 1)

/-! ### Events, alarms and the first-fault latch -/

/-- The target frequency, at least 1 kHz. -/
def State.rate (s : State) : Nat := Nat.max s.clock.targetKhz 1

/-- The machine time at which cycle `c` of the frame begins: 256 ns after the tick, at the target rate, later by the frozen periods of the frame (R36,
R38) (DESIGN CHOICE, log entry 11). -/
def State.cycleTime (s : State) (c : Nat) : Nat :=
  s.frame.tick + 256 + ceilDiv ((c + s.fabric.frameFrozen.toNat) * 1000000) s.rate

/-- The cycle that executes at machine time `t`, at most `E`. -/
def State.cycleAt (s : State) (t : Nat) : Nat :=
  Nat.min s.frame.e (((t - s.frame.tick - 256) * s.rate) / 1000000 - s.fabric.frameFrozen.toNat)

/-- The package cycle index at this moment: the cycle of machine time while cycles run, else the first one held: *E* in tick wait (R34, R38, R42)
(DEDUCED, log entry 36). -/
def State.cycleNow (s : State) : Nat :=
  if s.inRun && !s.frame.tickWait && !s.frame.stopped && !s.freeze.halted then Nat.max s.fabric.curCycle (s.cycleAt s.now) else s.fabric.curCycle

/-- Queue an event record for the box room (R478, R479): the kind must be enabled, and the queue holds 64 records. The
sequence number is given when the record is written. -/
def boxEvent (s : State) (kind : Nat) (body : List Byte) : State :=
  if !bit s.alarms.evmask.toNat (kind - 1) then s
  else if 64 ≤ (s.alarms.boxQueue.filter (fun r => r.part = 1)).length then
    { s with alarms := { s.alarms with lostEvent := s.alarms.lostEvent + 1 } }
  else
    let cyc := if s.inRun then s.cycleNow else 2 ^ 32 - 1
    let bytes := [1, BitVec.ofNat 8 kind] ++ zeros 2 ++ zeros 4 ++ leBytes 8 s.now ++ leBytes 8 s.frameIndex ++ leBytes 4 cyc
      ++ slice body 0 36
    { s with alarms := { s.alarms with boxQueue := s.alarms.boxQueue ++ [{ part := 1, bytes := bytes }] } }

/-- Queue a PLDM event message (R488): a queue of 32, and nothing without a receiver. -/
def pldmEvent (s : State) (cls : Nat) (body : List Byte) : State :=
  if s.sec.eventReceiver = none ∨ 32 ≤ s.sec.events.length then
    { s with alarms := { s.alarms with eventDrops := s.alarms.eventDrops + 1 } }
  else { s with sec := { s.sec with events := s.sec.events ++ [(cls, body)] } }

/-- The code of a device state (R409, R418). -/
def devCode : DevState → Nat
  | .off => 0 | .boot => 1 | .idle => 2 | .loaded => 3 | .running => 4 | .held => 5 | .faulted => 6 | .replay => 7

/-- The device enters a state: a change of the state sensor queues a sensorEvent (R488). At each entry to `IDLE`, to `LOADED` and to `HELD`
with `STOPPED` set the partial blocks of the box room are due to be copied (R480). -/
def setDev (s : State) (d : DevState) : State :=
  let s1 := { s with
    dev := d, alarms := { s.alarms with partialDue := s.alarms.partialDue || d == .idle || d == .loaded || (d == .held && s.frame.stopped) } }
  if devCode s.dev = devCode d then s1 else pldmEvent s1 1 (leBytes 2 0x100 ++ leBytes 1 (devCode d) ++ leBytes 1 (devCode s.dev))

/-- The bytes of an alarm slot (R483). -/
def alarmBytes (a : AlarmSlot) : List Byte :=
  leBytes 2 a.reason ++ [1, BitVec.ofNat 8 (1 + 2 * b2n a.spill + 4 * b2n a.pending + 8 * b2n a.fault)] ++ leBytes 4 a.source
    ++ leBytes 4 a.count.toNat ++ zeros 4 ++ leBytes 8 a.firstMt ++ leBytes 8 a.lastMt ++ leBytes 8 a.firstFrame
    ++ leBytes 8 a.lastFrame ++ zeros 8 ++ slice a.body 0 64

/-- The first slot and the spill slot of the pool of a reason (R482). -/
def alarmPool (reason : Nat) : Nat × Nat :=
  match reason / 256 with
  | 1 => (0, 31) | 2 => (32, 63) | 3 => (64, 95) | 4 => (96, 159) | 5 => (160, 287) | 6 => (288, 319)
  | 7 => (320, 351) | 8 => (352, 383) | 9 => (384, 415) | 0xA => (416, 447) | 0xB => (448, 479) | _ => (480, 511)

/-- The level of ALERT_N: low, that is asserted, until step 9 of bring-up, and from then on while a slot is pending (R440, R484). -/
def State.alertLine (s : State) : State :=
  { s with pins := { s.pins with alertN := s.alarms.alertOn && !s.alarms.slots.any (fun e => e.2.pending) } }

/-- The block that coalesces a "coalesced per frame" alarm: the frame of a run, else 64 slot rounds (R483). -/
def State.alarmBlock (s : State) : Nat := if s.inRun then 2 * s.frameIndex + 2 else 2 * (s.round / 64) + 1

/-- The slot number that an occurrence updates or takes (R483): its key's slot, else the lowest free slot, else the spill. -/
def alarmPlace (slots : List (Nat × AlarmSlot)) (reason source : Nat) : Nat :=
  let (lo, hi) := alarmPool reason
  match slots.find? (fun e => decide (lo ≤ e.1) && decide (e.1 ≤ hi) && e.2.reason == reason && e.2.source == source) with
  | some e => e.1
  | none =>
    match (List.range (hi - lo)).find? (fun i => !(slots.any (fun e => e.1 == lo + i))) with
    | some i => lo + i
    | none => hi

/-- An occurrence of an alarm (R483, R484): the slot, its count, and the signal when it becomes pending. -/
def raiseAlarm (s : State) (reason source : Nat) (body : List Byte := []) (fault : Bool := false) (perFrame : Bool := false) : State :=
  let a := s.alarms
  let n := alarmPlace a.slots reason source
  let spill := n == (alarmPool reason).2
  let isNew := !(a.slots.any (fun e => e.1 == n))
  let old := spGet {} a.slots n
  let keyHeld := !isNew && old.reason == reason && old.source == source
  let same := !isNew && perFrame && old.block == s.alarmBlock
  let base : AlarmSlot :=
    if isNew then { reason, source, spill, fault, firstMt := s.now, firstFrame := s.frameOrOnes, body := slice body 0 64 } else old
  let upd := if same then { base with lastMt := s.now, lastFrame := s.frameOrOnes }
    else { base with lastMt := s.now, lastFrame := s.frameOrOnes, count := satInc base.count, pending := true, block := s.alarmBlock }
  let a1 := { a with slots := spSet {} a.slots n upd, raised := a.raised + 1, spills := if spill && !keyHeld then a.spills + 1 else a.spills }
  let signal := upd.pending && !(old.pending && !isNew)
  let a2 := if signal && a1.irqEn then { a1 with irqs := a1.irqs + 1 } else a1
  let s1 := { s with alarms := a2 }
  State.alertLine (if signal then pldmEvent s1 0xF0 (alarmBytes upd) else s1)

/-- A change of a device-owned settings entry: a commit of the device is due (R453) (DEDUCED, log entry 66). -/
def deviceCommit (s : State) : State := { s with settings := { s.settings with deviceDue := s.settings.deviceDue + 1, writing := true } }

/-- The 64 bytes of a fault record (R87). -/
def faultBytes (f : FaultRec) : List Byte :=
  leBytes 2 f.reason ++ [1, BitVec.ofNat 8 f.engine] ++ leBytes 4 f.lcore ++ leBytes 1 f.pdie ++ leBytes 1 f.pregion
    ++ leBytes 1 f.prow ++ leBytes 1 f.pcol ++ leBytes 2 f.pc ++ leBytes 2 f.bytes14 ++ leBytes 8 f.frame ++ leBytes 4 f.cycle
    ++ leBytes 2 f.object ++ zeros 2 ++ leBytes 4 f.shortfall ++ leBytes 1 f.engine2 ++ leBytes 1 f.byte37 ++ leBytes 2 f.pc2
    ++ leBytes 4 (f.lcore2.getD 0) ++ leBytes 4 f.detail ++ zeros 16

/-- Whether the first-fault latch takes a fault or stop: it is free, or it holds a stop note that arrived in the same ns as an own fault (R485,
R509). -/
def State.latchTakes (s : State) (f : FaultRec) : Bool :=
  match s.alarms.latch with
  | some l => l.record.reason == 0x0205 && l.mt == s.now && f.reason != 0x0205
  | none => true

/-- The alarm of a fault or stop, and its latching as the run's first (R485): the larder copy and the event of kind 0x0A (DEDUCED, log entries 35 and
95). -/
def latchFault (s : State) (f : FaultRec) (source : Nat) : State :=
  let n := alarmPlace s.alarms.slots f.reason source
  let s1 := raiseAlarm s f.reason source (faultBytes f) true
  if !s.latchTakes f then s1 else
    boxEvent { s1 with alarms := { s1.alarms with latch := some { record := f, mt := s.now, slot := n }, larderFault := some f } }
      0x0A (leBytes 2 f.reason ++ leBytes 2 n)

/-! ### Core faults (R85 to R87) -/

/-- Fill the fields of a core's fault record that every reason has (R87). -/
def State.coreRec (s : State) (c unit pc cycle : Nat) (f : FaultRec) : FaultRec :=
  let (d, r, y, x) := s.physCore c
  { f with engine := unit, lcore := c, pdie := d, pregion := r, prow := y, pcol := x, pc, frame := s.frameIndex, cycle,
           lcore2 := if f.engine2 = 0xFF then f.lcore2 else some (f.lcore2.getD c) }

/-- A core fault: the core stops issuing and dispatching, the fault enters the freeze network and is counted (R85, R86) (DEDUCED, log entry 35). -/
def raiseCore (s : State) (c unit pc cycle : Nat) (f : FaultRec) : State :=
  let r := s.coreRec c unit pc cycle f
  let s1 := s.setCore c { s.core c with halted := true }
  { s1 with
    freeze := { s1.freeze with
      raised := s1.freeze.raised ++ [r],
      faultAt := some (match s1.freeze.faultAt with | some t => Nat.min t (cycle + 12) | none => cycle + 12) },
    stats := { s1.stats with faults := satInc s1.stats.faults } }

/-- The first cycle index that is held: by a freeze, by a fault halt or by the end of the schedule (R34, R38, R85). -/
def State.heldFrom (s : State) : Nat :=
  let h := s.frame.e
  let h := match s.freeze.held with | some t => Nat.min h t | none => h
  match s.freeze.faultAt with | some t => Nat.min h t | none => h

/-- `IDE_REQUIRED` holds the host off until IDE streams stand on all three protocols (R408) (DEDUCED, log entry 79). -/
def State.ideWaits (s : State) : Bool := s.settings.ideRequired && decide (s.sec.ideStreams.length < 3)

/-- Whether the package executes cycles at all: a run, a frame begun, no tick wait, no halt (R38, R85, R519). -/
def State.cycling (s : State) : Bool := s.inRun && !s.frame.tickWait && !s.frame.stopped && decide (s.stats.tstate < 3)

/-- Raise a freeze request at cycle `t` for flag `f` (R34): a first request fixes the first held index (DEDUCED, log entry 36). -/
def requestFreeze (s : State) (c unit : Nat) (arrival : Bool) (f t pc : Nat) : State :=
  let r : FreezeReq := { core := c, unit, arrival, flag := f, cycle := t, pc }
  if s.freeze.reqs.any (fun q => q.core == c && q.unit == unit && q.arrival == arrival && q.flag == f) then s
  else { s with freeze := { s.freeze with
    reqs := s.freeze.reqs ++ [r], causes := s.freeze.causes ++ [r],
    held := some (match s.freeze.held with | some h => Nat.min h (t + 12) | none => t + 12),
    startMt := if s.freeze.reqs.isEmpty then s.now else s.freeze.startMt } }

/-! ### Writes in flight (R128) -/

/-- Apply the part of a write that lies in the core's own stores. -/
def Core.applyWrite (k : Core) (w : MemWrite) : Core :=
  match w.space with
  | .shelf => { k with shelf := writeBytes k.shelf w.addr w.bytes }
  | .attic => { k with attic := writeBytes k.attic w.addr w.bytes }
  | .staging => { k with staging := writeBytes k.staging w.addr w.bytes }
  | .code =>
    { k with code := (chunks 8 w.bytes).zipIdx.foldl (fun m e => spSet 0 m (w.addr + e.2) (BitVec.ofNat 64 (ofLe e.1))) k.code }
  | _ => k

/-- The core with every memory write that is readable at cycle `t` applied (R128, R134 to R138) (DEDUCED, log entry 28). -/
def Core.settleMem (k : Core) (t : Nat) : Core :=
  let due := k.pend.filter (fun p => decide (p.ready ≤ t))
  let k1 := (due.map (·.writes)).flatten.foldl Core.applyWrite k
  let k2 := { k1 with pend := k.pend.map (fun p => if p.ready ≤ t then { p with writes := [], clearArrival := none } else p) }
  due.foldl (fun m p => match p.clearArrival with
    | some f => { m with aflags := spSet false m.aflags f false }
    | none => m) k2

/-- Insert a pending action in order of its ready cycle, clears before sets (R78). -/
def insertPend (p : Pending) : List Pending → List Pending
  | [] => [p]
  | q :: t => if p.ready < q.ready ∨ (p.ready = q.ready ∧ p.flag = none) then p :: q :: t else q :: insertPend p t

/-- One pending flag action (R78): clears, then a set; a set of a set flag is a double set (DEDUCED, log entry 29). -/
def Core.flagAction (k : Core) (p : Pending) : Core × Option (Pending × FaultRec) :=
  let k1 := match p.clearFlag with
    | some f => { k with sflags := spSet false k.sflags f false }
    | none => k
  match p.flag with
  | none => (k1, none)
  | some f =>
    if spGet false k1.sflags f then (k1, some (p, { reason := 0x0104, object := 0x4000 + f, detail := f }))
    else ({ k1 with sflags := spSet false k1.sflags f true, sflagAt := spSet 0 k1.sflagAt f p.ready }, none)

/-- The core with every flag action of a cycle before `t` done, and the double sets found (R78) (DEDUCED, log entry 28). -/
def Core.settleFlags (k : Core) (t : Nat) : Core × List (Pending × FaultRec) :=
  let due := k.pend.filter (fun p => decide (p.ready < t))
  let ord := due.foldl (fun l p => insertPend p l) []
  let k0 := { k with pend := k.pend.filter (fun p => decide (t ≤ p.ready)) }
  ord.foldl (fun (acc : Core × List (Pending × FaultRec)) p =>
    match acc.1.flagAction p with
    | (k', none) => (k', acc.2)
    | (k', some e) => (k', acc.2 ++ [e])) (k0, [])

end Sys2Proof.Machine
end

