-- ==== Sys2Proof/Machine/Operands.lean ====
section
/-! DEFINITION. Operands: registers with their ready-cycle tags (R59, R82, R83), memory as it is readable at a cycle, operand
fields (R127), and the use of banks, of the attic port and of path resources (R63, R64, R68). -/

namespace Sys2Proof.Machine

open Sys2Proof

/-- A result or the fault that takes its place. -/
abbrev Res (α : Type) := Except FaultRec α

/-- Object codes of R87 and R142: kind in bits [15:12]. -/
def obj (kind n : Nat) : Nat := kind * 4096 + n

/-- The key of a register's tag: 0 scalar, 1 vector, 2 predicate, 3 accumulator, 6 code page, 11 generator context. -/
def tagKey (kind n : Nat) : Nat := kind * 4096 + n

/-- The tag of a register. -/
def Core.tag (k : Core) (kind n : Nat) : Tag := spGet {} k.tags (tagKey kind n)

/-- Whether a register carries a tag: s0 and p0 carry none (R59). -/
def tagged (kind n : Nat) : Bool := !((kind == 0 || kind == 2) && n == 0)

/-- The check of a read at cycle `t` (R82): the value must be ready. -/
def Core.chkRead (k : Core) (kind n t : Nat) : Res Unit :=
  let r := (k.tag kind n).ready
  if tagged kind n && decide (t < r) then .error { reason := 0x0101, object := obj kind n, shortfall := r - t } else .ok ()

/-- The check of a write that will be ready at cycle `r` (R83): it must follow an outstanding write. -/
def Core.chkWrite (k : Core) (kind n r : Nat) : Res Unit :=
  let g := k.tag kind n
  if tagged kind n && decide (r ≤ g.ready) then
    .error { reason := 0x0102, object := obj kind n, engine2 := g.unit, pc2 := g.pc }
  else .ok ()

/-- A result that would be ready after cycle E − 1 spills (R54). -/
def chkSpill (e r object : Nat) : Res Unit :=
  if e ≤ r then .error { reason := 0x0105, object } else .ok ()

/-- Set the tag of a register (R82). -/
def Core.setTag (k : Core) (kind n r unit pc : Nat) : Core :=
  if tagged kind n then { k with tags := spSet {} k.tags (tagKey kind n) { ready := r, unit, pc } } else k

/-- A scalar register: s0 reads as zero (R59). -/
def Core.sreg (k : Core) (n : Nat) : Word := if n = 0 then 0 else spGet 0 k.sregs n

/-- Write a scalar register: a write of s0 is discarded (R59). -/
def Core.setSreg (k : Core) (n : Nat) (v : Word) : Core := if n = 0 then k else { k with sregs := spSet 0 k.sregs n v }

/-- A vector register. -/
def Core.vreg (k : Core) (n : Nat) : BitVec 256 := spGet 0 k.vregs n

/-- Write a vector register. -/
def Core.setVreg (k : Core) (n : Nat) (v : BitVec 256) : Core := { k with vregs := spSet 0 k.vregs n v }

/-- A predicate register: p0 reads as all ones (R59). -/
def Core.preg (k : Core) (n : Nat) : BitVec 16 := if n = 0 then BitVec.allOnes 16 else spGet 0 k.pregs n

/-- Write a predicate register: a write of p0 is discarded (R59). -/
def Core.setPreg (k : Core) (n : Nat) (v : BitVec 16) : Core := if n = 0 then k else { k with pregs := spSet 0 k.pregs n v }

/-- An accumulator tile. -/
def Core.tile (k : Core) (n : Nat) : Tile := spGet {} k.tiles n

/-- Replace an accumulator tile. -/
def Core.setTile (k : Core) (n : Nat) (t : Tile) : Core := { k with tiles := spSet {} k.tiles n t }

/-- Read a scalar register at cycle `t` (R58, R82). -/
def Core.readS (k : Core) (n t : Nat) : Res Word := do
  k.chkRead 0 n t
  return k.sreg n

/-- Read a vector register at cycle `t`. -/
def Core.readV (k : Core) (n t : Nat) : Res (BitVec 256) := do
  k.chkRead 1 n t
  return k.vreg n

/-- Read a predicate register at cycle `t`. -/
def Core.readP (k : Core) (n t : Nat) : Res (BitVec 16) := do
  k.chkRead 2 n t
  return k.preg n

/-- Read an accumulator tile at cycle `t`. -/
def Core.readT (k : Core) (n t : Nat) : Res Tile := do
  k.chkRead 3 n t
  return k.tile n

/-! ### Stores -/

/-- The size of a core's store in bytes (R61, R64, R131). -/
def spaceSize : Space → Nat
  | .shelf => 0xC000
  | .attic => 0x18000
  | _ => 0x1000

/-- The required alignment of an operand (R127). -/
def spaceAlign : Space → Nat
  | .attic => 64
  | _ => 32

/-- A byte of a store of a core; a byte of staging that this frame has not written is a free value (R131, log entry 7). -/
def Core.byteAt (k : Core) (sp : Space) (a : Nat) : Byte :=
  match sp with
  | .shelf => spGet 0 k.shelf a
  | .attic => spGet 0 k.attic a
  | .staging =>
    match k.staging.find? (fun e => e.1 == a) with
    | some e => e.2
    | none => match k.stagingFree with
      | some n => Config.freeByte (n + a)
      | none => 0
  | _ => 0

/-- `n` bytes of a store of a core as they are readable at cycle `t` (R128). -/
def Core.load (k : Core) (sp : Space) (a n t : Nat) : List Byte :=
  let k := k.settleMem t
  (List.range n).map (fun i => k.byteAt sp (a + i))

/-! ### Operand fields (R127) -/

/-- The store that an operand field names: none for code 3. -/
def opSpace (f : BitVec 32) : Option Space :=
  match (f.toNat / 2 ^ 17) % 4 with
  | 0 => some .shelf
  | 1 => some .attic
  | 2 => some .staging
  | _ => none

/-- The base register of an operand field. -/
def opBase (f : BitVec 32) : Nat := bits f.toNat 23 19

/-- The effective address: offset plus base, modulo 2^17 (DEDUCED, log entry 24). -/
def opAddr (f : BitVec 32) (base : Word) : Nat := (bits f.toNat 16 0 + base.toNat) % 2 ^ 17

/-- The check of a memory operand of `n` bytes (R63, R127), lowest code first (R140): a register-addressed shelf access must stay in its declared
banks, every byte must lie in its store, and the address must be aligned (DEDUCED, log entry 24). -/
def chkOperand (sp : Space) (addr n : Nat) (based : Bool) (bankm : BitVec 8) : Res Unit :=
  let granules := (List.range (ceilDiv (addr % 32 + n) 32)).map (fun i => (addr / 32 + i) % 8)
  let escape := granules.find? (fun b => !bit bankm.toNat b)
  match (if sp == .shelf && based then escape else none) with
  | some b => .error { reason := 0x0401, object := obj 7 b, detail := addr }
  | none =>
    if spaceSize sp < addr + n then .error { reason := 0x0404, detail := addr }
    else if addr % spaceAlign sp ≠ 0 then .error { reason := 0x0405, detail := addr }
    else .ok ()

/-! ### Use of banks and of the attic port (R63, R64) -/

/-- The order of units in R63: MX, VX, SX, NX, sequencer. A unit is coded as `ENGINE` of R87. -/
def unitOrder (u : Nat) : Nat := if u = 0 then 5 else u

/-- A bank number: 0 to 7 of the shelf, 8 for the attic port. -/
abbrev Bank := Nat

/-- The banks that `n` bytes at an address use in one cycle; staging uses none. -/
def banksOf (sp : Space) (a n : Nat) : List Bank :=
  match sp with
  | .shelf => (List.range (ceilDiv (a % 32 + n) 32)).map (fun i => (a / 32 + i) % 8)
  | .attic => [8]
  | _ => []

/-- A conflict of a new use with one that is logged: the fault, and the unit and program counter that it is raised on, the
one later in the order of R63. -/
def useConflict (k : Core) (u : BankUse) (addr : Nat) : Option (Nat × Nat × FaultRec) :=
  match k.uses.find? (fun v => v.cycle == u.cycle && v.bank == u.bank) with
  | none => none
  | some v =>
    let o := if u.bank = 8 then obj 8 0 else obj 7 u.bank
    if unitOrder v.unit ≤ unitOrder u.unit then
      some (u.unit, u.pc, { reason := 0x0402, object := o, engine2 := v.unit, pc2 := v.pc, detail := addr, cycle := u.cycle })
    else some (v.unit, v.pc, { reason := 0x0402, object := o, engine2 := u.unit, pc2 := u.pc, detail := addr, cycle := u.cycle })

/-- Log the uses of banks by a command; the first conflict ends the log. A conflict withdraws the writes in flight of both
(R63: neither access is performed). -/
def Core.logUses (k : Core) : List (BankUse × Nat) → Core × Option (Nat × Nat × FaultRec)
  | [] => (k, none)
  | (u, a) :: t =>
    match useConflict k u a with
    | some e =>
      let other := (k.uses.filter (fun v => v.cycle == u.cycle && v.bank == u.bank)).map (fun v => (v.unit, v.pc))
      ({ k with pend := k.pend.map (fun p => if other.contains (p.unit, p.pc) then { p with writes := [] } else p) }, some e)
    | none => Core.logUses { k with uses := u :: k.uses } t

/-! ### Path resources (R68, R534) -/

/-- The conflict of a transfer with one dispatched before it, or in the same cycle and later in the order of R63. -/
def pathConflict (s : State) (cycle resource : Nat) (core : Option Nat) : Option PathUse :=
  s.pathUses.find? (fun v => v.cycle == cycle && v.resource == resource &&
    (match core with | some c => v.core == c | none => true))

end Sys2Proof.Machine
end

