-- ==== Sys2Proof/Machine/CellarMap.lean ====
section
/-! DEFINITION. The geometry of the cellars: channel groups (R151), zones (R152, R153), sectors (R150), page remaps (R174),
the device address map (R146) and the I/O bridge latencies (R139). A cellar byte is kept under the number
(controller × 25,165,824 + sector) × 32 + byte, controller = 160 × MIO + pseudo-channel. -/

namespace Sys2Proof.Machine

open Sys2Proof

/-- Sectors of a pseudo-channel (R150). -/
def sectorsPerPc : Nat := 25165824

/-- Usable sector addresses of a member of a group (R151). -/
def usableSectors : Nat := 25157632

/-- Bytes of a group: 12,284 MiB (R151). -/
def groupBytes : Nat := 12880707584

/-- Whether a controller is retired whole (R175). -/
def State.pcRetired (s : State) (k : Nat) : Bool := s.cellar.retired.contains k

/-- The healthy pseudo-channels of a MIO in ascending order, as controller numbers (R151). -/
def State.healthyPcs (s : State) (m : Nat) : List Nat :=
  (List.range 160).filterMap fun p => if s.pcRetired (160 * m + p) then none else some (160 * m + p)

/-- The number of groups that a MIO forms (R151). -/
def State.groupCount (s : State) (m : Nat) : Nat := (s.healthyPcs m).length / 16

/-- The default zoning: one zone per MIO, all of its groups in ascending order (R153) (DESIGN CHOICE, log entry 9). -/
def State.defaultZones (s : State) : List Zone :=
  (List.range (mioCount s.variant)).filterMap fun m =>
    if s.groupCount m = 0 then none else some { mio := m, groups := List.range (s.groupCount m) }

/-- Zones from a zoning list of (MIO, number of groups) pairs, each taking the MIO's next groups in order (R153, R316). -/
def zonesFrom (s : State) (used : List (Nat × Nat)) : List (Nat × Nat) → List Zone
  | [] => []
  | (m, n) :: t =>
    let u := spGet 0 used m
    { mio := m, groups := (List.range n).map (· + u) } :: zonesFrom s (spSet 0 used m (u + n)) t

/-- The bytes of a zone. -/
def zoneBytes (z : Zone) : Nat := z.groups.length * groupBytes

/-- The populated cellar bytes (R152, R181). -/
def State.populated (s : State) : Nat := (s.cellar.zones.map zoneBytes).sum

/-- The zone that holds a device address, and the offset in it. -/
def findZone : List Zone → Nat → Option (Zone × Nat)
  | [], _ => none
  | z :: t, o => if o < zoneBytes z then some (z, o) else findZone t (o - zoneBytes z)

/-- The place of a cellar address (R152): controller, sector and byte, before any page remap. -/
def State.daPlace (s : State) (da : Nat) : Option (Nat × Nat × Nat) :=
  match findZone s.cellar.zones da with
  | none => none
  | some (z, o) =>
    let b := o / 512
    let g := z.groups.getD (b % z.groups.length) 0
    let k := (s.healthyPcs z.mio).getD (16 * g + o % 512 / 32) 0
    some (k, b / z.groups.length, o % 32)

/-- The page remap of a sector (R174). -/
def State.remapSector (s : State) (k a : Nat) : Nat :=
  match s.cellar.remaps.find? (fun r => r.ctl == k && r.page == a / 128) with
  | some r => r.spare * 128 + a % 128
  | none => a

/-- The key of a sector: controller × sectors + sector, after the page remap. -/
def State.sectorKey (s : State) (da : Nat) : Option Nat :=
  match s.daPlace da with
  | some (k, a, _) => some (k * sectorsPerPc + s.remapSector k a)
  | none => none

/-- Byte `i` of a sector as the corrector gives it (R169, R170): the byte written, with what errors the corrector leaves. -/
def State.sectorByte (s : State) (n i : Nat) : Byte :=
  spGet 0 s.cellar.bytes (n * 32 + i) ^^^ sectorSymbol (sectorResidue (spGet 0 s.cellar.errors n)) i

/-- The 32 data bytes of a sector as the corrector gives them. -/
def State.sectorData (s : State) (n : Nat) : List Byte := (List.range 32).map (s.sectorByte n)

/-- A sector is written with the data the corrector gives, and fresh check bits (R170, R173) (DEDUCED, log entry 30). -/
def rewriteSector (s : State) (n : Nat) : State :=
  { s with cellar := { s.cellar with bytes := writeBytes s.cellar.bytes (n * 32) (s.sectorData n), errors := spSet 0 s.cellar.errors n 0 } }

/-- A cellar byte by device address (DESIGN CHOICE, log entry 8). -/
def State.cellarByte (s : State) (da : Nat) : Byte :=
  match s.sectorKey da with
  | some n => s.sectorByte n (da % 32)
  | none => 0

/-- `n` cellar bytes from a device address. -/
def State.cellarRead (s : State) (da n : Nat) : List Byte := (List.range n).map (fun i => s.cellarByte (da + i))

/-- Write cellar bytes by device address. A write is of a whole sector and stores fresh check bits, so the sector then holds no errors
(R170, R171; log entry 30). -/
def State.cellarWrite (s : State) (da : Nat) : List Byte → State
  | [] => s
  | b :: t =>
    match s.sectorKey da with
    | none => State.cellarWrite s (da + 1) t
    | some n =>
      State.cellarWrite { s with cellar := { s.cellar with bytes := spSet 0 s.cellar.bytes (n * 32 + da % 32) b,
                                                            errors := spSet 0 s.cellar.errors n 0 } } (da + 1) t

/-- The sectors that `n` bytes from a device address touch, as device addresses of their first bytes. -/
def sectorsOf (da n : Nat) : List Nat := (List.range (ceilDiv (da % 32 + n) 32)).map (fun i => (da / 32 + i) * 32)

/-- The first sector of a range that is uncorrectable when read (R169 to R171). -/
def State.firstBad (s : State) (da n : Nat) : Option Nat :=
  (sectorsOf da n).find? fun a => match s.sectorKey a with
    | some k => sectorClass (spGet 0 s.cellar.errors k) == 2
    | none => false

/-- The Hatch range of device addresses (R146). -/
def hatchBase : Nat := 0x012000000000

/-- The Hatch size (R176). -/
def hatchSize : Nat := 0x4000000

/-- Whether a range lies in the Hatch. -/
def inHatch (da n : Nat) : Bool := decide (hatchBase ≤ da) && decide (da + n ≤ hatchBase + hatchSize)

/-- The I/O site of a MIO (R9). -/
def mioSite (v : Variant) (m : Nat) : Nat :=
  match v with
  | .d1m => [1, 2, 4, 5].getD m 1
  | .d1b => [1, 2, 4].getD m 1
  | .d1l => [1, 4].getD m 1

/-- The I/O site of the LIO that carries a port (R9, R184). -/
def portSite (v : Variant) (p : Nat) : Nat :=
  let lio := if p ≤ 3 ∨ p = 6 then 0 else if p ≤ 10 then 1 else if p ≤ 14 ∨ p = 17 then 2
    else if p = 20 ∨ p = 21 then (match v with | .d1l => 3 | _ => 2) else 3
  match v with
  | .d1m => [0, 3].getD lio 0
  | .d1b => [0, 3, 5].getD lio 0
  | .d1l => [0, 2, 3, 5].getD lio 0

/-- The I/O bridge latency λ of a compute die and a site (R139). -/
def bridgeLatency (die site : Nat) : Nat :=
  (([[56, 64, 72, 88, 96, 104], [72, 64, 56, 104, 96, 88], [88, 96, 104, 56, 64, 72], [104, 96, 88, 72, 64, 56]] : List (List Nat)).getD
    die []).getD site 0

/-- λ of a logical core to a site: the die is that of its placement (R138). -/
def State.lambda (s : State) (c site : Nat) : Nat := bridgeLatency (s.physCore c).1 site

/-- The I/O site that serves a device address: the MIO of its zone, or the hub. -/
def State.daSite (s : State) (da : Nat) : Nat :=
  match findZone s.cellar.zones da with
  | some (z, _) => mioSite s.variant z.mio
  | none => 0

/-- The fixed cellar read latency C (R159). -/
def cellarC : Nat := 76

/-! ### The Hatch and the settling of a core -/

/-- Insert into an ascending list without repeats. -/
def insertNat (n : Nat) : List Nat → List Nat
  | [] => [n]
  | m :: t => if n < m then n :: m :: t else if n = m then m :: t else m :: insertNat n t

/-- Write Hatch bytes at an offset, as cores do (R145); the 4 KiB pages written are kept for the sealed copies. -/
def State.hatchWrite (s : State) (off : Nat) (bs : List Byte) : State :=
  let pages := (List.range ((off + bs.length - 1) / 4096 + 1 - off / 4096)).map (· + off / 4096)
  { s with hatch := { s.hatch with bytes := writeBytes s.hatch.bytes off bs,
                                    dirtyPages := pages.foldl (fun m p => insertNat p m) s.hatch.dirtyPages } }

/-- Whether a write goes to a cellar or to the Hatch. -/
def MemWrite.isDevice (w : MemWrite) : Bool := w.space == .hatch || w.space == .cellar

/-- A write of a cellar (by device address) or of the Hatch (by offset). -/
def State.applyDevice (s : State) (w : MemWrite) : State :=
  match w.space with
  | .cellar => s.cellarWrite w.addr w.bytes
  | .hatch => s.hatchWrite w.addr w.bytes
  | _ => s

/-- The writes of core `c` to cellars and the Hatch that have taken place by cycle `t` (R138, R159). -/
def settleDevice (s : State) (c t : Nat) : State :=
  let k := s.core c
  let due := (k.pend.filter (fun p => decide (p.ready ≤ t))).flatMap (fun p => p.writes.filter MemWrite.isDevice)
  if due.isEmpty then s
  else
    let k' := { k with pend := k.pend.map (fun p =>
      if p.ready ≤ t then { p with writes := p.writes.filter (fun w => !w.isDevice) } else p) }
    due.foldl State.applyDevice (s.setCore c k')

/-- The cellars and the Hatch as they stand at cycle `t`. -/
def settleDevices (s : State) (t : Nat) : State := s.cores.foldl (fun m e => settleDevice m e.1 t) s

/-- The landing buffer of an arrival flag is empty once the flag is cleared (R227). -/
def State.emptyBuffer (s : State) (c f : Nat) : State :=
  match (s.core c).afmap.find? (fun e => e.1 == f) with
  | some e => { s with land := spSet {} s.land e.2 {} }
  | none => s

/-- The package with core `c` brought to cycle `t`: flag actions before `t`, writes readable at `t` (DEDUCED, log entry 28). -/
def settle (s : State) (c t : Nat) : State :=
  let s0 := settleDevice s c t
  let clears := ((s0.core c).pend.filter (fun p => decide (p.ready ≤ t))).filterMap (·.clearArrival)
  let s1 := clears.foldl (fun m f => m.emptyBuffer c f) s0
  let (k, es) := ((s1.core c).settleMem t).settleFlags t
  es.foldl (fun m e => raiseCore m c e.1.unit e.1.pc e.1.ready e.2) (s1.setCore c k)

end Sys2Proof.Machine
end

