-- ==== Sys2Proof/Machine/Keccak.lean ====
section
/-! DEFINITION. SHAKE128 and SHAKE256, the digest H of the inventory (R349) and the checksums of the links (R189, R190, R360). -/

namespace Sys2Proof.Machine

/-- The 25 lanes of the permutation, in the order x + 5 y. -/
abbrev Lanes := List (BitVec 64)

/-- Lane (x, y). -/
def lane (s : Lanes) (x y : Nat) : BitVec 64 := s.getD (x % 5 + 5 * (y % 5)) 0

/-- Rotation offsets in the order x + 5 y. -/
def rotOffsets : List Nat :=
  [0, 1, 62, 28, 27, 36, 44, 6, 55, 20, 3, 10, 43, 25, 39, 41, 45, 15, 21, 8, 18, 2, 61, 56, 14]

/-- The 24 round constants. -/
def roundConstants : List (BitVec 64) :=
  [0x0000000000000001, 0x0000000000008082, 0x800000000000808A, 0x8000000080008000,
   0x000000000000808B, 0x0000000080000001, 0x8000000080008081, 0x8000000000008009,
   0x000000000000008A, 0x0000000000000088, 0x0000000080008009, 0x000000008000000A,
   0x000000008000808B, 0x800000000000008B, 0x8000000000008089, 0x8000000000008003,
   0x8000000000008002, 0x8000000000000080, 0x000000000000800A, 0x800000008000000A,
   0x8000000080008081, 0x8000000000008080, 0x0000000080000001, 0x8000000080008008]

/-- All lane positions (x, y) in storage order. -/
def lanePositions : List (Nat × Nat) := (List.range 25).map (fun i => (i % 5, i / 5))

/-- Step θ. -/
def stepTheta (s : Lanes) : Lanes :=
  let c := (List.range 5).map (fun x => lane s x 0 ^^^ lane s x 1 ^^^ lane s x 2 ^^^ lane s x 3 ^^^ lane s x 4)
  let d := (List.range 5).map (fun x => c.getD ((x + 4) % 5) 0 ^^^ (c.getD ((x + 1) % 5) 0).rotateLeft 1)
  lanePositions.map (fun p => lane s p.1 p.2 ^^^ d.getD p.1 0)

/-- Steps ρ and π: lane (x, y) of the result is the rotated lane (x + 3 y, x). -/
def stepRhoPi (s : Lanes) : Lanes :=
  lanePositions.map (fun p =>
    let x := (p.1 + 3 * p.2) % 5
    let y := p.1
    (lane s x y).rotateLeft (rotOffsets.getD (x + 5 * y) 0))

/-- Step χ. -/
def stepChi (s : Lanes) : Lanes :=
  lanePositions.map (fun p => lane s p.1 p.2 ^^^ (~~~ lane s (p.1 + 1) p.2 &&& lane s (p.1 + 2) p.2))

/-- One round. -/
def keccakRound (s : Lanes) (rc : BitVec 64) : Lanes :=
  match stepChi (stepRhoPi (stepTheta s)) with
  | [] => []
  | a :: t => (a ^^^ rc) :: t

/-- The permutation. -/
def keccakF (s : Lanes) : Lanes := roundConstants.foldl keccakRound s

/-- Absorb one block of lanes. -/
def xorLanes : Lanes → Lanes → Lanes
  | s, [] => s
  | [], _ => []
  | a :: s, b :: t => (a ^^^ b) :: xorLanes s t

/-- A block of bytes as lanes. -/
def toLanes (bs : List Byte) : Lanes := (chunks 8 bs).map (fun w => BitVec.ofNat 64 (ofLe w))

/-- The state as bytes. -/
def ofLanes (s : Lanes) : List Byte := s.flatMap (fun w => leBytes 8 w.toNat)

/-- Squeeze `n` blocks of `rate` bytes. -/
def squeeze (rate : Nat) : Nat → Lanes → List Byte
  | 0, _ => []
  | n + 1, s => (ofLanes s).take rate ++ squeeze rate n (keccakF s)

/-- The padding with domain byte `dom`. -/
def spongePad (rate : Nat) (dom : Nat) (m : List Byte) : List Byte :=
  let k := rate - m.length % rate
  if k = 1 then m ++ [BitVec.ofNat 8 (dom + 0x80)]
  else m ++ BitVec.ofNat 8 dom :: zeros (k - 2) ++ [0x80]

/-- The sponge: `outLen` bytes of the message at a rate in bytes. -/
def sponge (rate dom : Nat) (m : List Byte) (outLen : Nat) : List Byte :=
  let s := (chunks rate (spongePad rate dom m)).foldl (fun st b => keccakF (xorLanes st (toLanes b)))
    (List.replicate 25 0)
  (squeeze rate (ceilDiv outLen rate) s).take outLen

/-- SHAKE128 (R115). -/
def shake128 (m : List Byte) (n : Nat) : List Byte := sponge 168 0x1F m n

/-- SHAKE256 (R282). -/
def shake256 (m : List Byte) (n : Nat) : List Byte := sponge 136 0x1F m n

/-- H: the first 64 bytes of SHAKE256. -/
def hashH (m : List Byte) : List Byte := shake256 m 64

/-- One bit of a reflected CRC-32C. -/
def crc32cBit (c : Nat) : Nat := if c % 2 = 1 then (c / 2) ^^^ 0x82F63B78 else c / 2

/-- CRC-32C of the iSCSI definition (R189). -/
def crc32c (bs : List Byte) : Nat :=
  (bs.foldl (fun c b => (List.range 8).foldl (fun c _ => crc32cBit c) (c ^^^ b.toNat)) 0xFFFFFFFF) ^^^ 0xFFFFFFFF

/-- CRC-8 with polynomial 0x07 and initial value 0 (R190). -/
def crc8 (bs : List Byte) : Nat :=
  bs.foldl (fun c b => (List.range 8).foldl
    (fun c _ => if c ≥ 128 then ((c * 2) % 256) ^^^ 0x07 else (c * 2) % 256) (c ^^^ b.toNat)) 0

/-- CRC-64 of ECMA-182, most significant bit first, initial value 0 (R360). -/
def crc64 (bs : List Byte) : Nat :=
  bs.foldl (fun c b => (List.range 8).foldl
    (fun c _ => if c ≥ 2 ^ 63 then ((c * 2) % 2 ^ 64) ^^^ 0x42F0E1EBA9EA3693 else (c * 2) % 2 ^ 64)
    (c ^^^ (b.toNat * 2 ^ 56))) 0

end Sys2Proof.Machine
end

