-- ==== Sys2Proof/Machine/Fabric.lean ====
section
/-! DEFINITION. The fabric: parcel headers (R215), table versions and the crossbar (R217 to R220, R230), departure stores,
losses (R196), header samples (R245), routed notes (R236 to R244, R268, R269) and resend requests (R272, R273). -/

namespace Sys2Proof.Machine

open Sys2Proof

/-! ### Headers (R5, R215) -/

/-- The 16 bytes of a container header, most significant bit first. -/
def hdrBytes (h : Hdr) : List Byte :=
  beBytes 16 (h.hver * 2 ^ 124 + h.cls * 2 ^ 122 + b2n h.epoch * 2 ^ 121 + b2n h.lastf * 2 ^ 120 + h.slice * 2 ^ 112 + h.flow * 2 ^ 92
    + h.framelo * 2 ^ 80 + h.seq * 2 ^ 64 + h.offset * 2 ^ 48 + h.hops * 2 ^ 44 + b2n h.xoff * 2 ^ 43 + h.credit * 2 ^ 31)

/-- The header in 16 bytes. -/
def hdrOf (bs : List Byte) : Hdr :=
  let v := ofBe (slice bs 0 16)
  { hver := bits v 127 124, cls := bits v 123 122, epoch := bit v 121, lastf := bit v 120, slice := bits v 119 112,
    flow := bits v 111 92, framelo := bits v 91 80, seq := bits v 79 64, offset := bits v 63 48, hops := bits v 47 44,
    xoff := bit v 43, credit := bits v 42 31 }

/-! ### Versions of the tables (R214, R229, R230) -/

/-- A version: false is A, true is B. -/
def State.version (s : State) (b : Bool) : TableVersion := if b then s.verB else s.verA

/-- Replace a version. -/
def State.setVersion (s : State) (b : Bool) (v : TableVersion) : State := if b then { s with verB := v } else { s with verA := v }

/-- The active version. -/
def State.activeVersion (s : State) : TableVersion := s.version s.fabric.active

/-- The crossbar entry of (input, flow) in a version (R218). -/
def TableVersion.lookup (v : TableVersion) (input flow : Nat) : Option XEntry :=
  (v.xbar ++ v.txbar).find? (fun e => e.input == input && e.flow == flow)

/-- The frame index nearest the device's own whose low 12 bits are given, the smaller where two are equally near (R227). -/
def State.nearFrame (s : State) (lo : Nat) : Nat :=
  let k := s.frameIndex
  let d := (lo + 4096 - k % 4096) % 4096
  if d < 2048 then k + d else if 4096 ≤ k + d then k + d - 4096 else k + d

/-! ### Counters and losses -/

/-- A loss at a port (R196): `LOSSES`, and alarm 0x0512 coalesced per frame. -/
def portLoss (s : State) (p : Nat) : State :=
  raiseAlarm (s.modPort p fun q => { q with losses := q.losses + 1 }) 0x0512 p [] false true

/-- A discard that `DROP_HDR` counts and that is treated as a loss (R216, R219). -/
def dropHdr (s : State) (p : Nat) : State := portLoss (s.modPort p fun q => { q with dropHdr := q.dropHdr + 1 }) p

/-! ### Departure stores (R217, R219, R220, R271) -/

/-- A copy reaches the departure store of a port. A port declared down that no flip has named since discards it (R271), and so does
a full store, whose copy is asked for again (R220, R272). -/
def enqueueCopy (s : State) (p : Nat) (h : Hdr) (payload : List Byte) (straggler : Bool) : State :=
  let q := s.port p
  if !q.named then s.setPort p { q with losses := q.losses + 1 }
  else if 1024 ≤ q.departure.length then
    portLoss ({ s with heldRequests := s.heldRequests ++ [(h.flow, s.nearFrame h.framelo, h.seq, 1)] }.setPort p
      { q with depFull := q.depFull + 1 }) p
  else s.setPort p { q with departure := q.departure ++ [{ hdr := h, payload, order := q.copyOrder, straggler }], copyOrder := q.copyOrder + 1 }

/-- The ports that a destination mask names (R218). -/
def maskPorts (m : BitVec 24) : List Nat := (List.range 22).filter (fun i => bit m.toNat i)

/-- Hand a parcel to the landing path. While a checkpoint is captured, its queue holds 1,024 containers, and a parcel that finds it
full is treated as a loss (R363). -/
def enqueueLanding (s : State) (input : Nat) (h : Hdr) (payload : List Byte) : State :=
  if s.capture && decide (1024 ≤ s.landQueue.length) then (if input = 31 then s else dropHdr s input)
  else { s with landQueue := s.landQueue ++ [{ input, hdr := h, payload }] }

/-- A posted parcel goes to the ports and to the local landing that its local crossbar entry names (R217). -/
def postCopies (s : State) (e : XEntry) (h : Hdr) (payload : List Byte) (straggler : Bool) : State :=
  let s1 := (maskPorts e.dmask).foldl (fun m p => enqueueCopy m p h payload straggler) s
  if bit e.dmask.toNat 23 then enqueueLanding s1 31 h payload else s1

/-- The CRC of a frame check (R360). -/
def checkCrc (relFlow seq : Nat) (payload : List Byte) : Nat := crc64 (leBytes 4 relFlow ++ leBytes 2 seq ++ payload)

/-- The frame checks grow by a posted job parcel, for each port that its local entry names (R360). -/
def frameCheck (s : State) (e : XEntry) (h : Hdr) (payload : List Byte) : State :=
  if e.transit then s else
  let c := BitVec.ofNat 64 (checkCrc (h.flow - s.fabric.flowBase) h.seq payload)
  (maskPorts e.dmask).foldl (fun m p => { m with inv := { m.inv with portCheck := spModify 0 m.inv.portCheck p (· + c) } }) s

/-- The header of a parcel of this device (R217). -/
def State.ownHdr (s : State) (e : XEntry) (flow seq framelo : Nat) (lastf : Bool) : Hdr :=
  { cls := if e.outclass then 2 else 0, epoch := s.fabric.active, lastf, slice := s.fabric.slice, flow, framelo, seq, offset := seq,
    hops := e.hops }

/-! ### Header samples (R245) -/

/-- A sample in one direction: the counter, and the 32-byte record where it is a multiple of 2^N. -/
def sampleHdr (s : State) (p : Nat) (tx : Bool) (t slot : Nat) (resent straggler service : Bool) (h : Hdr) : State :=
  let q := s.port p
  let on := q.sampleEn && (q.sampleDir == 2 || q.sampleDir == (if tx then 1 else 0)) && (h.cls == 0 || h.cls == 2)
  if !on then s else
  let n := if tx then q.sampleTx else q.sampleRx
  let q1 := if tx then { q with sampleTx := n + 1 } else { q with sampleRx := n + 1 }
  if n % 2 ^ q.sampleN ≠ 0 then s.setPort p q1 else
  let s1 := s.setPort p { q1 with samples := q1.samples + 1 }
  if 16 ≤ (s1.alarms.boxQueue.filter (fun r => r.part = 2 ∧ r.port = p)).length then
    { s1 with alarms := { s1.alarms with lostSample := s1.alarms.lostSample + 1 } }
  else
    let flags := b2n tx + 2 * b2n resent + 4 * b2n straggler + 8 * b2n service + 16
    let r := leBytes 8 t ++ leBytes 2 slot ++ leBytes 1 p ++ leBytes 1 flags ++ leBytes 4 (t / 1024) ++ hdrBytes h
    { s1 with alarms := { s1.alarms with boxQueue := s1.alarms.boxQueue ++ [{ part := 2, port := p, bytes := r }] } }

/-! ### Routed notes (R236 to R244, R268, R269) -/

/-- The destination code of a note (R191). -/
def destCode (x y z : Nat) : Nat := x * 4096 + y * 64 + z

/-- The broadcast code (R238). -/
def bcastCode : Nat := 0x3FFFF

/-- The destination code of a routed note. -/
def noteDest (n : RNote) : Nat := destCode n.destX n.destY n.destZ

/-- The 32 bytes of a routed note (R191, R243) (DEDUCED, log entry 41). -/
def noteBytes (n : RNote) : List Byte :=
  beBytes 4 (2 ^ 28 + n.ntype * 2 ^ 22 + noteDest n) ++ leBytes 1 n.srcX ++ leBytes 1 n.srcY ++ leBytes 1 n.srcZ
    ++ leBytes 1 n.srcSlice ++ leBytes 2 n.seq ++ leBytes 1 (b2n n.lastp * 128 + n.tag) ++ leBytes 1 n.part ++ slice n.payload 0 20

/-- The routed note in 32 bytes (R191, R243). -/
def noteOf (bs : List Byte) : RNote :=
  let h := ofBe (slice bs 0 4)
  { ntype := bits h 27 22, destX := bits h 17 12, destY := bits h 11 6, destZ := bits h 5 0, srcX := le bs 4 1 % 64,
    srcY := le bs 5 1 % 64, srcZ := le bs 6 1 % 64, srcSlice := le bs 7 1, seq := le bs 8 2, lastp := bit (le bs 10 1) 7,
    tag := le bs 10 1 % 128, part := le bs 11 1, payload := slice bs 12 20 }

/-- The device's machine coordinates (R203): zeros while no plan is loaded. -/
def State.coords (s : State) : Nat × Nat × Nat :=
  match s.plan with
  | some p => (p.x, p.y, p.z)
  | none => (0, 0, 0)

/-- An axis as a note sees it: its length, its origin, the machine's extent and whether it wraps. -/
structure Axis where
  n : Nat
  o : Nat
  e : Nat
  wrap : Bool
  deriving DecidableEq, Repr

/-- The axes of the slice (R236) or, for `FO_MSG`, of the machine (R237). -/
def State.axes (s : State) (fo : Bool) : List Axis :=
  let f := s.fabric
  let (ex, ey, ez, wx, wy, wz) := match s.plan with
    | some p => (p.extX, p.extY, p.extZ, p.wrapX, p.wrapY, p.wrapZ)
    | none => (16, 16, 16, false, false, false)
  if fo then [⟨ex, 0, ex, wx⟩, ⟨ey, 0, ey, wy⟩, ⟨ez, 0, ez, wz⟩]
  else [⟨f.sizeX, f.x0, ex, f.wrapX⟩, ⟨f.sizeY, f.y0, ey, f.wrapY⟩, ⟨f.sizeZ, f.z0, ez, f.wrapZ⟩]

/-- The position of a coordinate on an axis; it lies in the slice if below the length (R257). -/
def Axis.pos (a : Axis) (c : Nat) : Nat := (c + a.e - a.o % a.e) % a.e

/-- The direction from one coordinate to another (R236): true is +, none where they are equal. -/
def Axis.dir (a : Axis) (c d : Nat) : Option Bool :=
  let p := a.pos c
  let q := a.pos d
  if p = q then none
  else if a.wrap then
    let f := (q + a.n - p) % a.n
    some (decide (f ≤ a.n - f))
  else some (decide (p < q))

/-- The torus port of an axis and a direction (R184). -/
def torusPort (i : Nat) (plus : Bool) : Nat := 2 * i + (if plus then 0 else 1)

/-- Whether a port carries routed notes now (DEDUCED, log entry 41). -/
def State.portUp (s : State) (p : Nat) : Bool := (s.port p).state == .up

/-- Coordinates as a list. -/
def triple (x y z : Nat) : List Nat := [x, y, z]

/-- The route of a note for one destination that came in by `input` (R236, R268): the output port, whether the note was reversed here, or none where
it is discarded. The note must not be at its destination (DEDUCED, log entry 41). -/
def State.route (s : State) (fo : Bool) (input : Nat) (src dest : List Nat) : Option (Nat × Bool) :=
  let own := triple s.coords.1 s.coords.2.1 s.coords.2.2
  let axes := s.axes fo
  let i := if own.getD 0 0 ≠ dest.getD 0 0 then 0 else if own.getD 1 0 ≠ dest.getD 1 0 then 1 else 2
  match axes[i]? with
  | none => none
  | some a =>
    match a.dir (own.getD i 0) (dest.getD i 0) with
    | none => none
    | some fresh =>
      let same := input != 31 && input / 2 == i
      let d := if same then input % 2 == 1 else fresh
      let wasReversed := same && a.dir (src.getD i 0) (dest.getD i 0) != some d
      if s.portUp (torusPort i d) then some (torusPort i d, false)
      else if a.wrap && !wasReversed && s.portUp (torusPort i !d) then some (torusPort i !d, true)
      else none

/-- The ports on which a device starts the legs of a broadcast on axis `i` (R238, R269): where a port is down on a wrapping axis, the
opposite one. -/
def State.legs (s : State) (a : Axis) (i own : Nat) : List Nat :=
  let up := fun d => s.portUp (torusPort i d)
  let plus := if a.wrap then decide (1 ≤ a.n / 2) else decide (a.pos own + 1 < a.n)
  let minus := if a.wrap then decide (1 ≤ (a.n - 1) / 2) else decide (0 < a.pos own)
  let one := fun (want d : Bool) =>
    if !want then [] else if up d then [torusPort i d] else if a.wrap && up !d then [torusPort i !d] else []
  (one plus true ++ one minus false).eraseDups

/-- The ports by which a received broadcast copy goes on (R238, R269): along its axis, and on the axes that follow where this is the
first copy. -/
def State.spread (s : State) (input : Nat) (src : List Nat) (first : Bool) : List Nat :=
  let own := triple s.coords.1 s.coords.2.1 s.coords.2.2
  let axes := s.axes false
  let i := if input = 31 then 3 else input / 2
  let along := match axes[i]? with
    | none => []
    | some a =>
      let plus := input % 2 == 1
      let d := (a.pos (own.getD i 0) + a.n - a.pos (src.getD i 0)) % a.n
      let h := a.n / 2
      let normal := if plus then decide (1 ≤ d ∧ d ≤ h) else decide (h + 1 ≤ d)
      let more := if a.wrap then
          (if plus then decide (d + 1 ≤ h) else decide (h + 2 ≤ d)) && normal || !normal || !first
        else (if plus then decide (a.pos (own.getD i 0) + 1 < a.n) else decide (0 < a.pos (own.getD i 0)))
      if !more then []
      else if s.portUp (torusPort i plus) then [torusPort i plus]
      else if a.wrap && normal && first && s.portUp (torusPort i !plus) then [torusPort i !plus] else []
  let starts := if input = 31 then [0, 1, 2] else (List.range 3).filter (fun j => i < j)
  along ++ (if first then starts.flatMap (fun j => match axes[j]? with
    | some a => s.legs a j (own.getD j 0)
    | none => []) else [])

/-- Whether a note enters a ring at output `q` (R239). -/
def NoteCopy.entering (c : NoteCopy) (q : Nat) : Bool := c.input == 31 || q / 2 != c.input / 2 || q == c.input

/-- The free buffers of a partner's store (R239). -/
def Port.noteFree (q : Port) : Nat := 512 - (q.noteSent - q.noteCredit).toNat

/-- Whether output `q` can accept a note: the bubble rule (R239) and the partner's `XOFF` (R240). -/
def State.canAccept (s : State) (c : NoteCopy) (q : Nat) : Bool :=
  let o := s.port q
  decide ((if c.entering q then 2 else 1) ≤ o.noteFree) &&
    !(o.peerXoff && noteDest c.note == destCode o.peerX o.peerY o.peerZ && !(decide (0x10 ≤ c.note.ntype) && decide (c.note.ntype ≤ 0x14)))

/-- Move the notes of one store to their outputs, in order; a note that may not move blocks those behind it for the same output
(R239). The result holds the notes that stay. -/
def drainList (input : Nat) : List NoteCopy → List Nat → State → State × List NoteCopy
  | [], _, s => (s, [])
  | c :: t, blocked, s =>
    if c.outs.any blocked.contains || !(c.outs.all (s.canAccept c)) then
      let (s', rest) := drainList input t (blocked ++ c.outs) s
      (s', c :: rest)
    else
      let s1 := c.outs.foldl (fun m q => m.modPort q fun o => { o with noteSent := o.noteSent + 1, outNotes := o.outNotes ++ [c] }) s
      drainList input t blocked (if input = 31 then s1 else s1.modPort input fun o => { o with noteLeft := o.noteLeft + 1 })

/-- Move the notes of the store of one input. The notes injected here stand in the store of input 31. -/
def drainStore (s : State) (input : Nat) : State :=
  let (s', rest) := drainList input (s.port input).store [] s
  s'.modPort input fun o => { o with store := rest }

/-- Move every note that may move (R239). -/
def drainNotes (s : State) : State := (s.portList ++ [31]).foldl drainStore s

/-- A note takes its place in the store of its input, and leaves it as its outputs allow. -/
def storeNote (s : State) (input : Nat) (n : RNote) (outs : List Nat) : State :=
  if outs.isEmpty then (if input = 31 then s else s.modPort input fun o => { o with noteLeft := o.noteLeft + 1 })
  else drainNotes (s.modPort input fun o => { o with store := o.store ++ [{ note := n, input, outs }] })

/-- A discarded note (R236, R244). -/
def dropNote (s : State) : State := { s with fabric := { s.fabric with noteDrops := s.fabric.noteDrops + 1 } }

/-- `XOFF` follows the free places of the intake of 1,024 notes (R240). -/
def State.updateXoff (s : State) : State :=
  let n := s.noteIn.length
  { s with xoff := if 768 < n then true else if n ≤ 512 then false else s.xoff }

/-- A note is delivered to the management controller; one of a reserved type is discarded (R244). -/
def deliverNote (s : State) (n : RNote) : State :=
  if (0x10 ≤ n.ntype ∧ n.ntype ≤ 0x14) ∨ n.ntype = 0x30 then State.updateXoff { s with noteIn := s.noteIn ++ [n] } else dropNote s

/-- The tracking of a source (R241). -/
def State.noteSrc (s : State) (x y z : Nat) (bc : Bool) : NoteSrc :=
  (s.noteSrcs.find? (fun r => r.x == x && r.y == y && r.z == z && r.bcast == bc)).getD { x, y, z, bcast := bc }

/-- Replace the tracking of a source. -/
def State.setNoteSrc (s : State) (r : NoteSrc) : State :=
  { s with noteSrcs := s.noteSrcs.filter (fun q => !(q.x == r.x && q.y == r.y && q.z == r.z && q.bcast == r.bcast)) ++ [r] }

/-- Deliver held notes that are next in sequence, at most `fuel` (R241). -/
def releaseHeld : Nat → State → NoteSrc → State × NoteSrc
  | 0, s, r => (s, r)
  | fuel + 1, s, r =>
    match r.held.find? (fun n => n.seq == r.next.toNat) with
    | none => (s, r)
    | some n =>
      releaseHeld fuel (deliverNote s n) { r with held := r.held.filter (fun m => m.seq != n.seq), next := r.next + 1 }

/-- Whether a note of a source has been received before (R241). -/
def NoteSrc.seen (r : NoteSrc) (n : RNote) : Bool :=
  decide (32768 ≤ (BitVec.ofNat 16 n.seq - r.next).toNat) || r.held.any (fun m => m.seq == n.seq)

/-- Delivery in sequence order, holding up to 64 notes that came out of order (R241). -/
def sequenceNote (s : State) (bc : Bool) (n : RNote) : State :=
  let r := s.noteSrc n.srcX n.srcY n.srcZ bc
  if r.seen n then { s with fabric := { s.fabric with noteDups := s.fabric.noteDups + 1 } }
  else if n.seq = r.next.toNat then
    let (s1, r1) := releaseHeld 64 (deliverNote s n) { r with next := r.next + 1 }
    s1.setNoteSrc { r1 with gapAt := if r1.held.isEmpty then none else some s.round }
  else if 64 ≤ r.held.length then dropNote s
  else s.setNoteSrc { r with held := r.held ++ [n], gapAt := match r.gapAt with
    | some t => some t
    | none => some s.round }

/-- A coordinate out of range: bits [5:4] of any axis (R256). -/
def badCoord (n : RNote) : Bool := decide (15 < n.destX) || decide (15 < n.destY) || decide (15 < n.destZ)

/-- Receipt of a routed note at a torus port (R237 to R239, R256, R268, R269) (DEDUCED, log entry 41). -/
def receiveNote (s : State) (p : Nat) (n : RNote) : State :=
  let s1 := s.modPort p fun o => { o with notesReceived := o.notesReceived + 1 }
  let leave := fun (m : State) => m.modPort p fun o => { o with noteLeft := o.noteLeft + 1 }
  let fo := n.ntype == 0x30
  let src := triple n.srcX n.srcY n.srcZ
  if !(fo || n.srcSlice == s.fabric.slice) || (fo && s.plan.isNone) then dropNote (leave s1)
  else if noteDest n = bcastCode then
    let own := src == triple s.coords.1 s.coords.2.1 s.coords.2.2
    let first := !own && !((s.noteSrc n.srcX n.srcY n.srcZ true).seen n)
    let s2 := if own then s1 else sequenceNote s1 true n
    storeNote s2 p n (s.spread p src first)
  else if badCoord n then dropNote (leave s1)
  else if (n.destX, n.destY, n.destZ) = s.coords then sequenceNote (leave s1) false n
  else match s.route fo p src (triple n.destX n.destY n.destZ) with
    | none => dropNote (leave s1)
    | some (q, rev) =>
      let s2 := if rev then { s1 with fabric := { s1.fabric with noteReversals := s1.fabric.noteReversals + 1 } } else s1
      storeNote s2 p n [q]

/-- Whether a coordinate lies in the slice (R257) (DEDUCED, log entry 41). -/
def State.inSlice (s : State) (x y z : Nat) : Bool :=
  ((s.axes false).zip (triple x y z)).all fun e => decide (e.1.pos e.2 < e.1.n)

/-- Send a note of types 0x10 to 0x14 to one device of the slice or, with none, to all of it (R236, R238, R241). -/
def sendNote (s : State) (ntype : Nat) (dest : Option (Nat × Nat × Nat)) (payload : List Byte) : State :=
  let (ox, oy, oz) := s.coords
  match dest with
  | none =>
    let q := spGet 0 s.noteSeqs bcastCode
    let n : RNote := { ntype, destX := 63, destY := 63, destZ := 63, srcX := ox, srcY := oy, srcZ := oz, srcSlice := s.fabric.slice,
                       seq := q.toNat, lastp := true, tag := 0, part := 0, payload := slice payload 0 20 }
    storeNote { s with noteSeqs := spSet 0 s.noteSeqs bcastCode (q + 1) } 31 n (s.spread 31 [] true)
  | some (x, y, z) =>
    if !s.inSlice x y z then dropNote s else
    let key := destCode x y z
    let q := spGet 0 s.noteSeqs key
    let n : RNote := { ntype, destX := x, destY := y, destZ := z, srcX := ox, srcY := oy, srcZ := oz, srcSlice := s.fabric.slice,
                       seq := q.toNat, lastp := true, tag := 0, part := 0, payload := slice payload 0 20 }
    match s.route false 31 [ox, oy, oz] (triple x y z) with
    | none => dropNote s
    | some (p, rev) =>
      let s1 := { s with noteSeqs := spSet 0 s.noteSeqs key (q + 1) }
      storeNote (if rev then { s1 with fabric := { s1.fabric with noteReversals := s1.fabric.noteReversals + 1 } } else s1) 31 n [p]

/-- The management controller takes a note of a type and source out of its intake (R240). -/
def takeNote (s : State) (ntype x y z : Nat) : State :=
  match s.noteIn.findIdx? (fun n => n.ntype == ntype && n.srcX == x && n.srcY == y && n.srcZ == z) with
  | some i => State.updateXoff { s with noteIn := s.noteIn.eraseIdx i }
  | none => s

/-! ### Resend (R272, R273) -/

/-- The sources of a flow that this device owns (R289). -/
def State.sourcesOf (s : State) (flow : Nat) : List SourceRec :=
  match s.mgmt.loadedImage with
  | some i => i.sources.filter (fun r => r.flow == flow)
  | none => []

/-- The machine coordinates of the source device of a flow for which this device holds a landing buffer (R272, R289). -/
def State.sourceDevice (s : State) (flow : Nat) : Option (Nat × Nat × Nat) :=
  match s.mgmt.loadedImage, s.activeVersion.landing.findIdx? (fun e => e.flow == flow) with
  | some i, some n =>
    match i.sourceDevs[n]? with
    | some (x, y, z) =>
      match s.axes false with
      | [a, b, c] => some ((a.o + x) % a.e, (b.o + y) % b.e, (c.o + z) % c.e)
      | _ => none
    | none => none
  | _, _ => none

/-- The declared parcel count of an owned flow (R143). -/
def State.flowCountOf (s : State) (flow : Nat) : Nat :=
  match (s.cores.flatMap (fun e => e.2.flows)).find? (fun f => f.flow == flow) with
  | some f => f.count
  | none => 0

/-- Post one parcel again from its source buffer (R273): original numbers, the active version, no frame check. -/
def repost (s : State) (flow frame seq : Nat) : State :=
  let srcs := s.sourcesOf flow
  match srcs.find? (fun r => r.phase == frame % srcs.length), s.activeVersion.lookup 31 flow with
  | some r, some e =>
    let k := s.core r.lcore
    let sp : Space := if r.attic then .attic else .shelf
    let payload := (List.range 256).map (fun i => k.byteAt sp (r.base + 256 * seq + i))
    let h := s.ownHdr e flow seq (frame % 4096) (decide (seq + 1 = s.flowCountOf flow))
    postCopies { s with fabric := { s.fabric with resendServed := s.fabric.resendServed + 1 } } e h payload
      (decide (frame < s.frameIndex))
  | _, _ => s

/-- Post parcels of the resend queue, at most 64 in a slot round (R273). -/
def serveQueue : Nat → State → State
  | 0, s => s
  | n + 1, s =>
    match s.resendQueue with
    | [] => s
    | (flow, frame, seq) :: rest =>
      if 64 ≤ s.resendPosted then s
      else serveQueue n (repost { s with resendQueue := rest, resendPosted := s.resendPosted + 1 } flow frame seq)

/-- The event of a resend served or requested (R479). -/
def resendEvent (s : State) (served : Bool) (flow frame first count : Nat) : State :=
  boxEvent s 9 (leBytes 1 (b2n served) ++ leBytes 4 flow ++ leBytes 8 frame ++ leBytes 2 first ++ leBytes 2 count)

/-- Service of a resend request (R273): own flow, current frame or the one before, and not served within `RESEND_WAIT` rounds (DEDUCED, log entry 40).
-/
def serveResend (s : State) (flow frame first count : Nat) : State :=
  let stale := { s with fabric := { s.fabric with resendStale := s.fabric.resendStale + 1 } }
  if s.requests.any (fun r => r.1 == flow && r.2.1 == frame && r.2.2.1 == first && r.2.2.2.1 == count &&
      decide (s.round < r.2.2.2.2 + s.fabric.resendWait)) then s
  else if (s.sourcesOf flow).isEmpty ∨ ¬ (frame = s.frameIndex ∨ frame + 1 = s.frameIndex) then stale
  else
    let s := resendEvent s true flow frame first count
    let jobs := (List.range count).map (fun i => (flow, frame, first + i))
    let keep := s.requests.filter (fun r => decide (s.round < r.2.2.2.2 + s.fabric.resendWait))
    serveQueue 64 { s with requests := keep ++ [(flow, frame, first, count, s.round)], resendQueue := s.resendQueue ++ jobs }

/-- A request for missing parcels (R272): none where `SOURCES` names no source, held while a flip is staged, served without a note by the source
itself (DEDUCED, log entry 40). -/
def requestResend (s : State) (flow frame first count : Nat) : State :=
  if !(s.sourcesOf flow).isEmpty then serveResend s flow frame first count
  else match s.sourceDevice flow with
    | none => s
    | some d =>
      if s.fabric.flipRound.isSome then { s with heldRequests := s.heldRequests ++ [(flow, frame, first, count)] }
      else sendNote (resendEvent { s with fabric := { s.fabric with resendReq := s.fabric.resendReq + 1 } } false flow frame first count) 0x14 (some d)
        (leBytes 4 flow ++ leBytes 8 frame ++ leBytes 2 first ++ leBytes 2 count)

end Sys2Proof.Machine
end

