-- ==== Sys2Proof/Machine/Inventory.lean ====
section
/-! DEFINITION. The inventory: records and their sets (R349 to R352), the chain (R353), room (R354 to R356), the seals and the
chains of frames and outputs (R360 to R362), and the run certificate (R373 to R375). -/

namespace Sys2Proof.Machine

open Sys2Proof

/-! ### Records (R349 to R352) -/

/-- The most content of one record (R352). -/
def partBytes : Nat := 2097024

/-- Whether the content of a record is withheld (R351). -/
def State.withheldContent (s : State) (kind n : Nat) (pblk : Bool) : Bool :=
  if n ≤ s.inv.smallKib * 1024 then false
  else if kind = 2 then true
  else (kind == 3 || kind == 4 || (kind == 1 && pblk)) && s.inv.digestOnly

/-- The length of a record (R350). -/
def InvRec.recLen (r : InvRec) : Nat := 128 + roundUp r.content.length 64

/-- The bytes of a record (R350). -/
def InvRec.bytes (r : InvRec) : List Byte :=
  [1, BitVec.ofNat 8 r.kind, BitVec.ofNat 8 r.flags, BitVec.ofNat 8 r.sub] ++ leBytes 4 r.recLen ++ leBytes 8 r.seqno ++ leBytes 8 r.frame
    ++ leBytes 8 r.length ++ leBytes 8 r.time ++ leBytes 8 r.src ++ zeros 16 ++ slice r.digest 0 64 ++ padTo 64 r.content

/-- The pieces of a kept content: at least one (R352). -/
def contentParts (content : List Byte) : List (List Byte) :=
  if content.isEmpty then [[]] else chunks partBytes content

/-- The record set of an event (R349 to R352): the first record has the kind, the others are `CONT`. -/
def State.recordSet (s : State) (kind frame sub src : Nat) (content : List Byte) (replayed pblk : Bool) : List InvRec :=
  let keep := !s.withheldContent kind content.length pblk
  let parts := if keep then contentParts content else [[]]
  let digest := hashH content
  parts.zipIdx.map fun e =>
    { kind := if e.2 = 0 then kind else 0x41,
      flags := (if keep then 1 else 2) + 8 * b2n replayed + (if e.2 + 1 < parts.length then 16 else 0),
      sub := if e.2 = 0 then sub else e.2, seqno := s.inv.nextSeq.toNat + e.2, frame, length := content.length, time := s.now, src,
      digest, content := e.1 }

/-- The bytes of a record set. -/
def setBytes (rs : List InvRec) : Nat := (rs.map InvRec.recLen).sum

/-- The free bytes of the inventory buffer (R355) (DEDUCED, log entry 45). -/
def State.bufFree (s : State) : Nat := 16777216 - s.inv.bufBytes

/-- The bytes of the ring (R354). -/
def State.ringSize (s : State) : Nat := s.inv.sizeGib * 2 ^ 30

/-- Whether a set finds room (R352, R356): in a run in the buffer, otherwise in the ring and the buffer together. -/
def State.roomFor (s : State) (rs : List InvRec) : Bool :=
  decide (setBytes rs ≤ s.bufFree + (if s.inRun then 0 else s.ringSize - s.inv.ringBytes))

/-! ### The chain (R353) -/

/-- Whether records of a kind are chained. -/
def chained (kind : Nat) : Bool := kind != 0x40 && kind != 0x41 && kind != 0x7F

/-- What a record adds to the chain. -/
def InvRec.link (r : InvRec) : List Byte :=
  leBytes 1 r.kind ++ leBytes 8 r.frame ++ leBytes 8 r.length ++ leBytes 8 r.src ++ r.digest

/-- The chain value before the first record of a segment: of a crate, or of no crate. -/
def chainSeed (crate : Option (List Byte)) : List Byte := hashH (ascii "D1-INVENTORY" ++ crate.getD (zeros 64))

/-- The chain value; no bytes stand for the value of a newly formatted ring. -/
def State.chainVal (s : State) : List Byte := if s.inv.chain.isEmpty then chainSeed none else s.inv.chain

/-- A new segment begins with the `COMMAND` record of the `LOAD_CRATE` that succeeded; the links since it are kept. -/
def newSegment (s : State) (crate : List Byte) : State :=
  { s with inv := { s.inv with chain := s.inv.links.foldl (fun i l => hashH (i ++ l)) (chainSeed (some crate)), linking := false, links := [] } }

/-! ### Entering records -/

/-- Enter a record set into the buffer; its first record is chained; the larder keeps the headers of the last 1,024 (R358). -/
def enterSet (s : State) (rs : List InvRec) : State :=
  let i := s.inv
  let ch := rs.filter (fun r => chained r.kind)
  let larder := i.larder ++ rs.map (fun r => { r with content := [] })
  { s with inv := { i with
      buffer := i.buffer ++ rs, bufBytes := i.bufBytes + setBytes rs, nextSeq := i.nextSeq + BitVec.ofNat 64 rs.length,
      larder := larder.drop (larder.length - 1024),
      chain := ch.foldl (fun c r => hashH (c ++ r.link)) s.chainVal,
      links := if i.linking then i.links ++ ch.map InvRec.link else i.links,
      records := i.records + ch.length } }

/-- The choice counter (R359). -/
def addChoices (s : State) (n : Nat) : State := { s with inv := { s.inv with choices := s.inv.choices + BitVec.ofNat 64 n } }

/-- Record an event, whose set has been found to fit or may not be refused; the choices that a record of its kind carries are counted with it (R359)
(DEDUCED, log entry 45). -/
def record (s : State) (kind frame sub src : Nat) (content : List Byte) (replayed : Bool := false) (pblk : Bool := false) : State :=
  let s1 := enterSet s (s.recordSet kind frame sub src content replayed pblk)
  if kind = 3 ∨ kind = 4 then addChoices s1 src else if kind = 5 then addChoices s1 1 else s1

/-! ### Seals (R360 to R362) -/

/-- The port checks *C* of the frame (R360). -/
def State.portChecks (s : State) : List Byte := (List.range 22).flatMap (fun i => leBytes 8 (spGet 0 s.inv.portCheck i).toNat)

/-- The head of a chain, zero bytes standing for none (R376). -/
def headOf (h : List Byte) : List Byte := if h.isEmpty then zeros 64 else h

/-- Queue a seal for the box room (R478). -/
def boxSeal (s : State) (r : InvRec) : State :=
  { s with alarms := { s.alarms with boxQueue := s.alarms.boxQueue ++ [{ part := 0, bytes := slice r.bytes 0 1024 }] } }

/-- Extend the chains by a clean frame, and add the `SEAL` record of frame *k* (R362) (DEDUCED, log entry 38). -/
def sealFrame (s : State) (k tick : Nat) (clean : Bool) (q : List Byte) : State :=
  let c := s.portChecks
  let d := if clean then hashH (s.inv.frameHead ++ leBytes 8 k ++ c ++ q) else s.inv.frameHead
  let o := if clean then hashH (s.inv.outputHead ++ leBytes 8 k ++ q) else s.inv.outputHead
  let s1 := { s with inv := { s.inv with frameHead := d, outputHead := o, portCheck := [] } }
  let body := leBytes 8 k ++ leBytes 1 (b2n (!clean)) ++ zeros 7 ++ leBytes 8 tick ++ headOf d ++ headOf o
    ++ (if clean then q else zeros 64) ++ c ++ zeros 56
  let rs := s1.recordSet 0x40 k 0 0 body false false
  let s2 := enterSet s1 rs
  rs.foldl boxSeal s2

/-! ### The output digest and the sealed copies (R178, R361) -/

/-- The `OUT` areas: kinds 1 and 4 (R176, R283). -/
def State.outAreas (s : State) : List Area := s.hatch.areas.filter (fun a => a.kind == 1 || a.kind == 4)

/-- The pages that the frame wrote in the working copies, ascending (R361). -/
def State.outPages (s : State) : List Nat :=
  s.hatch.dirtyPages.filter fun p => s.outAreas.any fun a => decide (a.offset ≤ 4096 * p) && decide (4096 * p < a.offset + a.size)

/-- The `OUT` area of a page of a working copy. -/
def State.outAreaOf (s : State) (p : Nat) : Option Area :=
  s.outAreas.find? fun a => decide (a.offset ≤ 4096 * p) && decide (4096 * p < a.offset + a.size)

/-- The output digest *Q* over the sealed copies of the pages that the frame wrote (R361). -/
def State.outDigest (s : State) : List Byte :=
  hashH (ascii "D1-OUT" ++ s.outPages.flatMap fun p =>
    leBytes 4 (4096 * p) ++ hashH (readBytes s.hatch.bytes (4096 * p + (match s.outAreaOf p with | some a => a.size | none => 0)) 4096))

/-- The bytes of the Hatch with the working copy of an area copied into its sealed copy (R178). -/
def copyArea (m : List (Nat × Byte)) (a : Area) : List (Nat × Byte) :=
  let old := (m.filter (fun e => decide (a.offset + a.size ≤ e.1) && decide (e.1 < a.offset + 2 * a.size))).map (·.1)
  let now_ := m.filter (fun e => decide (a.offset ≤ e.1) && decide (e.1 < a.offset + a.size))
  now_.foldl (fun l e => spSet 0 l (e.1 + a.size) e.2) (old.foldl (fun l k => spSet 0 l k 0) m)

/-- Release the outputs of a clean frame: every working copy is copied into its sealed copy (R178). -/
def releaseOutputs (s : State) : State := { s with hatch := { s.hatch with bytes := s.outAreas.foldl copyArea s.hatch.bytes } }

/-- Forget the pages written in the frame. -/
def clearDirty (s : State) : State := { s with hatch := { s.hatch with dirtyPages := [] } }

/-! ### The run certificate (R373 to R375) -/

/-- The low byte of the PCI device identifier (R1, R301). -/
def assyCode : Variant → Nat
  | .d1m => 0x4D
  | .d1b => 0x42
  | .d1l => 0x4C

/-- The stepping byte (R3, R301). -/
def stepCode : Stepping → Nat
  | .a0 => 0xA0
  | .b0 => 0xB0

/-- The grade (R312). -/
def State.grade (s : State) : Nat := 64 - s.mgmt.usable.sum

/-- The settings copy in force (R448) (DEDUCED, log entry 65). -/
def State.settingsInForce (s : State) : SetCopy :=
  if s.settings.defaults then {} else if s.settings.inForceB then s.settings.copyB else s.settings.copyA

/-- H of the `SEEDS` section as pulled (R374). -/
def State.seedsDigest (s : State) : List Byte :=
  match s.mgmt.crate with
  | some c => match c.sections.find? (fun x => x.stype == 0x40) with
    | some x => hashH x.data
    | none => zeros 64
  | none => zeros 64

/-- A digest of 64 bytes, zero where there is none. -/
def digestOr {α : Type} (f : α → List Byte) : Option α → List Byte
  | some a => slice (f a) 0 64
  | none => zeros 64

/-- Bytes 0 to 1,023 of the certificate (R374). -/
def State.certBody (s : State) (ckind : Nat) : List Byte :=
  let i := s.inv
  let f := s.fabric
  ascii "FAELMRUN" ++ leBytes 1 1 ++ leBytes 1 ckind ++ leBytes 1 1 ++ leBytes 1 (stepCode s.stepping) ++ leBytes 1 (assyCode s.variant)
    ++ leBytes 1 s.grade ++ leBytes 1 s.settings.verifyPolicy ++ zeros 1 ++ leBytes 8 s.serial.toNat ++ hashH s.sec.idPublic
    ++ hashH s.sec.measLog ++ slice s.settingsInForce.digest 0 64 ++ digestOr Crate.digest s.mgmt.crate
    ++ digestOr Image.digest s.mgmt.loadedImage ++ digestOr Placement.digest s.mgmt.placed ++ s.seedsDigest ++ s.chainVal
    ++ headOf i.frameHead ++ headOf i.outputHead ++ leBytes 8 s.frame.firstFrame ++ leBytes 8 s.frame.framesRun ++ leBytes 8 i.choices.toNat
    ++ leBytes 8 i.records ++ leBytes 2 (match s.alarms.latch with | some l => l.record.reason | none => 0) ++ zeros 2
    ++ leBytes 4 s.stats.faults.toNat ++ leBytes 4 (s.cellar.ueCount - i.ueBase).toNat ++ leBytes 4 f.freezes.toNat
    ++ leBytes 4 (f.holdsSent + f.holdsJoined).toNat ++ leBytes 4 f.framesDeferred.toNat ++ leBytes 4 f.detours.toNat
    ++ leBytes 4 s.sec.unlockFuses ++ leBytes 8 i.utcStart ++ leBytes 8 i.utcEnd
    ++ leBytes 1 (b2n (i.utcStart != 0 || i.utcEnd != 0) + 2 * b2n i.wasHoldover) ++ zeros 7 ++ slice i.replayRef 0 64 ++ zeros 208

/-- The certificate kind of this run: bit 7 marks a replay (R374). -/
def State.ckindOf (s : State) (k : Nat) : Nat := k + (if s.inv.replay.isSome then 128 else 0)

/-- Seal a final certificate (R373, R464): its signature follows. -/
def sealCertificate (s : State) (ckind : Nat) : State :=
  { s with inv := { s.inv with cert := some { body := s.certBody (s.ckindOf ckind), ckind := s.ckindOf ckind, signature := none } } }

/-- Build an interim certificate (R373) (DEDUCED, log entry 45). -/
def interimCertificate (s : State) : State :=
  { s with inv := { s.inv with interim := some { body := s.certBody (s.ckindOf 1), ckind := s.ckindOf 1, signature := none } } }

/-- A certificate with its signature: a hedged one of 3,309 bytes is a free value (R464, R375; log entry 12). -/
def State.signed (s : State) (c : Cert) : Cert := if c.signature.isSome then c else { c with signature := some (s.freeBytes 3309) }

/-- The signatures of the certificates are completed, the final one first (R464). -/
def signCertificates (s : State) : State :=
  let s1 := State.useFree { s with inv := { s.inv with cert := s.inv.cert.map s.signed } } 3309
  State.useFree { s1 with inv := { s1.inv with interim := s1.inv.interim.map s1.signed } } 3309

end Sys2Proof.Machine
end

