-- ==== Sys2Proof/Machine/StreamTable.lean ====
section
/-! DEFINITION. Generation streams: bins and their classes (R337, R338), the build of a batch table (R336, R342), the check of the token
output (R343), the ingest area (R341) and the end of a run (R335). -/

namespace Sys2Proof.Machine

open Sys2Proof

/-! ### Areas (R341, R343) -/

/-- The area of a kind that the timetable declares. -/
def State.areaOf (s : State) (kind : Nat) : Option Area := s.hatch.areas.find? (fun a => a.kind == kind)

/-- `DIRMAX` for *P* positions and an ingest area of a size (R341). -/
def dirMaxOf (p size : Nat) : Nat := if p = 0 then 0 else Nat.min 16384 ((size - 256 - 128 * p - 1048576) / (8 * p))

/-- `DIRMAX` of the loaded timetable. -/
def State.dirMax (s : State) : Nat :=
  match s.areaOf 3 with
  | some a => dirMaxOf s.streams.positions a.size
  | none => 0

/-- The offset of the request ring in the ingest area (R341). -/
def State.ringOffset (s : State) : Nat := 256 + 128 * s.streams.positions + 8 * s.streams.positions * s.dirMax

/-- A write of the hub into the Hatch. -/
def hubWrite (s : State) (off : Nat) (bs : List Byte) : State := { s with hatch := { s.hatch with bytes := writeBytes s.hatch.bytes off bs } }

/-- Write in the ingest area. -/
def ingestWrite (s : State) (off : Nat) (bs : List Byte) : State :=
  match s.areaOf 3 with
  | some a => hubWrite s (a.offset + off) bs
  | none => s

/-! ### Bins (R317, R337, R338) -/

/-- The bytes of a bin. -/
def binBytes : Nat := 65536

/-- The class and the row ρ of the bin at a device address, counting the classes of earlier zones (R337). -/
def classIn : List Zone → Nat → Nat → Option (Nat × Nat)
  | [], _, _ => none
  | z :: t, base, o =>
    let n := 8 * z.groups.length
    if o < zoneBytes z then some (base + o / binBytes % n, o / binBytes / n) else classIn t (base + n) (o - zoneBytes z)

/-- The device address of a bin of the pool. -/
def State.binAddr (s : State) (i : Nat) : Nat := (match s.mgmt.placed with | some p => p.binBase | none => 0) + binBytes * i

/-- The class and the row of a bin of the pool. -/
def State.binClass (s : State) (i : Nat) : Option (Nat × Nat) := classIn s.cellar.zones 0 (s.binAddr i)

/-- `NCLASS` (R337). -/
def State.classCount (s : State) : Nat := (s.cellar.zones.map (fun z => 8 * z.groups.length)).sum

/-- Whether a bin holds a page remapped under R174. -/
def State.binRemapped (s : State) (da : Nat) : Bool :=
  !s.cellar.remaps.isEmpty && (List.range 2048).any fun i =>
    match s.daPlace (da + 32 * i) with
    | some (k, a, _) => s.cellar.remaps.any (fun r => r.ctl == k && r.page == a / 128)
    | none => false

/-- Take the bins of slots `k` and on, `n` of them, for position `b`: the bins and the free order left, or none (R338). -/
def takeBins (s : State) (b : Nat) : Nat → Nat → List Nat → Option (List Nat × List Nat)
  | 0, _, free => some ([], free)
  | n + 1, k, free =>
    match free.find? (fun i => (match s.binClass i with | some (c, _) => c == (b + k) % s.streams.nclass | none => false) &&
        !s.binRemapped (s.binAddr i)) with
    | none => none
    | some i =>
      match takeBins s b n (k + 1) (free.filter (fun j => j != i)) with
      | some (l, rest) => some (i :: l, rest)
      | none => none

/-- The bins that a stream needs (R331). -/
def Stream.binsNeeded (e : Stream) : Nat := ceilDiv (e.plen + e.maxtok - 1) (2 ^ e.tpblog)

/-! ### Entries -/

/-- A stream table entry. -/
def State.stream (s : State) (n : Nat) : Stream := spGet {} s.streams.entries n

/-- Replace a stream table entry. -/
def State.setStream (s : State) (n : Nat) (e : Stream) : State :=
  { s with streams := { s.streams with entries := spSet {} s.streams.entries n e } }

/-- Entries in a state. -/
def State.entriesIn (s : State) (p : StreamSt → Bool) : List (Nat × Stream) := s.streams.entries.filter (fun e => p e.2.state)

/-- Insert an entry in ascending order of a key. -/
def insertBy {α : Type} (key : α → Nat) (x : α) : List α → List α
  | [] => [x]
  | y :: t => if key x < key y then x :: y :: t else y :: insertBy key x t

/-- A list in ascending order of a key. -/
def sortBy {α : Type} (key : α → Nat) (l : List α) : List α := l.foldl (fun m x => insertBy key x m) []

/-- The code of a stream state (R330). -/
def streamCode : StreamSt → Nat
  | .free => 0 | .pending => 1 | .waiting => 2 | .active => 3 | .drain => 4 | .done => 5

/-- The 256 bytes of a stream table entry (R330). -/
def Stream.bytes (e : Stream) : List Byte :=
  if e.state = .free then zeros 256 else
  leBytes 1 1 ++ leBytes 1 (streamCode e.state) ++ leBytes 1 e.cause ++ zeros 1 ++ leBytes 4 e.sid ++ leBytes 4 e.pos ++ leBytes 4 e.gen
    ++ leBytes 2 (e.bpos.getD 0xFFFF) ++ zeros 2 ++ leBytes 4 e.nbins ++ leBytes 8 e.step.toNat ++ leBytes 8 e.placeFrame
    ++ leBytes 8 e.endFrame ++ leBytes 8 e.atFrame ++ leBytes 4 e.plen ++ leBytes 4 e.maxtok ++ leBytes 4 e.promptOff
    ++ leBytes 4 e.temp.toNat ++ leBytes 4 e.topp.toNat ++ leBytes 2 e.topk ++ leBytes 1 e.nstop ++ leBytes 1 e.tpblog
    ++ slice (e.stops.flatMap (fun w => leBytes 4 w.toNat)) 0 32 ++ leBytes 16 e.seed.toNat ++ leBytes 8 e.step0.toNat
    ++ leBytes 4 (e.diroff.getD (2 ^ 32 - 1)) ++ zeros 116

/-- Whether a step of this entry emits a token (R328). -/
def Stream.emits (e : Stream) : Bool := decide (e.plen ≤ e.pos + 1)

/-! ### The build of the table of frame `f` (R336) -/

/-- The batch records of a frame. -/
def State.batchOf (s : State) (f : Nat) : List BatchRec := (s.streams.batch.find? (fun e => e.1 == f)).elim [] (·.2)

/-- The token area offset of record `b` of frame `f` (R343). -/
def tokenOffset (size p f b : Nat) : Nat := 16 * (p * (f % (size / (16 * p))) + b)

/-- The sealed token record of position `b` of frame `f` (R343). -/
def State.tokenAddr (s : State) (f b : Nat) : Option Nat :=
  match s.areaOf 4 with
  | some a => some (a.offset + a.size + tokenOffset a.size s.streams.positions f b)
  | none => none

/-- The token emitted by position `b` in frame `f`, from the sealed copy. -/
def State.tokenOf (s : State) (f b : Nat) : Option Nat := (s.tokenAddr f b).map (fun a => ofLe (readBytes s.hatch.bytes (a + 8) 4))

/-- Mark the record of an entry in frame `f` as a drain step (R336). -/
def markDrain (s : State) (f n : Nat) : State :=
  if (s.batchOf f).any (fun r => r.entry == n && !r.drain) then
    { s with streams := { s.streams with
        drainSteps := s.streams.drainSteps + 1,
        batch := s.streams.batch.map (fun e =>
          if e.1 = f then (e.1, e.2.map (fun r => if r.entry = n then { r with drain := true } else r)) else e) } }
  else s

/-- Step 1: the token of one emitting step of frame `f` − 2. -/
def buildStop (f : Nat) (s : State) (r : BatchRec) : State :=
  let e := s.stream r.entry
  if !r.emits || r.drain || e.sid != r.sid || e.state == .free then s else
  let stop := match s.tokenOf (f - 2) r.bpos with
    | some t => (e.stops.take e.nstop).any (fun w => w.toNat == t)
    | none => false
  let e1 := if stop then { e with state := if e.state = .active then .drain else e.state, endFrame := f - 2, cause := 2 } else e
  let s1 := if stop then markDrain s (f - 1) r.entry else s
  let e2 := if r.pos + 2 = e.plen + e.maxtok then { e1 with endFrame := f - 2, cause := 1 } else e1
  s1.setStream r.entry e2

/-- An entry becomes `DONE`; its bins join the tail of the free order, in slot order (R336). -/
def finishStream (s : State) (n : Nat) (e : Stream) : State :=
  let s1 := s.setStream n { e with state := .done, bpos := none, nbins := 0, bins := [], diroff := none, retireAt := none }
  { s1 with streams := { s1.streams with freeOrder := s1.streams.freeOrder ++ e.bins, completed := s1.streams.completed + 1,
                                          waiting := s1.streams.waiting.filter (fun i => i != n) } }

/-- Step 2: one stream leaves its position, or is retired before it had one (R333, R336). -/
def buildLeave (f : Nat) (s : State) (x : Nat × Stream) : State :=
  let e := s.stream x.1
  let natural := e.state == .active && e.pos + 1 == e.plen + e.maxtok
  let retired := e.retireAt == some f
  if e.state = .drain then finishStream s x.1 e
  else if natural then finishStream s x.1 e
  else if retired ∧ (e.state = .active ∨ e.state = .pending ∨ e.state = .waiting) then
    finishStream s x.1 { e with cause := 3, endFrame := if e.state = .active then f - 1 else e.endFrame }
  else s

/-- Step 3: a pending entry whose frame has come joins the queue. -/
def buildQueue (s : State) (x : Nat × Stream) : State :=
  let s1 := s.setStream x.1 { x.2 with state := .waiting }
  { s1 with streams := { s1.streams with waiting := s1.streams.waiting ++ [x.1] } }

/-- The lowest empty position. -/
def State.emptyPos (s : State) : Option Nat :=
  (List.range s.streams.positions).find? fun b => !(s.streams.entries.any fun e => e.2.bpos == some b)

/-- Step 4: place streams from the head of the queue. -/
def buildPlace (f : Nat) : Nat → State → State
  | 0, s => s
  | fuel + 1, s =>
    match s.streams.waiting, s.emptyPos with
    | n :: rest, some b =>
      let e := s.stream n
      match takeBins s b e.binsNeeded 0 s.streams.freeOrder with
      | none => s
      | some (bins, free) =>
        let e1 := { e with state := .active, placeFrame := f, step := e.step0, pos := 0, gen := 0, bpos := some b, nbins := bins.length, bins,
                           diroff := some (256 + 128 * s.streams.positions + 4 * b * s.dirMax) }
        let s1 := s.setStream n e1
        buildPlace f fuel { s1 with streams := { s1.streams with waiting := rest, freeOrder := free, admitted := s1.streams.admitted + 1 } }
    | _, _ => s

/-- A batch record (R342). -/
def batchBytes (f : Nat) (e : Stream) : List Byte :=
  let last := e.pos + 2 == e.plen + e.maxtok || e.retireAt == some (f + 1)
  leBytes 16 e.seed.toNat ++ leBytes 8 e.step.toNat ++ leBytes 4 e.sid ++ leBytes 4 e.pos ++ leBytes 4 e.plen ++ leBytes 4 e.promptOff
    ++ leBytes 4 e.temp.toNat ++ leBytes 4 e.topp.toNat ++ leBytes 2 e.topk
    ++ leBytes 1 (1 + 2 * b2n (e.placeFrame == f) + 4 * b2n e.emits + 8 * b2n last) ++ leBytes 1 e.tpblog ++ leBytes 4 e.nbins ++ zeros 8

/-- The record of an empty position (R342). -/
def emptyBatch : List Byte := zeros 24 ++ leBytes 4 (2 ^ 32 - 1) ++ zeros 36

/-- Step 5: write the record of position `b` of frame `f`, and the bin list in the stream's first two frames (R341); the stream advances. -/
def buildRecord (f : Nat) (acc : State × List BatchRec) (b : Nat) : State × List BatchRec :=
  let (s, l) := acc
  let par := f % 2
  let base := 256 + 64 * s.streams.positions * par
  match s.streams.entries.find? (fun e => e.2.bpos == some b) with
  | none => (ingestWrite s (base + 64 * b) emptyBatch, l)
  | some (n, e) =>
    let bs := batchBytes f e
    let s1 := ingestWrite s (base + 64 * b) bs
    let dir := 256 + 128 * s.streams.positions + 4 * s.streams.positions * s.dirMax * par + 4 * b * s.dirMax
    let s2 := if e.placeFrame = f ∨ e.placeFrame + 1 = f then
        ingestWrite s1 dir (e.bins.flatMap fun i => leBytes 4 (match s.binClass i with | some (_, ρ) => ρ | none => 0))
      else s1
    (s2.setStream n { e with pos := e.pos + 1, step := e.step + 1, gen := if e.emits then e.gen + 1 else e.gen },
     l ++ [{ bpos := b, entry := n, sid := e.sid, pos := e.pos, emits := e.emits, drain := false, bytes := bs }])

/-- The hub builds the batch table of frame `f` (R336). The records of the two frames before it are kept for their checks (DEDUCED, log entry 81). -/
def buildTable (s : State) (f : Nat) : State :=
  if s.streams.positions = 0 then s else
  let s1 := if f < 2 then s else (s.batchOf (f - 2)).foldl (buildStop f) s
  let s2 := (sortBy (fun x => x.2.bpos.getD 65536) s1.streams.entries).foldl (buildLeave f) s1
  let due := sortBy (fun x => x.2.sid) (s2.streams.entries.filter (fun x => x.2.state == .pending && x.2.atFrame == f))
  let s3 := due.foldl buildQueue s2
  let s4 := buildPlace f s3.streams.waiting.length s3
  let (s5, l) := (List.range s4.streams.positions).foldl (buildRecord f) (s4, [])
  { s5 with streams := { s5.streams with batch := s5.streams.batch.filter (fun e => decide (f < e.1 + 3)) ++ [(f, l)] } }

/-! ### The check of the tokens (R343) -/

/-- One occupied record of frame `f` at the tick that seals it: a record that differs ends its stream with cause 4; it and every drain step
get the empty `SID` in the sealed copy. -/
def checkToken (f : Nat) (s : State) (r : BatchRec) : State :=
  match s.tokenAddr f r.bpos with
  | none => s
  | some a =>
    let bad := ofLe (readBytes s.hatch.bytes a 4) != r.sid || ofLe (readBytes s.hatch.bytes (a + 4) 4) != r.pos
    let s1 := if bad || r.drain then hubWrite s a (leBytes 4 (2 ^ 32 - 1)) else s
    if bad && !r.drain then
      let s2 := raiseAlarm { s1 with streams := { s1.streams with outMismatch := s1.streams.outMismatch + 1 } } 0x0A22 0 []
      let e := s2.stream r.entry
      if e.sid = r.sid ∧ (e.state = .active ∨ e.state = .done) then
        markDrain (s2.setStream r.entry { e with state := if e.state = .active then .drain else .done, cause := 4, endFrame := f }) (f + 1) r.entry
      else s2
    else s1

/-- The check of every record of frame `f`. -/
def checkTokens (s : State) (f : Nat) : State := (s.batchOf f).foldl (checkToken f) s

/-! ### Ingest (R210, R341) -/

/-- The header of the ingest area as frame `f` reads it. -/
def State.ingestHeader (s : State) (f count used : Nat) : List Byte :=
  leBytes 1 1 ++ zeros 1 ++ leBytes 2 s.streams.positions ++ leBytes 4 s.dirMax ++ leBytes 8 f ++ leBytes 4 count ++ leBytes 4 used
    ++ leBytes 4 s.hatch.reqDropped ++ leBytes 4 s.streams.nclass ++ zeros 224

/-- Write the requests of frame `f` and the header into the ingest area; a non-empty entry is inventoried. -/
def applyIngest (s : State) (f : Nat) (replayed : Bool) : State :=
  if (s.areaOf 3).isNone then s else
  let ring := s.hatch.requests.flatMap (padTo 32)
  let n := s.hatch.requests.length
  let s1 := ingestWrite (ingestWrite s 0 (s.ingestHeader f n ring.length)) s.ringOffset ring
  let s2 := { s1 with hatch := { s1.hatch with requests := [] } }
  if n = 0 then s2 else record s2 4 f 0 n ring replayed

/-! ### The end of a run (R335) -/

/-- Every entry that is not `FREE` or `DONE` becomes `DONE` with cause 5. -/
def endStreams (s : State) : State :=
  s.streams.entries.foldl (fun m e => if e.2.state = .free ∨ e.2.state = .done then m else finishStream m e.1 { e.2 with cause := 5 }) s

/-- `LOAD_TIMETABLE` and core reset set every entry `FREE` (R330). -/
def clearStreams (s : State) : State :=
  { s with streams := { s.streams with entries := [], waiting := [], freeOrder := [], batch := [] } }

end Sys2Proof.Machine
end

