-- ==== Sys2Proof/Machine/Run.lean ====
section
/-! DEFINITION. The end of a run, stops and device faults (R45, R46, R85, R373, R418, R421), and the replies of the command window
(R412, R413, R416). -/

namespace Sys2Proof.Machine

open Sys2Proof

/-! ### Replies (R412, R413, R416) -/

/-- Result bytes from byte `a` of the reply slot. -/
def resAt (a : Nat) (bs : List Byte) : List (Nat × Byte) := bs.zipIdx.map (fun e => (a + e.2, e.1))

/-- A reply joins the queue; one due while the queue is full, or while `EN` is 0, is discarded and counted (R412). -/
def postReply (s : State) (seq status reason : Nat) (results : List (Nat × Byte)) : State :=
  if !s.cmd.en || decide (1024 ≤ s.cmd.queue.length) then { s with cmd := { s.cmd with repliesLost := s.cmd.repliesLost + 1 } }
  else { s with cmd := { s.cmd with queue := s.cmd.queue ++ [{ seq, status, reason, results }] } }

/-- The final reply of an outstanding command (R416). -/
def finishCommand (s : State) (opcode status reason : Nat) (results : List (Nat × Byte)) : State :=
  match s.cmd.out.find? (fun o => o.opcode == opcode) with
  | none => s
  | some o =>
    postReply { s with cmd := { s.cmd with out := s.cmd.out.filter (fun q => q.opcode != opcode) } } o.packet.seq status reason results

/-- The codes of R417. -/
def stOk : Nat := 0
/-- `ACCEPTED`. -/
def stAccepted : Nat := 1
/-- `BAD_OPCODE`. -/
def stBadOpcode : Nat := 0x100
/-- `BAD_PARAM`. -/
def stBadParam : Nat := 0x101
/-- `BAD_STATE`. -/
def stBadState : Nat := 0x102
/-- `NOT_AUTHORISED`. -/
def stNotAuth : Nat := 0x103
/-- `BUSY`. -/
def stBusy : Nat := 0x104
/-- `ALREADY_COMPLETE`. -/
def stComplete : Nat := 0x105
/-- `REJECTED`. -/
def stRejected : Nat := 0x200
/-- `FAULTED`. -/
def stFaulted : Nat := 0x300

/-- A frame index in result bytes 24 to 31; none is all ones (DEDUCED, log entry 38). -/
def resFrame (f : Option Nat) : List (Nat × Byte) := resAt 24 (leBytes 8 (f.getD ones64))

/-! ### The run -/

/-- Whether a run is in progress: it runs frames, or pauses between them. -/
def State.runOn (s : State) : Bool := s.inRun || (s.dev == .held && !s.frame.stopped)

/-- Whether a frame is in progress: a run, past its first tick, not paused. -/
def State.inFrame (s : State) : Bool := s.inRun && !s.frame.waitStart

/-- Send a stop note for the current frame, with its event (R45, R244, R479). -/
def sendStop (s : State) (reason : Nat) : State :=
  let (x, y, z) := s.coords
  sendNote (boxEvent s 6 (leBytes 2 reason ++ leBytes 1 1 ++ leBytes 1 x ++ leBytes 1 y ++ leBytes 1 z)) 0x12 none
    (leBytes 8 s.frameIndex ++ leBytes 2 reason)

/-- The record of a fault or stop for which no core is at fault (R483). -/
def State.deviceRec (s : State) (reason source : Nat) : FaultRec :=
  { reason, engine := 6, frame := s.frameIndex, cycle := s.cycleNow, detail := source }

/-- Frame control after a run: no tick, no hold and no pause is left. -/
def FrameCtl.idle (f : FrameCtl) (stopped : Bool) : FrameCtl :=
  { f with waitStart := false, tickTaken := false, holdOut := false, ownReady := none, pauseSent := false, holds := [], stopFor := none,
           abortAt := none, abortUnload := false, pauseAt := none, runTo := none, stopped }

/-- The end of a run (R24, R335, R362, R373): a frame in progress does not end clean, the streams end, and the final certificate is sealed. Nothing
happens where no run is in progress (DEDUCED, log entry 38). -/
def closeRun (s : State) (ckind : Nat) : State :=
  if !s.runOn then s else
  let s1 := if s.inFrame then clearDirty (sealFrame s s.frameIndex s.now false (zeros 64)) else s
  let s2 := sealCertificate (endStreams s1) ckind
  { s2 with frame := s2.frame.idle (ckind == 3), freeze := {}, inv := { s2.inv with replay := none, replayNext := false } }

/-- Final replies of the run-control commands other than `START` that a stop leaves unfinished. DEDUCED (DEDUCED, log entry 31). -/
def failRunControl (s : State) (reason : Nat) (abort : Bool) : State :=
  let s1 := finishCommand (finishCommand (finishCommand s 0x31 stFaulted reason []) 0x34 stFaulted reason []) 0x32 stFaulted reason []
  if abort then finishCommand s1 0x33 stFaulted reason [] else s1

/-- The run ends by a stop (R45, R46): `HELD` with `STOPPED` set, `START` answered `FAULTED` with the stop's reason (R421) (DEDUCED, log entry 48). -/
def enterStopped (s : State) (reason : Nat) : State :=
  if !s.runOn then s else
  let last := s.frame.lastClean
  let s1 := setDev (closeRun s 3) .held
  failRunControl (finishCommand s1 0x30 stFaulted reason (resFrame last)) reason true

/-- An own stop at once: alarm and latch, stop note, `HELD` (R45, R46, R482). -/
def stopNow (s : State) (reason : Nat) : State :=
  if !s.runOn then s else enterStopped (sendStop (latchFault s (s.deviceRec reason 0) 0) reason) reason

/-- An own stop that waits for the first tick not yet taken; its note goes at once (R45, R263) (DEDUCED, log entry 37). -/
def stopAtTick (s : State) (reason : Nat) : State :=
  if !s.runOn then s
  else if s.dev = .held then stopNow s reason
  else if s.frame.stopFor.isSome then s
  else
    let s1 := sendStop (latchFault s (s.deviceRec reason 0) 0) reason
    { s1 with frame := { s1.frame with stopFor := some (reason, s.frameIndex) } }

/-- Every outstanding command is answered `FAULTED` with a reason; `START` carries the latched record (R416); one opcode may be spared (R442)
(DEDUCED, log entry 31). -/
def failAll (s : State) (reason : Nat) (spare : Nat) : State :=
  let record := match s.alarms.latch with
    | some l => faultBytes l.record
    | none => []
  (s.cmd.out.filter (fun o => o.opcode != spare)).foldl
    (fun m o => finishCommand m o.opcode stFaulted reason (if o.opcode = 0x30 then resAt 24 record else [])) s

/-- The device enters `FAULTED` after its faults are latched: the stop note, the end of the run, `STOPPED`, and every outstanding command
answered with the latched reason (R45, R85, R373, R416). -/
def faultClose (s : State) (reason : Nat) : State :=
  let s2 := setDev (closeRun (sendStop s reason) 3) .faulted
  failAll s2 (match s2.alarms.latch with | some l => l.record.reason | none => reason) 0

/-- The device enters `FAULTED` for a fault that is latched already or now (R45, R85, R373, R416) (DEDUCED, log entry 48). -/
def enterFaulted (s : State) (f : FaultRec) (source : Nat) : State :=
  if !s.runOn then s else faultClose (latchFault s f source) f.reason

/-- A device fault with no core at fault (R51). -/
def deviceFault (s : State) (reason source : Nat) : State :=
  if !s.runOn then s
  else enterFaulted { s with stats := { s.stats with faults := satInc s.stats.faults } } (s.deviceRec reason source) source

/-- Record an event of the run; one that finds no room in the buffer during a run stops the run with 0x0A30 (R356). -/
def recordOrStop (s : State) (kind frame sub src : Nat) (content : List Byte) (replayed : Bool) : State :=
  if s.inRun && !s.roomFor (s.recordSet kind frame sub src content replayed false) then stopNow s 0x0A30
  else record s kind frame sub src content replayed

end Sys2Proof.Machine
end

