-- ==== Sys2Proof/Machine/Epoch.lean ====
section
/-! DEFINITION. Epochs: table sets and flips (R229 to R233), the loss union and detour plans (R275, R277), and a port's use (R42, R202). -/

namespace Sys2Proof.Machine

open Sys2Proof

/-! ### Use of a port -/

/-- Whether the job entries of the active version use a port (R42). -/
def State.jobUses (s : State) (p : Nat) : Bool :=
  s.activeVersion.tx.any (fun e => e.port == p) || s.activeVersion.xbar.any (fun e => bit e.dmask.toNat p || e.input == p)

/-- Whether the active epoch uses a port, transit entries included (R202). -/
def State.epochUses (s : State) (p : Nat) : Bool :=
  s.jobUses p || s.activeVersion.ttx.any (fun e => e.port == p) ||
    s.activeVersion.txbar.any (fun e => bit e.dmask.toNat p || e.input == p)

/-! ### Links (R250, R275) -/

/-- The base port of a twin port (R185). -/
def basePort (p : Nat) : Nat :=
  if 11 ≤ p ∧ p ≤ 16 then p - 11 else if 17 ≤ p ∧ p ≤ 19 then p - 11 else p

/-- Coordinates of the machine relative to the slice origin (R257) (DEDUCED, log entry 43). -/
def State.relative (s : State) (x y z : Nat) : Nat × Nat × Nat :=
  match s.axes false with
  | [a, b, c] => (a.pos x, b.pos y, c.pos z)
  | _ => (x, y, z)

/-- The neighbour in the direction of lower coordinates on an axis of the machine. -/
def stepBack (e c : Nat) : Nat := if c = 0 then e - 1 else c - 1

/-- The name of the link at a port of a device (R275): a torus link by the device and port at its + end, a board link by the device of lower board
position and its board port (DEDUCED, log entry 43). -/
def State.linkName (s : State) (x y z p : Nat) : Link :=
  let b := basePort p
  let (ex, ey, ez) := match s.plan with
    | some q => (q.extX, q.extY, q.extZ)
    | none => (16, 16, 16)
  if b < 6 then
    let (x1, y1, z1) := if b % 2 = 0 then (x, y, z)
      else if b = 1 then (stepBack ex x, y, z) else if b = 3 then (x, stepBack ey y, z) else (x, y, stepBack ez z)
    let (rx, ry, rz) := s.relative x1 y1 z1
    { x := rx, y := ry, z := rz, port := p - b % 2 }
  else
    let m := b - 5
    let pos := x % 2 + 2 * (y % 2)
    let low := Nat.min pos (pos ^^^ m)
    let (rx, ry, rz) := s.relative (x / 2 * 2 + low % 2) (y / 2 * 2 + low / 2) z
    { x := rx, y := ry, z := rz, port := p }

/-! ### Sets and plans (R229, R275) -/

/-- A table set of the loaded timetable. -/
def State.tableSet (s : State) (n : Nat) : Option TableSet := s.mgmt.loadedImage.bind fun i => i.sets.find? (fun t => t.index == n)

/-- The base set of the active set (R275). -/
def State.baseSet (s : State) : Nat :=
  match s.activeVersion.set with
  | some n => match s.tableSet n with
    | some t => t.base.getD n
    | none => n
  | none => 0

/-- Whether two loss sets hold the same links. -/
def sameLinks (a b : List Link) : Bool := a.all b.contains && b.all a.contains

/-- The detour plan of a base set whose loss set is a union (R275). -/
def State.planFor (s : State) (base : Nat) (union : List Link) : Option Nat :=
  match s.mgmt.loadedImage with
  | some i => (i.sets.find? (fun t => t.base == some base && sameLinks t.lossSet union)).map (·.index)
  | none => none

/-- The entries of a table set. -/
def TableSet.size (t : TableSet) : Nat := t.tx.length + t.xbar.length + t.landing.length

/-- The slot rounds in which the hub writes a set: 8,192 entries per round (R229). -/
def TableSet.rounds (t : TableSet) : Nat := ceilDiv t.size 8192

/-- The rounds needed to write the largest detour set (R233). -/
def State.detourRounds (s : State) : Nat :=
  match s.mgmt.loadedImage with
  | some i => ((i.sets.filter (fun t => t.base.isSome)).map TableSet.rounds).foldl Nat.max 0
  | none => 0

/-- Write a table set into the inactive version; its transit entries stay (R229). -/
def writeSet (s : State) (n : Nat) : State :=
  match s.tableSet n with
  | none => s
  | some t =>
    let v := s.version (!s.fabric.active)
    s.setVersion (!s.fabric.active) { v with tx := t.tx, xbar := t.xbar, landing := t.landing, set := some n }

/-- The write in progress completes. -/
def finishWrite (s : State) : State :=
  match s.fabric.writing with
  | some n => let s1 := writeSet s n; { s1 with fabric := { s1.fabric with writing := none } }
  | none => s

/-! ### Flips (R231 to R233) -/

/-- Copies posted under the version that is no longer active become stragglers (R224, R232). -/
def Port.strand (active : Bool) (q : Port) : Port :=
  { q with departure := q.departure.map (fun c => if c.hdr.epoch = active then c else { c with straggler := true }) }

/-- The inactive version becomes the active one at a slot-round boundary: `FLIPS`, stragglers, ports named again (R271), and the event. -/
def flip (s : State) (detour : Bool) : State :=
  let a := !s.fabric.active
  let s1 := { s with fabric := { s.fabric with active := a, flips := s.fabric.flips + 1, ticksSinceFlip := 0, writable := false } }
  let s2 := s1.portList.foldl (fun m p => m.modPort p fun q => (q.strand a)) s1
  let s3 := s2.portList.foldl (fun m p => if s2.epochUses p && (s2.port p).state == .up then m.modPort p fun q => { q with named := true } else m) s2
  boxEvent s3 4 (leBytes 1 (s3.activeVersion.set.getD 0) ++ leBytes 1 (b2n detour) ++ leBytes 8 s3.round)

/-- The planned flips after frame `k`, the earliest first (R231) (DEDUCED, log entry 44). -/
def State.nextFlip (s : State) (k : Nat) : Option (Nat × Nat) :=
  match s.mgmt.loadedImage with
  | some i => (i.flips.filter (fun e => decide (k < e.1))).foldl (fun m e => match m with
    | some b => if e.1 < b.1 then some e else some b
    | none => some e) none
  | none => none

/-- The set that a planned flip to `n` takes: itself, or the detour plan of the union with base `n` (R277). -/
def State.flipTarget (s : State) (n : Nat) : Option Nat :=
  if s.fabric.union.isEmpty then some n else s.planFor n s.fabric.union

/-- The hub starts the write of the next planned set once the inactive version is writable (R231). -/
def startWrite (s : State) (k : Nat) : State :=
  if !s.fabric.writable || s.fabric.writing.isSome || s.fabric.staged.isSome || s.fabric.flipRound.isSome then s else
  match s.nextFlip k with
  | none => s
  | some (f, n) => match s.flipTarget n with
    | some t => { s with fabric := { s.fabric with writing := some t, staged := some (t, f) } }
    | none => s

/-- The planned flip of the tick that begins frame `f` (R231, R277, R496): after a loss the device flips to the plan for the union, or stops with
0x0527 where there is none. A flip to such a plan takes the place of a detour flip that waits (DEDUCED, log entries 39 and 44). -/
def plannedFlip (s : State) (f : Nat) : State :=
  match s.mgmt.loadedImage.bind (fun i => i.flips.find? (fun e => e.1 == f)) with
  | none => s
  | some (_, n) =>
    match s.flipTarget n with
    | none => stopNow s 0x0527
    | some t =>
      let s1 := flip (finishWrite { s with fabric := { s.fabric with writing := some t } }) false
      let u := s1.fabric.union
      { s1 with fabric := { s1.fabric with staged := none, detourSet := if u.isEmpty then none else some t,
                                            flippedUnion := if u.isEmpty then s1.fabric.flippedUnion else some u, flipRound := none } }

/-- Resend requests that a staged flip held are sent (R272). -/
def releaseRequests (s : State) : State :=
  s.heldRequests.foldl (fun m r => requestResend m r.1 r.2.1 r.2.2.1 r.2.2.2) { s with heldRequests := [] }

/-- A lost link is announced with flip round `F` (R233): the union grows, the matching plan is written into the inactive version, and the flip falls
at the largest round announced (DEDUCED, log entry 43). -/
def announceLoss (s : State) (l : Link) (F : Nat) : State :=
  let u := if s.fabric.union.contains l then s.fabric.union else s.fabric.union ++ [l]
  match s.fabric.flippedUnion with
  | some v => if sameLinks u v then s else stopNow { s with fabric := { s.fabric with union := u } } 0x0527
  | none =>
    let s1 := { s with fabric := { s.fabric with union := u, announced := s.fabric.announced ++ [F] } }
    match s1.planFor s1.baseSet u with
    | none => stopNow s1 0x0527
    | some n =>
      if !s1.fabric.writable then stopNow s1 0x0527
      else { s1 with fabric := { s1.fabric with writing := some n, staged := none,
                                                 flipRound := some ((s1.fabric.announced).foldl Nat.max 0) } }

/-- The flip round of a loss declared now (R233). -/
def State.flipRoundNow (s : State) : Nat := ceilDiv s.now 1024 + s.fabric.holdLead + 2 + s.detourRounds

/-- This device announces the loss of a port while a timetable runs (R233, R244) (DEDUCED, log entry 43). -/
def declareDetour (s : State) (p : Nat) : State :=
  if !s.runOn then s else
  let (x, y, z) := s.coords
  let F := s.flipRoundNow
  announceLoss (sendNote s 0x13 none (leBytes 8 F ++ leBytes 1 p ++ leBytes 8 s.frameIndex)) (s.linkName x y z p) F

end Sys2Proof.Machine
end

