-- ==== Sys2Proof/Machine/Flags.lean ====
section
/-! DEFINITION. Sync and arrival flags (R78 to R81), and the issue of a sequencer instruction: the fetch check (R66), the
skip (R76), the loops (R74, R124) and the arms of a balanced branch (R75). -/

namespace Sys2Proof.Machine

open Sys2Proof

/-- Whether a wait at cycle `t` sees sync flag `f` set: it was set in an earlier cycle (R78). The flag actions before `t` must
have been done. -/
def Core.flagSeen (k : Core) (f t : Nat) : Bool := spGet false k.sflags f && decide (spGet 0 k.sflagAt f < t)

/-- Clear a sync flag. -/
def Core.clearFlag (k : Core) (f : Nat) : Core := { k with sflags := spSet false k.sflags f false }

/-- An arrival flag (R81). -/
def Core.arrived (k : Core) (f : Nat) : Bool := spGet false k.aflags f

/-- How an instruction leaves its word (R75): by falling through, by `JMP`, or by another transfer. -/
inductive Exit where
  | fall | jmp | other
  deriving DecidableEq, Repr

/-- The effect of a sequencer instruction: the core after it, the next word where it is not the following one, how the word
is left, the uses of banks, the generator context written, and an arrival flag found clear. -/
structure SeqEff where
  core : Core
  next : Option Nat := none
  exit : Exit := .fall
  uses : List (BankUse × Nat) := []
  ctx : Option (Nat × GenCtx) := none
  request : Option Nat := none
  deriving DecidableEq, Repr

/-- The last word of the code shelf (R65). -/
def lastWord : Nat := 1535

/-- The fetch of a word at cycle `t` (R66): its page must be ready. -/
def Core.chkPage (k : Core) (word t : Nat) : Res Unit :=
  let p := word / 96
  if t < (k.tag 6 p).ready then .error { reason := 0x0106, object := obj 6 p } else .ok ()

/-- The loop-backs after the word at `a` issues with following word `n` (R124): the innermost loop that ends there repeats
while iterations remain, and is left otherwise. The third result says whether a loop-back was taken. -/
def loopBack (a n : Nat) : List LoopFrame → List LoopFrame × Nat × Bool
  | [] => ([], n, false)
  | f :: t =>
    if f.last = a then
      if 0 < f.left then ({ f with left := f.left - 1 } :: t, f.first, true) else loopBack a n t
    else (f :: t, n, false)

/-- The check of the arms that the transfer from word `a` to word `n` leaves (R75): an arm is left only from its last word, the first by falling
through to the rejoin address and the second by its `JMP` there (DESIGN CHOICE, log entry 6). -/
def leaveArms (a n : Nat) (ex : Exit) (looped : Bool) (depth : Nat) : List Arm → Res (List Arm)
  | [] => .ok []
  | m :: t =>
    if m.depth < depth then .ok (m :: t)
    else if m.second && a == m.last && !(ex == .jmp && n == m.rejoin) then .error { reason := 0x0301, detail := m.rejoin }
    else if depth = m.depth ∧ m.first ≤ n ∧ n ≤ m.last ∧ ¬ (m.second ∧ a = m.last) then .ok (m :: t)
    else if depth = m.depth ∧ a = m.last ∧ n = m.rejoin ∧ looped = false ∧
        (if m.second then ex = .jmp else ex = .fall) then leaveArms a n ex looped depth t
    else .error { reason := 0x0301, detail := m.rejoin }

/-- Whether the sequencer of a core issues now (R52, R53, R57, R85): the package executes cycles, the core has a section, it
is not halted, ended, stalled or waiting, and its cycle is neither held nor after the schedule. -/
def State.canIssue (s : State) (c : Nat) : Bool :=
  let k := s.core c
  s.cycling && k.section_ && !k.halted && !k.ended && k.stalled.isNone && decide (k.cyc < s.heldFrom)

/-- The core after an instruction of word `a`: the next word, the loops and the arms; the cycle count advances (DESIGN CHOICE, log entry 6). -/
def Core.advance (k : Core) (a n : Nat) (ex : Exit) : Res Core := do
  let (loops, n', looped) := loopBack a n k.loops
  let arms ← leaveArms a n' ex looped k.rets.length k.arms
  return { k with loops, arms, pc := n', cyc := k.cyc + 1 }

/-- Raise a conflict of banks (R63) found while logging uses. -/
def raiseUse (s : State) (c : Nat) : Option (Nat × Nat × FaultRec) → State
  | none => s
  | some (u, pc, f) => raiseCore s c u pc f.cycle f

/-- Put a sequencer instruction's effect into the state. -/
def applySeq (s : State) (c : Nat) (k0 : Core) (e : SeqEff) : State :=
  let t := k0.cyc
  match e.core.advance k0.pc (e.next.getD (k0.pc + 1)) e.exit with
  | .error f => raiseCore s c 0 k0.pc t f
  | .ok k =>
    let (k1, bad) := k.logUses e.uses
    let s1 := s.setCore c k1
    let s2 := { s1 with fabric := { s1.fabric with curCycle := Nat.max s1.fabric.curCycle t } }
    let s3 := match e.ctx with
      | some (n, g) => { s2 with contexts := spSet {} s2.contexts n g }
      | none => s2
    let s4 := match e.request with
      | some f => requestFreeze s3 c 0 true f t k0.pc
      | none => s3
    raiseUse s4 c bad

/-- What core `k` does with the word it issues at cycle `t` (R52): the checks of class 0x03 first (R140), the fetch check, the skip
(R76), the effect. `form` gets whether the instruction is skipped. -/
def seqBody (c t : Nat) (s1 : State) (k : Core) (form : Core → Bool → Res Unit) (run : State → Core → Res SeqEff) : State :=
  match (do
      if lastWord < k.pc then throw { reason := 0x0306, detail := k.pc }
      form k (decide (0 < k.skip))
      k.chkPage k.pc t : Res Unit) with
  | .error f => raiseCore s1 c 0 k.pc t f
  | .ok _ =>
    if 0 < k.skip then applySeq s1 c k { core := { k with skip := k.skip - 1 } }
    else match run s1 k with
      | .error f => raiseCore s1 c 0 k.pc t f
      | .ok e => applySeq s1 c k e

/-- The issue of a sequencer instruction (R52): the core's writes and flag actions up to its cycle, then its word. -/
def seqRun (c : Nat) (s : State) (form : Core → Bool → Res Unit) (run : State → Core → Res SeqEff) : State :=
  if !s.canIssue c || (s.core c).waitFlag.isSome then s else
  let t := (s.core c).cyc
  let s1 := settle s c t
  if (s1.core c).halted then s1 else seqBody c t s1 (s1.core c) form run

/-- An instruction without checks of class 0x03. -/
def noForm : Core → Bool → Res Unit := fun _ _ => .ok ()

/-- Write a scalar result that is ready at cycle `r` (R82, R83, R54). -/
def Core.writeS (k : Core) (e n : Nat) (v : Word) (r unit pc : Nat) : Res Core := do
  k.chkWrite 0 n r
  chkSpill e r (obj 0 n)
  return (k.setSreg n v).setTag 0 n r unit pc

end Sys2Proof.Machine
end

