-- ==== Sys2Proof/Machine/EngineQueue.lean ====
section
/-! DEFINITION. Command descriptors (R126 to R130), the engine queues (R56 to R58), dispatch (R128), the latency sheet
(R133 to R138) and completion. -/

namespace Sys2Proof.Machine

open Sys2Proof

/-! ### Descriptors -/

/-- The descriptor of four code-shelf words, word 0 lowest (R126). -/
def decodeDesc (w0 w1 w2 w3 : Nat) : Desc :=
  { dver := bits w0 3 0, eng := bits w0 7 4, cop := bits w0 15 8, wflag := bits w0 21 16, wen := bit w0 22, wclr := bit w0 23,
    sflag := bits w0 29 24, sen := bit w0 30, dce := bit w0 31, fmta := bits w0 35 32, fmtb := bits w0 39 36,
    fmtd := bits w0 43 40, rnd := bits w0 46 44, sat := bit w0 47, pred := bits w0 50 48, ctx := bits w0 54 51,
    bankm := BitVec.ofNat 8 (bits w0 63 56), count := bits w1 15 0, tile := bits w1 17 16, vd := bits w1 25 20,
    va := bits w1 31 26, vb := bits w1 37 32, sa := bits w1 42 38, sb := bits w1 47 43, fn := bits w1 51 48,
    dcyc := bits w1 63 52, opnd0 := BitVec.ofNat 32 (bits w2 31 0), opnd1 := BitVec.ofNat 32 (bits w2 63 32),
    opnd2 := BitVec.ofNat 32 (bits w3 31 0), opnd3 := BitVec.ofNat 32 (bits w3 63 32) }

/-- The descriptor at a code-shelf address. -/
def Core.descAt (k : Core) (a : Nat) : Desc :=
  let w := fun i => (spGet 0 k.code (a + i)).toNat
  decodeDesc (w 0) (w 1) (w 2) (w 3)

/-- The engine of a command opcode (R130): 0 MX, 1 VX, 2 SX, 3 NX; 4 where the table does not list it. -/
def copEngine (cop : Nat) : Nat :=
  if (1 ≤ cop ∧ cop ≤ 4) ∨ (8 ≤ cop ∧ cop ≤ 0xB) then 0
  else if 0x10 ≤ cop ∧ cop ≤ 0x24 then 1
  else if 0x30 ≤ cop ∧ cop ≤ 0x39 then 2
  else if cop = 0x40 ∨ cop = 0x41 then 3
  else 4

/-- The bits of a format (R89); 0 for a reserved code. -/
def fmtBits (f : Nat) : Nat :=
  match f with
  | 0 | 1 | 2 | 6 => 8
  | 3 | 4 => 6
  | 5 => 4
  | 8 | 9 => 16
  | 0xA => 32
  | _ => 0

/-- Whether a format code is defined (R89). -/
def fmtOk (f : Nat) : Bool := fmtBits f != 0

/-- The step depth and cycles per step of a format (R55). -/
def mxRow (f : Nat) : Nat × Nat :=
  match f with
  | 3 | 4 | 5 => (2, 1)
  | 8 => (1, 4)
  | 0xA => (1, 16)
  | _ => (1, 1)

/-- The depth and the cycles per step of a pair of formats (R93). -/
def mxStep (fa fb : Nat) : Nat × Nat :=
  let (da, ca) := mxRow fa
  let (db, cb) := mxRow fb
  if ca = cb then (Nat.min da db, ca) else if ca < cb then (db, cb) else (da, ca)

/-- A VX command that works on formats 0x8 and 0xA given by `FMTA` (R89, R109) (DEDUCED, log entry 25). -/
def vxArith (cop : Nat) : Bool := (decide (0x12 ≤ cop) && decide (cop ≤ 0x19)) || cop == 0x1C || cop == 0x20 || cop == 0x21

/-- Whether the lanes are 8 of 32 bits (R533). -/
def wide (d : Desc) : Bool := d.fmta == 0xA || d.fmtd == 0xA

/-- A path of `XPUT`: width in bytes and latency (R67, R130). -/
def pathOf (fn : Nat) : Nat × Nat :=
  match fn with
  | 0 => (32, 2)
  | 1 => (32, 4)
  | 2 => (32, 6)
  | 3 => (256, 40)
  | _ => (1024, 96)

/-- Whether a path reaches core `t` from core `c` (R67, R130): never the core itself. -/
def pathReaches (fn c t : Nat) : Bool :=
  decide (t < coreCount) && c != t &&
  match fn with
  | 0 => c / 40 == t / 40 && (c + 1 == t || t + 1 == c)
  | 1 => c / 40 == t / 40
  | 2 => c / 1280 == t / 1280 && c / 40 != t / 40
  | 3 => c / 20480 == t / 20480 && c / 1280 != t / 1280
  | _ => c / 20480 != t / 20480

/-- The code of a space as a bit of a set: shelf 1, attic 2, staging 4, none 8. -/
def spaceBit (f : BitVec 32) : Nat := 2 ^ (f.toNat / 2 ^ 17 % 4)

/-- The spaces that each operand field of a command accepts (R130, R131), as sets; an operand that a command does not use as
memory accepts all. -/
def operandSpaces (d : Desc) : List (BitVec 32 × Nat) :=
  match d.cop with
  | 0x01 | 0x02 => [(d.opnd0, 3), (d.opnd1, 3), (d.opnd2, 11), (d.opnd3, 11)]
  | 0x08 => [(d.opnd0, 11)]
  | 0x09 => [(d.opnd0, 11), (d.opnd1, 3)]
  | 0x0A | 0x0B => [(d.opnd0, 3), (d.opnd1, 3)]
  | 0x10 | 0x11 => [(d.opnd0, 3)]
  | 0x30 => [(d.opnd0, 3), (d.opnd1, 4)]
  | 0x31 => [(d.opnd0, 4), (d.opnd1, 3)]
  | 0x32 => [(d.opnd0, 7), (d.opnd1, 7)]
  | 0x33 => [(d.opnd0, if d.fn ≤ 2 then 3 else 4), (d.opnd1, 3)]
  | 0x34 | 0x35 | 0x36 | 0x37 | 0x38 => [(d.opnd0, 4)]
  | 0x40 => [(d.opnd0, 3)]
  | _ => []

/-- The checks of 0x0303 (R126, R130): the engine and the opcode (DEDUCED, log entry 22). -/
def chkOpcode (d : Desc) : Res Unit :=
  if 3 < d.eng ∨ copEngine d.cop ≠ d.eng then .error { reason := 0x0303, detail := d.eng * 256 + d.cop } else .ok ()

/-- The checks of 0x0304 (R89, R130, R339, R533): formats, rounding and sub-operation (DEDUCED, log entry 22). -/
def chkFormat (d : Desc) : Res Unit := do
  let bad (v : Nat) : Res Unit := throw { reason := 0x0304, detail := v }
  let mxFmt := fun f => decide (f ≤ 6) || f == 8 || f == 0xA
  let arFmt := fun f => f == 8 || f == 0xA
  if d.cop == 1 || d.cop == 2 then
    if !mxFmt d.fmta then bad d.fmta
    if !mxFmt d.fmtb then bad d.fmtb
  if d.cop == 8 && !fmtOk d.fmtd then bad d.fmtd
  if d.cop == 9 && !(decide (1 ≤ d.fmtd) && decide (d.fmtd ≤ 6)) then bad d.fmtd
  if (vxArith d.cop || (d.cop == 0x1D && d.fn != 1)) && !arFmt d.fmta then bad d.fmta
  if d.cop == 0x1B then
    if !fmtOk d.fmta then bad d.fmta
    if !fmtOk d.fmtd then bad d.fmtd
  if d.cop == 0x1F && !arFmt d.fmtd then bad d.fmtd
  if 4 < d.rnd then bad d.rnd
  if d.rnd == 4 && !(d.cop == 8 || d.cop == 9 || d.cop == 0x1B) then bad d.rnd
  if d.cop == 0x1C && decide (10 < d.fn) then bad d.fn
  if d.cop == 0x1D && decide (1 < d.fn) then bad d.fn
  if d.cop == 0x33 && decide (4 < d.fn) then bad d.fn
  if (d.cop == 0x34 || d.cop == 0x35) && decide (1 < d.fn) then bad d.fn
  if d.cop == 0x19 && decide (4 < d.sb % 8) then bad (d.sb % 8)
  if d.cop == 0x22 && wide d && decide (7 < d.fn) then bad d.fn

/-- The least and the largest `COUNT` of a command that uses it (R130, R166). -/
def countRange (cop : Nat) : Option (Nat × Nat) :=
  match cop with
  | 0x01 | 0x02 => some (1, 65535)
  | 0x24 => some (1, 8)
  | 0x30 => some (32, 4096)
  | 0x31 | 0x32 | 0x33 | 0x34 | 0x35 | 0x36 | 0x37 => some (1, 65535)
  | 0x38 => some (1, 16)
  | 0x39 => some (1, 16)
  | 0x40 => some (1, 16)
  | _ => none

/-- The checks of 0x0307 (R127, R130): counts, register groups and pairs, operand spaces and reach of a path (DEDUCED, log entry 22). -/
def chkField (c : Nat) (d : Desc) : Res Unit := do
  let bad (v : Nat) : Res Unit := throw { reason := 0x0307, detail := v }
  match countRange d.cop with
  | some (lo, hi) => if d.count < lo ∨ hi < d.count then bad d.count
  | none => pure ()
  if d.cop == 0x38 && decide (16 < d.fn + d.count) then bad d.count
  if (d.cop == 8 || d.cop == 9) && (opSpace d.opnd0).isNone && decide (56 < d.vd) then bad d.vd
  if (d.cop == 0x24 || (d.cop == 0x1B && d.rnd == 4)) && d.sb == 31 then bad 31
  if (d.cop == 8 || d.cop == 9) && d.rnd == 4 && opBase d.opnd3 == 31 then bad 31
  match (operandSpaces d).find? (fun e => e.2 / spaceBit e.1 % 2 == 0) with
  | some e => bad e.1.toNat
  | none => pure ()
  if d.cop == 0x33 && !pathReaches d.fn c (bits d.opnd2.toNat 16 0) then bad (bits d.opnd2.toNat 16 0)

/-- The checks of class 0x03 of an enqueue, lowest code first (R126, R140) (DEDUCED, log entry 22). -/
def enqForm (c daddr : Nat) (k : Core) (_ : Bool) : Res Unit := do
  if daddr % 4 ≠ 0 ∨ lastWord < daddr + 3 then throw { reason := 0x0306, detail := daddr }
  let d := k.descAt daddr
  chkOpcode d
  chkFormat d
  if d.dver ≠ 1 then throw { reason := 0x0305, detail := d.dver }
  chkField c d

/-! ### Engines -/

/-- The engine's state. -/
def Core.eng (k : Core) : Engine → EngineState
  | .mx => k.mx
  | .vx => k.vx
  | .sx => k.sx
  | .nx => k.nx

/-- Replace an engine's state. -/
def Core.setEng (k : Core) (e : Engine) (x : EngineState) : Core :=
  match e with
  | .mx => { k with mx := x }
  | .vx => { k with vx := x }
  | .sx => { k with sx := x }
  | .nx => { k with nx := x }

/-- The unit code of an engine (R87). -/
def unitOf : Engine → Nat
  | .mx => 1
  | .vx => 2
  | .sx => 3
  | .nx => 4

/-- The engine of a descriptor. -/
def engineOf (n : Nat) : Engine :=
  match n with
  | 0 => .mx
  | 1 => .vx
  | 2 => .sx
  | _ => .nx

/-! ### Enqueue (R57, R58, R128) -/

/-- The scalar registers that the descriptor has read at the enqueue, as commands use them (R128, R130). -/
def scalarSources (d : Desc) : List Nat :=
  let sas := if [4, 8, 9, 0x1E, 0x23, 0x24, 0x34, 0x35, 0x36, 0x37, 0x40].contains d.cop || (d.cop == 0x1B && d.rnd == 4) then [d.sa] else []
  let sbs := if d.cop == 8 || d.cop == 9 then [d.sb]
    else if d.cop == 0x24 || (d.cop == 0x1B && d.rnd == 4) then [d.sb, d.sb + 1]
    else if (d.cop == 0x34 || d.cop == 0x35) && d.fn == 1 then [d.sb] else []
  let bases := (operandSpaces d).filterMap fun e => if (opSpace e.1).isSome then some (opBase e.1) else none
  let sr := if (d.cop == 8 || d.cop == 9) && d.rnd == 4 then [opBase d.opnd2, opBase d.opnd3, opBase d.opnd3 + 1] else []
  sas ++ sbs ++ bases ++ sr

/-- Whether a command uses the predicate register that it names (R129, R533). -/
def usesPred (d : Desc) : Bool :=
  decide (0x10 ≤ d.cop) && decide (d.cop ≤ 0x24) && !(d.cop == 0x1E || d.cop == 0x1F || d.cop == 0x22 || (d.cop == 0x1D && d.fn == 1))

/-- Every check of a list, in order (DEDUCED, log entry 83). -/
def checkAll {α : Type} (f : α → Res Unit) : List α → Res Unit
  | [] => .ok ()
  | a :: t => do
    f a
    checkAll f t

/-- The queue entry of an enqueue at the core's cycle. -/
def makeEntry (k : Core) (daddr : Nat) (d : Desc) (null : Bool) : QEntry :=
  { desc := d, daddr, enqCycle := k.cyc, pc := k.pc, null, sa := k.sreg d.sa, sb := k.sreg d.sb,
    sb1 := k.sreg (d.sb + 1), pred := k.preg d.pred, base0 := k.sreg (opBase d.opnd0), base1 := k.sreg (opBase d.opnd1),
    base2 := k.sreg (opBase d.opnd2), base3 := k.sreg (opBase d.opnd3), base3n := k.sreg (opBase d.opnd3 + 1) }

/-- Whether the queue is full at the start of cycle `t`: an entry freed by a dispatch in cycle `t` still counts (R57). -/
def EngineState.full (x : EngineState) (t : Nat) : Bool :=
  decide (8 ≤ x.queue.length + (if 0 < x.freedAt ∧ t ≤ x.freedAt then 1 else 0))

/-- The registers of the descriptor are read and the command enters its queue; a skipped enqueue reads none (R76, R128). -/
def enqueue (k : Core) (daddr : Nat) (null : Bool) : Res Core := do
  let d := k.descAt daddr
  if !null then
    checkAll (fun n => k.chkRead 0 n k.cyc) (scalarSources d)
    if usesPred d then k.chkRead 2 d.pred k.cyc
  let e := engineOf d.eng
  let x := k.eng e
  return k.setEng e { x with queue := x.queue ++ [makeEntry k daddr d null] }

/-- ENQ: the checks of class 0x03, the page of the descriptor (R66), a stall on a full queue (R57), or the enqueue. A skipped
enqueue enters a null command (R76). -/
def enqCore (c daddr : Nat) (s : State) : State :=
  if !s.canIssue c || (s.core c).waitFlag.isSome then s else
  let t := (s.core c).cyc
  let s1 := settle s c t
  let k := s1.core c
  if k.halted then s1 else
  match (do
      if lastWord < k.pc then throw { reason := 0x0306, detail := k.pc }
      enqForm c daddr k (decide (0 < k.skip))
      k.chkPage k.pc t
      k.chkPage daddr t : Res Unit) with
  | .error f => raiseCore s1 c 0 k.pc t f
  | .ok _ =>
    if (k.eng (engineOf (k.descAt daddr).eng)).full t then s1.setCore c { k with stalled := some daddr }
    else
      let null := decide (0 < k.skip)
      match enqueue k daddr null with
      | .error f => raiseCore s1 c 0 k.pc t f
      | .ok k' => applySeq s1 c k { core := { k' with skip := k'.skip - 1 } }

/-- ENQ (R57, R122). -/
def execEnq (c daddr : Nat) (s : State) : Out := onCore c s fun s => enqCore c daddr s

/-- ENQUEUE_AFTER_STALL: the stalled enqueue succeeds in the first cycle whose start finds a free entry (R57) (DESIGN CHOICE, log entry 6). -/
def execEnqueueAfterStall (c : Nat) (s : State) : Out :=
  onCore c s fun s =>
    let k := s.core c
    match k.stalled with
    | none => s
    | some daddr =>
      let x := k.eng (engineOf (k.descAt daddr).eng)
      if 8 ≤ x.queue.length ∨ k.halted then s
      else
        let t := Nat.max k.cyc (x.freedAt + 1)
        if s.heldFrom ≤ t then s
        else enqCore c daddr (s.setCore c { k with stalled := none, cyc := t })

/-! ### The latency sheet (R133 to R138) -/

/-- What the sheet says of a command dispatched at `d`: the end of its occupancy, the ready cycles of its registers and code
pages as (kind, number, cycle), and the cycle of its last result, in which its flag is set. -/
structure Timing where
  occ : Nat
  tags : List (Nat × Nat × Nat)
  last : Nat
  deriving DecidableEq, Repr

/-- The blocks of 42 words that `n` words from word `w` span (R117). -/
def drawBlocks (w n : Nat) : Nat := (w + n - 1) / 42 - w / 42 + 1

/-- The 64-bit word offset in a register pair (R107, R117). -/
def pair64 (lo hi : Word) : Nat := lo.toNat + 2 ^ 32 * hi.toNat

/-- The generator blocks of a command: of a `DRAW`, a stochastic export or a stochastic conversion (R117, R135, R136). -/
def genBlocks (q : QEntry) : Nat :=
  let d := q.desc
  if d.cop = 0x24 then drawBlocks (pair64 q.sb q.sb1) d.count
  else if d.cop = 0x1B ∧ d.rnd = 4 then drawBlocks (pair64 q.sb q.sb1) (if wide d then 8 else 16)
  else if d.cop = 8 ∧ d.rnd = 4 then drawBlocks (pair64 q.base3 q.base3n) 64
  else if d.cop = 9 ∧ d.rnd = 4 then drawBlocks (pair64 q.base3 q.base3n) 256
  else 0

/-- The device address of `XCRD`, `XCWR`, `XHRD` and `XHWR` (R130). -/
def QEntry.da (q : QEntry) : Nat :=
  (q.desc.opnd3.toNat % 65536 * 2 ^ 32 + q.desc.opnd2.toNat + 32 * q.sa.toNat) % 2 ^ 48

/-- R137: the ready offset of division and of the elementary functions, binary32 and BF16, A0 and B0. -/
def vfnLatency (st : Stepping) (bf16 : Bool) (cls : Nat) : Nat :=
  let row : List Nat := match cls with
    | 0 => [16, 13, 10, 8]
    | 1 => [12, 10, 8, 7]
    | 2 => [14, 12, 9, 8]
    | 3 => [16, 13, 10, 9]
    | 4 => [18, 15, 11, 10]
    | _ => [22, 18, 13, 11]
  row.getD (2 * b2n bf16 + b2n (st == .b0)) 0

/-- The class of a sub-operation of `VFN` in R137. -/
def vfnClass (fn : Nat) : Nat :=
  if fn ≤ 2 then 1 else if fn ≤ 4 then 2 else if fn ≤ 6 then 3 else if fn ≤ 8 then 4 else 5

/-- Q of R135: 2 with every memory operand in the shelf, 4 with one in the attic. -/
def mxQ (d : Desc) : Nat :=
  if [d.opnd0, d.opnd1, d.opnd2, d.opnd3].any (fun f => opSpace f == some .attic) then 4 else 2

/-- The timing of a command of core `c` dispatched at `d` (R135 to R138). -/
def timing (s : State) (c : Nat) (q : QEntry) (d : Nat) : Timing :=
  let x := q.desc
  let st := s.stepping
  let a0 := b2n (st == .a0)
  let att := fun (f : BitVec 32) => opSpace f == some .attic
  let steps := x.count * (mxStep x.fmta x.fmtb).2
  let ext := 24 * genBlocks q
  let vec := fun n => ({ occ := 1, tags := [(1, x.vd, d + n)], last := d + n } : Timing)
  let sca := fun n => ({ occ := 1, tags := [(0, x.sa, d + n)], last := d + n } : Timing)
  let beats := ceilDiv x.count 512
  match x.cop with
  | 0x01 =>
    let r := d + mxQ x + steps + 5 + a0
    { occ := steps, tags := [(3, x.tile, r)], last := r }
  | 0x02 =>
    let r := d + mxQ x + steps + 3
    { occ := steps, tags := [(0, x.sa, r)], last := r }
  | 0x03 | 0x04 => { occ := 1, tags := [(3, x.tile, d + 2)], last := d + 2 }
  | 0x08 =>
    let r := fun i => d + 6 + a0 + i + ext
    { occ := 8, tags := if (opSpace x.opnd0).isNone then (List.range 8).map (fun i => (1, x.vd + i, r i)) else [], last := r 7 }
  | 0x09 =>
    let r := d + 38 + 2 * a0 + ext
    { occ := 32, tags := if (opSpace x.opnd0).isNone then (List.range 8).map (fun i => (1, x.vd + i, r)) else [], last := r }
  | 0x0A =>
    let occ := if att x.opnd0 then 17 else 33
    { occ, tags := [], last := d + occ + 3 }
  | 0x0B =>
    let occ := if att x.opnd0 then 17 else 33
    { occ, tags := [(3, x.tile, d + occ + 6 + a0)], last := d + occ + 6 + a0 }
  | 0x10 => vec (if att x.opnd0 then 5 else 3)
  | 0x11 => { occ := 1, tags := [], last := d + (if att x.opnd0 then 5 else 3) }
  | 0x15 => vec 5
  | 0x16 => { vec (vfnLatency st (x.fmta == 8) 0) with occ := 2 }
  | 0x19 => { occ := 1, tags := [(2, x.fn % 8, d + 4)], last := d + 4 }
  | 0x1B => if x.rnd = 4 then vec (ext + 6) else vec 4
  | 0x1C => { vec (vfnLatency st (x.fmta == 8) (vfnClass x.fn)) with occ := 2 }
  | 0x1D => vec 6
  | 0x1E => vec 2
  | 0x1F => vec 5
  | 0x20 => sca 4
  | 0x21 => sca 6
  | 0x22 => sca 3
  | 0x24 => vec (ext + 6)
  | 0x30 =>
    let a := att x.opnd0
    let occ := ceilDiv x.count (if a then 64 else 32)
    { occ, tags := [], last := d + occ + (if a then 3 else 1) }
  | 0x31 =>
    let occ := ceilDiv x.count (if att x.opnd1 then 64 else 32)
    { occ, tags := [], last := d + occ + 1 }
  | 0x32 =>
    let occ := ceilDiv x.count 32
    { occ, tags := [], last := d + occ + 2 + (if att x.opnd0 || att x.opnd1 then 2 else 0) }
  | 0x33 =>
    let (w, lat) := pathOf x.fn
    let n := ceilDiv x.count w
    { occ := n, tags := [], last := d + lat + n - 1 }
  | 0x34 => { occ := beats, tags := [], last := d + 2 * s.lambda c (s.daSite q.da) + cellarC + beats - 1 + 34 * x.fn }
  | 0x35 => { occ := beats, tags := [], last := d + s.lambda c (s.daSite q.da) + beats - 1 }
  | 0x36 => { occ := beats, tags := [], last := d + 2 * s.lambda c 0 + 20 + beats - 1 }
  | 0x37 => { occ := beats, tags := [], last := d + s.lambda c 0 + 20 + beats - 1 }
  | 0x38 =>
    { occ := 12 * x.count, tags := (List.range x.count).map (fun i => (6, x.fn + i, d + 12 * (i + 1) + 1)),
      last := d + 12 * x.count + 1 }
  | 0x40 => { occ := 8 * x.count, tags := [], last := d + 8 * x.count }
  | 0x39 | 0x41 => { occ := 1, tags := [], last := d + 1 }
  | _ => vec 4

/-! ### Dispatch (R56, R78, R128) -/

/-- The checks of a dispatch at `d`, lowest code first: write order (R83), the planned cycle (R128), spill (R54). A null command
keeps the ready cycles but is not held to `DCYC` (R140). -/
def chkDispatch (k : Core) (e : Nat) (q : QEntry) (d : Nat) (t : Timing) : Res Unit := do
  checkAll (fun g => k.chkWrite g.1 g.2.1 g.2.2) t.tags
  if q.desc.dce && !q.null && d % 4096 != q.desc.dcyc then throw { reason := 0x0103, detail := d }
  checkAll (fun g => chkSpill e g.2.2 (obj g.1 g.2.1)) t.tags
  chkSpill e t.last 0

/-- The cycle in which the head of a queue may dispatch: one cycle after its enqueue, when the occupancy has ended (R56). -/
def EngineState.headCycle (x : EngineState) (q : QEntry) : Nat := Nat.max (q.enqCycle + 1) x.occEnd

/-- ENGINE_DISPATCH: the engine takes the command at the head of its queue (R56), waits on its flag (R79) and checks its planned
cycle (R128). The ready-cycle tags are recorded, and the flag that the command sets is due in its last ready cycle. -/
def execEngineDispatch (c : Nat) (e : Engine) (s : State) : Out :=
  onCore c s fun s =>
    let k0 := s.core c
    let x := k0.eng e
    match x.queue with
    | [] => s
    | q :: rest =>
      let d := x.headCycle q
      if !s.cycling || !k0.section_ || k0.halted || x.cur.isSome || decide (s.heldFrom ≤ d) then s else
      let s1 := settle s c d
      let k := s1.core c
      if k.halted then s1
      else if q.desc.wen && !k.flagSeen q.desc.wflag d then requestFreeze s1 c (unitOf e) false q.desc.wflag d q.pc
      else
        let k1 := if q.desc.wen && q.desc.wclr then k.clearFlag q.desc.wflag else k
        let t := timing s1 c q d
        match chkDispatch k1 s.frame.e q d t with
        | .error f => raiseCore (s1.setCore c k1) c (unitOf e) q.pc d f
        | .ok _ =>
          let old := t.tags.map (fun g => (tagKey g.1 g.2.1, k1.tag g.1 g.2.1))
          let k2 := t.tags.foldl (fun m g => m.setTag g.1 g.2.1 g.2.2 (unitOf e) q.pc) k1
          let fl : InFlight := { q, d, old }
          let k3 := k2.setEng e { x with queue := rest, occEnd := d + t.occ, freedAt := d, running := some fl,
                                          cur := if q.null then none else some fl }
          let p : Pending := { unit := unitOf e, pc := q.pc, ready := t.last, flag := if q.desc.sen then some q.desc.sflag else none }
          let s2 := s1.setCore c { k3 with pend := k3.pend ++ [p] }
          { s2 with fabric := { s2.fabric with curCycle := Nat.max s2.fabric.curCycle d } }

/-- COMMAND_COMPLETE: the earliest results of the engine become readable and its flag is set (R128). -/
def execCommandComplete (c : Nat) (e : Engine) (s : State) : Out :=
  onCore c s fun s =>
    let k := s.core c
    let x := k.eng e
    match (k.pend.filter (fun p => p.unit == unitOf e && p.src.isNone)).map (·.ready) with
    | [] => s.setCore c (k.setEng e { x with running := none })
    | r :: rs =>
      let t := rs.foldl Nat.min r
      if x.cur.isSome || k.halted || !s.cycling || decide (s.heldFrom ≤ t) then s else
      let s1 := settle s c (t + 1)
      let k1 := s1.core c
      let busy := k1.pend.any (fun p => p.unit == unitOf e && p.src.isNone)
      s1.setCore c (k1.setEng e { k1.eng e with running := if busy then (k1.eng e).running else none })

/-! ### Execution of the command that an engine has taken -/

/-- A result or a fault with its cycle. -/
abbrev CRes (α : Type) := Except (Nat × FaultRec) α

/-- A check at cycle `t`. -/
def atCycle {α : Type} (t : Nat) : Res α → CRes α
  | .ok a => .ok a
  | .error f => .error (t, f)

/-- The effect of a command: the core's registers, its writes in flight, the writes and flags it brings to other cores, its uses
of banks here and there, its uses of paths as (cycle, resource), and what it does to the rest of the package. -/
structure CmdEff where
  core : Core
  pends : List Pending := []
  others : List (Nat × Pending) := []
  uses : List (BankUse × Nat) := []
  otherUses : List (Nat × BankUse × Nat) := []
  paths : List (Nat × Nat) := []
  post : State → State := id

/-- The conflict of a command's paths with those in use (R68): the later-dispatched transfer, or in one cycle the later unit in
the order of R63, raises 0x0403 and sends no beat. -/
def firstPathConflict (s : State) (c : Nat) : List (Nat × Nat) → Option (Nat × Nat × PathUse)
  | [] => none
  | (t, r) :: rest =>
    match pathConflict s t r (if r = 0xC00 ∨ r = 0xC01 then some c else none) with
    | some v => some (t, r, v)
    | none => firstPathConflict s c rest

/-- Log the uses that a command makes of other cores' ports (R64, R131). -/
def logOther (s : State) : List (Nat × BankUse × Nat) → State
  | [] => s
  | (t, u, a) :: rest =>
    let (k', bad) := (s.core t).logUses [(u, a)]
    let s1 := s.setCore t k'
    match bad with
    | some (v, pc, f) => logOther (raiseCore s1 t v pc u.cycle f) rest
    | none => logOther s1 rest

/-- Put a command's effect into the state (DEDUCED, log entry 28). -/
def applyCmd (s : State) (c : Nat) (e : Engine) (fl : InFlight) (f : CmdEff) : State :=
  match firstPathConflict s c f.paths with
  | some (t, r, v) =>
    let rec_ : FaultRec := { reason := 0x0403, object := obj 9 r, engine2 := v.unit, pc2 := v.pc, lcore2 := some v.core }
    if v.dispatch = fl.d ∧ unitOrder (unitOf e) < unitOrder v.unit then
      raiseCore s v.core v.unit v.pc t { rec_ with engine2 := unitOf e, pc2 := fl.q.pc, lcore2 := some c }
    else raiseCore s c (unitOf e) fl.q.pc t rec_
  | none =>
    let (k1, bad) := f.core.logUses f.uses
    let s1 := s.setCore c { k1 with pend := k1.pend ++ f.pends }
    let pu : List PathUse := f.paths.map (fun p =>
      { cycle := p.1, resource := p.2, core := c, unit := unitOf e, pc := fl.q.pc, dispatch := fl.d })
    let s2 := { s1 with pathUses := pu ++ s1.pathUses }
    let s3 := f.others.foldl (fun m p => m.setCore p.1 { m.core p.1 with pend := (m.core p.1).pend ++ [p.2] }) s2
    let s4 := f.post (logOther s3 f.otherUses)
    raiseUse s4 c bad

/-- The core as the command's own reads see it: its destinations carry the tags of before its dispatch (R82, R129). -/
def InFlight.view (fl : InFlight) (k : Core) : Core :=
  fl.old.foldl (fun m g => { m with tags := spSet {} m.tags g.1 g.2 }) k

/-- The core with the tags of its destinations as the dispatch recorded them. -/
def restoreTags (fl : InFlight) (k0 k : Core) : Core :=
  fl.old.foldl (fun m g => { m with tags := spSet {} m.tags g.1 (spGet {} k0.tags g.1) }) k

/-- Execution of a command with opcode `cop` by engine `e`: only the command that the engine has taken, once. `f` gets the core as the command's reads
see it (DEDUCED, log entry 28). -/
def engRun (c : Nat) (e : Engine) (cop : Nat) (s : State) (f : State → Core → InFlight → CRes CmdEff) : State :=
  let k := s.core c
  match (k.eng e).cur with
  | none => s
  | some fl =>
    if fl.q.desc.cop ≠ cop ∨ k.halted ∨ s.cycling = false then s else
    let k1 := k.setEng e { k.eng e with cur := none }
    let s1 := s.setCore c k1
    match f s1 (fl.view k1) fl with
    | .error (t, r) => raiseCore s1 c (unitOf e) fl.q.pc t r
    | .ok g => applyCmd s1 c e fl { g with core := restoreTags fl k1 g.core }

/-- An engine command. -/
def onEngine (c : Nat) (e : Engine) (cop : Nat) (s : State) (f : State → Core → InFlight → CRes CmdEff) : Out :=
  onCore c s fun s => engRun c e cop s f

/-- A memory operand of the command: its store and effective address, checked at the dispatch cycle (R63, R127). -/
def operand (fl : InFlight) (f : BitVec 32) (base : Word) (n : Nat) : CRes (Space × Nat) :=
  match opSpace f with
  | none => .ok (.shelf, 0)
  | some sp => do
    let a := opAddr f base
    atCycle fl.d (chkOperand sp a n (opBase f ≠ 0) fl.q.desc.bankm)
    return (sp, a)

/-- The uses of banks by unit `u` for `n` bytes at an address of a store in cycle `t`. -/
def usesOf (u pc : Nat) (sp : Space) (a n t : Nat) : List (BankUse × Nat) :=
  (banksOf sp a n).zipIdx.map fun b =>
    ({ cycle := t, bank := b.1, unit := u, pc, addr := if sp = .attic then a else (a / 32 + b.2) * 32 }, a)

end Sys2Proof.Machine
end

