-- ==== Sys2Proof/Machine/FrameOps.lean ====
section
/-! DEFINITION. Frame control (R29 to R46, R421, R422, R494, R502): holds and ready notes, the agreed tick, the steps of a tick, the begin of
a frame, and the replayed inputs of a tick (R367 to R370). -/

namespace Sys2Proof.Machine

open Sys2Proof

/-! ### Rates (R32, R384) -/

/-- The floor of a mode in kHz. -/
def floorKhz : Mode → Nat
  | .peak => 1100000
  | .steady => 1000000
  | .cool => 800000

/-- The nominal frequency of a mode in kHz (DEDUCED, log entry 10). -/
def nominalKhz : Mode → Nat
  | .peak => 1200000
  | .steady => 1050000
  | .cool => 850000

/-- The ceiling of a mode in kHz. -/
def ceilKhz : Mode → Nat
  | .peak => 1206000
  | .steady => 1055250
  | .cool => 854250

/-- The minimum target of a mode in kHz (R384). -/
def minKhz : Mode → Nat
  | .peak => 1144000
  | .steady => 1040000
  | .cool => 832000

/-- The code of a mode (R386). -/
def modeCode : Mode → Nat
  | .peak => 0
  | .steady => 1
  | .cool => 2

/-- The mode of a code. -/
def modeOf : Nat → Mode
  | 0 => .peak
  | 1 => .steady
  | _ => .cool

/-- The cycle budget of a frame (R31). -/
def budgetOf (rounds : Nat) (m : Mode) (g : Nat) : Nat :=
  let c := rounds * 1024 * (floorKhz m / 1000) / 1000
  c - Nat.max (ceilDiv (c * g) 1000) 320

/-- Apply a mode (R38, R386): the target starts at nominal, or at the minimum while `TSTATE` is 2; the governor's window restarts. -/
def applyMode (s : State) (m : Mode) (gov : Bool) : State :=
  let c := s.clock
  let s1 := boxEvent s 7 (leBytes 1 (modeCode c.mode) ++ leBytes 1 (modeCode m) ++ leBytes 1 (b2n gov))
  { s1 with clock := { s1.clock with
      mode := m, staged := none, stagedByGov := false, byGovernor := gov, nextTargetKhz := none,
      targetKhz := if s.stats.tstate = 2 then minKhz m else nominalKhz m, govKhz := nominalKhz m, overRounds := 0 } }

/-- Whether a mode is faster than the one in force. -/
def State.faster (s : State) (m : Mode) : Bool := decide (modeCode m < modeCode s.clock.mode)

/-- Stage a mode for the next tick; a faster one waits for the higher voltages to be confirmed (R385, R386, R516) (DEDUCED, log entries 56 and 77). -/
def stageMode (s : State) (m : Mode) (gov : Bool) : State :=
  { s with clock := { s.clock with staged := some m, stagedByGov := gov, avsPending := s.faster m } }

/-- A staged mode change is applied after the tick, while the package is in tick wait; one whose voltages are not confirmed stays staged (R516, R517)
(DEDUCED, log entry 77). -/
def applyStaged (s : State) : State :=
  match s.clock.staged with
  | some m => if s.clock.avsPending then s else applyMode s m s.clock.stagedByGov
  | none => s

/-! ### Pauses, holds and the agreed tick (R41 to R44, R421) -/

/-- Whether the device is paused: `HELD` with `STOPPED` clear. -/
def State.paused (s : State) : Bool := s.dev == .held && !s.frame.stopped

/-- The frame that holds concern: the current one, or, in a pause, the one that ended with it (DEDUCED, log entry 37). -/
def State.holdFrame (s : State) : Nat := if s.paused then s.frameIndex - 1 else s.frameIndex

/-- Whether a replay holds after frame `k`, its last (R370). -/
def State.replayPause (s : State) (k : Nat) : Bool := s.inv.replay.isSome && s.inv.lastFrame == k

/-- Whether a pause after the current frame is requested (R421). -/
def State.pausing (s : State) : Bool :=
  s.frame.pauseAt == some s.frameIndex || s.frame.runTo == some s.frameIndex || s.replayPause s.frameIndex

/-- The holds received for the frame. -/
def State.holdsNow (s : State) : List HoldRec := s.frame.holds.filter (fun h => h.frame == s.holdFrame)

/-- The hold horizon (R41). -/
def State.horizon (s : State) : Nat := s.frame.nextTick - 1024 * s.fabric.holdLead

/-- The tick that this device's completion proposes (R43) (DEDUCED, log entry 37). -/
def State.proposal (s : State) : Option Nat :=
  s.frame.completedAt.map fun t => roundUp (Nat.max t s.frame.nextTick) 1024 + 1024 * s.fabric.holdLead

/-- The largest proposed tick of a list of holds, none where a ready note is missing. -/
def latestReady : List HoldRec → Nat → Option Nat
  | [], t => some t
  | h :: rest, t => match h.ready with
    | some r => latestReady rest (Nat.max t r)
    | none => none

/-- The agreed tick of the frame (R43), or none while it is unresolved (DEDUCED, log entry 37).
- In a pause it is the largest proposal of this device's `RESUME` and of every paused holder (R421, R502).
- For a frame after which this device pauses it is the tick of R43 without the pauses: other devices' pause holds are left out.
- Otherwise it is the undeferred tick where there is no hold, and the largest proposal where there is one. -/
def State.agreedTick (s : State) : Option Nat :=
  if s.paused then s.frame.ownReady.bind (latestReady s.holdsNow)
  else if s.pausing then
    match s.frame.completedAt, s.proposal with
    | some t, some own =>
      let others := s.holdsNow.filter (fun h => !h.pause)
      if others.isEmpty ∧ t ≤ s.frame.nextTick then some s.frame.nextTick else latestReady others own
    | _, _ => none
  else if s.frame.holdOut then s.frame.ownReady.bind (latestReady s.holdsNow)
  else if s.holdsNow.isEmpty then some s.frame.nextTick
  else latestReady s.holdsNow 0

/-- The last ready note came after the agreed tick had passed (R43): no tick, and a stop with 0x0204. -/
def checkLate (s : State) : State :=
  if !s.inFrame && !s.paused then s
  else if s.holdsNow.isEmpty && !s.frame.holdOut then s
  else match s.agreedTick with
    | some t => if t < s.now then stopNow s 0x0204 else s
    | none => s

/-- Send the ready note of a hold sent by this device, once its frame has completed (R43). -/
def sendReady (s : State) : State :=
  match s.proposal with
  | some t =>
    if !s.frame.holdOut || s.frame.pauseSent || s.frame.ownReady.isSome then s
    else checkLate (sendNote { s with frame := { s.frame with ownReady := some t } } 0x11 none (leBytes 8 s.frameIndex ++ leBytes 8 t))
  | none => s

/-- The payload of a hold note (R244). -/
def holdPayload (k cause : Nat) (pause : Bool) : List Byte := leBytes 8 k ++ leBytes 1 cause ++ leBytes 1 (b2n pause)

/-- Send a hold note for the current frame (R42): at most one, but for a second one with the pause bit (DEDUCED, log entry 37). -/
def sendHold (s : State) (cause : Nat) (pause : Bool) : State :=
  if !s.inFrame then s else
  let k := s.frameIndex
  let ev := fun (m : State) => boxEvent m 2 (leBytes 8 k ++ leBytes 1 cause ++ leBytes 1 (b2n (cause == 5)))
  let count := fun (m : State) => { m with fabric :=
    (if cause = 5 then { m.fabric with holdsJoined := m.fabric.holdsJoined + 1 } else { m.fabric with holdsSent := m.fabric.holdsSent + 1 }) }
  if s.frame.holdOut then
    if pause && !s.frame.pauseSent then
      ev (count (sendNote { s with frame := { s.frame with pauseSent := true } } 0x10 none (holdPayload k cause true)))
    else s
  else
    let s1 := { s with frame := { s.frame with holdOut := true, pauseSent := pause } }
    sendReady (ev (count (sendNote s1 0x10 none (holdPayload k cause pause))))

/-- A hold of another device acts on the current frame: a device that has not executed cycle *E* − 1 joins it (R42) (DEDUCED, log entry 37). -/
def joinHold (s : State) : State :=
  if s.inFrame && s.frame.completedAt.isNone && !s.holdsNow.isEmpty then sendHold s 5 false else s

/-! ### The replayed inputs of a tick (R368, R369) -/

/-- The records of the replay stream of a kind for frame `k`. -/
def State.replayRecs (s : State) (kind k : Nat) : List InvRec :=
  match s.inv.replay with
  | some rs => rs.filter (fun r => r.kind == kind && r.frame == k)
  | none => []

/-- Whether an applied record can be applied: 0x0A32 for a malformed one or a missing content, 0x0A31 for a wrong digest (R369). Kind 0xFF
stands for the place where the stream ceased to be well formed. -/
def replayFault (r : InvRec) : Option Nat :=
  if r.kind = 0xFF ∨ r.flags % 2 = 0 then some 0x0A32
  else if hashH r.content ≠ slice r.digest 0 64 then some 0x0A31
  else none

/-- The entries of a `HATCH_WRITES` content (R349). -/
def hatchEntries : Nat → List Byte → List (Nat × List Byte)
  | 0, _ => []
  | fuel + 1, bs =>
    if bs.length < 8 then [] else
    let n := le bs 4 4
    (le bs 0 4, slice bs 8 n) :: hatchEntries fuel (bs.drop (8 + roundUp n 8))

/-- The content of a `HATCH_WRITES` record (R349). -/
def hatchContent (es : List (Nat × List Byte)) : List Byte :=
  es.flatMap fun e => leBytes 4 e.1 ++ leBytes 4 e.2.length ++ padTo 8 e.2

/-- The requests of a request ring as written (R341). -/
def ringRequests : Nat → List Byte → List (List Byte)
  | 0, _ => []
  | fuel + 1, bs =>
    if bs.length < 8 then [] else
    let n := 8 + le bs 2 2
    slice bs 0 n :: ringRequests fuel (bs.drop (roundUp n 32))

/-! ### The begin of a frame (R38, R177, R210, R341, R356) -/

/-- Apply the host journal before cycle 0 of frame `k`, with its inventory record (R177, R349); withheld writes then enter the journal (DEDUCED, log
entry 47). -/
def applyJournal (s : State) (k : Nat) (es : List (Nat × List Byte)) (replayed : Bool) : State :=
  if es.isEmpty then s else
  let s1 := es.foldl (fun m e => hubWrite m e.1 e.2) s
  recordOrStop s1 3 k 0 es.length (hatchContent es) replayed

/-- Writes that waited for room enter the journal in order, as far as its 1 MiB go (R177). -/
def admitWithheld : Nat → State → State
  | 0, s => s
  | n + 1, s =>
    match s.hatch.withheld with
    | [] => s
    | (o, bs) :: rest =>
      if 1048576 < s.hatch.journalBytes + bs.length then s
      else admitWithheld n { s with hatch := { s.hatch with withheld := rest, journal := s.hatch.journal ++ [(o, bs)],
                                                             journalBytes := s.hatch.journalBytes + bs.length } }

/-- The inputs of frame `k`: in a replay those of its records, otherwise the journal and the requests of the hub, unless the buffer holds more than 12
MiB (R356) (DEDUCED, log entry 47). -/
def applyInputs (s : State) (k : Nat) : State :=
  if s.inv.replay.isSome then
    let rs := s.replayRecs 3 k ++ s.replayRecs 4 k ++ s.replayRecs 0xFF k
    match rs.findSome? replayFault with
    | some r => stopNow s r
    | none =>
      let s1 := (s.replayRecs 3 k).foldl (fun m r => applyJournal m k (hatchEntries r.content.length r.content) true) s
      let reqs := (s.replayRecs 4 k).flatMap (fun r => ringRequests r.content.length r.content)
      applyIngest { s1 with hatch := { s1.hatch with requests := reqs } } k true
  else if 12582912 < s.inv.bufBytes then
    { s with inv := { s.inv with throttles := s.inv.throttles + 1 } }
  else
    let es := s.hatch.journal
    let s0 := { s with hatch := { s.hatch with journal := [], journalBytes := 0 } }
    let s1 := applyJournal s0 k es false
    let s2 := if s1.inRun && !s1.roomFor (s1.recordSet 4 k 0 0 (s1.hatch.requests.flatMap (padTo 32)) false false) then stopNow s1 0x0A30
      else applyIngest s1 k false
    admitWithheld s2.hatch.withheld.length s2

/-- Frame `k` begins at tick `t` (R38): a staged mode, a planned flip, the inputs, the holds kept for it, and the pause hold. The package stays in
tick wait until cycle 0 (DEDUCED, log entry 81). -/
def beginFrame (s : State) (k t : Nat) : State :=
  let s0 := applyStaged s
  let s1 := { s0 with
    frame := { s0.frame with
      e := (match s0.mgmt.loadedImage with | some i => i.e | none => s0.frame.e), tick := t, nextTick := t + 1024 * s0.fabric.frameRounds,
      tickWait := true, waitStart := false, completedAt := none, holdOut := false, ownReady := none, pauseSent := false,
      holds := s0.frame.holds.filter (fun h => decide (k ≤ h.frame)), horizonDone := false, tickTaken := true },
    fabric := { s0.fabric with frameFrozen := 0, curCycle := 0, ticksSinceFlip := s0.fabric.ticksSinceFlip + 1,
                               writable := s0.fabric.writable || decide (1 ≤ s0.fabric.ticksSinceFlip) },
    freeze := {},
    clock := { s0.clock with lastStretch := spMap 0 (· - s.frame.e) s0.clock.lastStretch, stretchDue := spMap 0 (· - s.frame.e) s0.clock.stretchDue,
                             lastMargin := s0.clock.minMargin, minMargin := [], lastWarned := s0.clock.warned, warned := [] } }
  let s2 := startWrite (plannedFlip s1 k) k
  let s3 := applyInputs s2 k
  let s4 := joinHold s3
  if s4.inFrame && s4.pausing then sendHold s4 4 true else s4

/-! ### The steps of a tick (R39, R362, R368) -/

/-- The comparison of a replayed `SEAL` with the device's own chains and digest (R368, R369). -/
def compareSeal (s : State) (k : Nat) (q : List Byte) : State :=
  match s.replayRecs 0x40 k with
  | [] => s
  | r :: _ =>
    if slice r.content 24 192 = headOf s.inv.frameHead ++ headOf s.inv.outputHead ++ q then s
    else raiseAlarm { s with inv := { s.inv with sealMismatch := s.inv.sealMismatch + 1 } } 0x0A33 0 (leBytes 8 k)

/-- Steps 1 to 3 of R39 for frame *k* at tick `t`: the outputs are released, the tokens checked, the chains extended and the frame sealed;
`FRAME_INDEX` becomes *k* + 1. A `SEAL` without room in the buffer stops the run before anything is released (R356). -/
def sealTick (s : State) (t : Nat) : State :=
  let k := s.frameIndex
  if s.bufFree < 576 then stopNow s 0x0A30 else
  let s1 := checkTokens (releaseOutputs s) k
  let q := s1.outDigest
  let s2 := compareSeal (sealFrame (clearDirty s1) k t true q) k q
  { s2 with
    fabric := { s2.fabric with frameIndex := s2.fabric.frameIndex + 1 },
    frame := { s2.frame with lastClean := some k, framesRun := s2.frame.framesRun + 1 } }

/-- A tick that is not the undeferred one (R50, R479). -/
def countDeferral (s : State) (k t : Nat) : State :=
  if t ≤ s.frame.nextTick then s else
  let r := (t - s.frame.nextTick) / 1024
  boxEvent { s with fabric := { s.fabric with framesDeferred := s.fabric.framesDeferred + 1,
                                              deferRounds := s.fabric.deferRounds + BitVec.ofNat 32 r } }
    3 (leBytes 8 k ++ leBytes 4 r)

/-- The job's last frame ended (R39 step 4, R421): certificate, `LOADED`, `START` answered `OK`, and pauses that were not reached
`ALREADY_COMPLETE`. -/
def completeRun (s : State) (k : Nat) : State :=
  let s1 := setDev (closeRun { s with frame := { s.frame with waitStart := true } } 0) .loaded
  let s2 := finishCommand s1 0x30 stOk 0 (resFrame (some k))
  finishCommand (finishCommand s2 0x31 stComplete 0 (resFrame (some k))) 0x34 stComplete 0 (resFrame (some k))

/-- The device pauses after frame *k* (R421, R502): `HELD`; the pause holds of other devices stay until their ready notes. -/
def enterPause (s : State) (k : Nat) : State :=
  let f := s.frame
  let s1 := setDev { s with frame := { f with
    pausedFrom := s.dev, holds := f.holds.filter (fun h => h.pause && decide (k ≤ h.frame)), ownReady := none,
    pauseAt := if f.pauseAt = some k then none else f.pauseAt, runTo := if f.runTo = some k then none else f.runTo } } .held
  let s2 := if f.pauseAt = some k then finishCommand s1 0x31 stOk 0 (resFrame (some k)) else s1
  if f.runTo = some k then finishCommand s2 0x34 stOk 0 (resFrame (some k)) else s2

/-- The number of frames of the job (R281). -/
def State.nframes (s : State) : Nat := match s.mgmt.loadedImage with | some i => i.nframes | none => 0

/-- The tick `t` of the current frame is taken (R38, R39 steps 1 to 4). -/
def takeTick (s : State) (t : Nat) : State :=
  let k := s.frameIndex
  let s1 := sealTick (countDeferral (s.advanceTo t) k t) t
  if !s1.inRun then s1
  else
    let s2 := { s1 with inv := { s1.inv with utcEnd := s1.utcNow } }
    if s2.nframes ≠ 0 ∧ s2.nframes ≤ k + 1 then completeRun s2 k
    else if s2.frame.pauseAt = some k ∨ s2.frame.runTo = some k ∨ s2.replayPause k then enterPause s2 k
    else beginFrame s2 (k + 1) t

/-- `ABORT` reaches the tick that ends its frame (R422): no tick, certificate of kind 2, `LOADED`. -/
def abortTick (s : State) : State :=
  let j := s.frameIndex
  let last := s.frame.lastClean
  let s1 := setDev (closeRun s 2) .loaded
  let s2 := finishCommand s1 0x30 stFaulted 0x0A10 (resFrame last)
  let s3 := finishCommand s2 0x33 stOk 0 (resAt 24 (leBytes 8 (wrap 64 ((j : Int) - 1))))
  failRunControl s3 0x0A10 false

/-- The first tick of a run (R29, R374): UTC at its start, then the first frame. -/
def firstTick (s : State) : State :=
  let s1 := s.advanceTo s.frame.nextTick
  beginFrame { s1 with inv := { s1.inv with utcStart := s1.utcNow, utcEnd := s1.utcNow } } s1.frameIndex s1.frame.nextTick

/-- The tick that ends a pause (R421, R502). -/
def resumeTick (s : State) (t : Nat) : State :=
  let k := s.frameIndex
  let s1 := countDeferral (s.advanceTo t) (k - 1) t
  let s2 := beginFrame (setDev s1 s1.frame.pausedFrom) k t
  if s2.inRun then finishCommand s2 0x32 stOk 0 (resFrame (some k)) else s2

/-- What a frame tick does before the intake (R38 to R40, R43, R45, R46) (DEDUCED, log entry 81). -/
def tickBody (s : State) : State :=
  let f := s.frame
  let at_ := (s.agreedTick).getD f.nextTick
  if s.paused then (match s.agreedTick with | some t => if s.frame.ownReady.isSome then resumeTick s t else s | none => s)
  else if !s.inRun then s
  else if f.stopFor.isSome then
    (match f.stopFor with | some (r, _) => enterStopped (s.advanceTo at_) r | none => s)
  else if f.abortAt.isSome && !f.waitStart then abortTick (s.advanceTo at_)
  else if f.waitStart then firstTick s
  else if f.tickTaken then s
  else if f.completedAt.isNone then
    if f.holdOut then s else stopNow (s.advanceTo f.nextTick) 0x0204
  else match s.agreedTick with
    | some t => takeTick s t
    | none => s

end Sys2Proof.Machine
end

