-- ==== Sys2Proof/Machine/Line.lean ====
section
/-! DEFINITION. The round on the wire (R182, R186 to R188): the marker, the Reed-Solomon code RS(544,514) over GF(2^10) with its decoder, the
lane scrambler, the PAM4 levels, and the place of a container in the code words of its round. The order of symbols in a code word and of bits in
the scrambler's seed are those of log entry 89. -/

namespace Sys2Proof.Machine

/-! ### GF(2^10) and the code (R188) -/

/-- Multiplication by α, the root of x^10 + x^3 + 1. -/
def gfX (a : Nat) : Nat := if 512 ≤ a then (2 * a) ^^^ 0x409 else 2 * a

/-- The product of two elements, by `n` bits of the second. -/
def gfMulBits : Nat → Nat → Nat → Nat
  | 0, _, _ => 0
  | n + 1, a, b => (if b % 2 = 1 then a else 0) ^^^ gfMulBits n (gfX a) (b / 2)

/-- The product of two elements. -/
def gfMul (a b : Nat) : Nat := gfMulBits 10 a b

/-- `α^j`. -/
def gfExp : Nat → Nat
  | 0 => 1
  | j + 1 => gfX (gfExp j)

/-- The inverse of an element, its power 1,022. -/
def gfInv (a : Nat) : Nat :=
  ((List.range 9).foldl (fun (p : Nat × Nat) _ => let q := gfMul p.1 p.1; (q, gfMul p.2 q)) (a, 1)).2

/-- The high bits of 31 lanes of ten bits. -/
def gfHigh : Nat := (List.range 31).foldl (fun n i => n + 2 ^ (10 * i + 9)) 0

/-- Multiplication by α in every lane of ten bits of a packed number. -/
def gfScaleX (high v : Nat) : Nat := let h := v &&& high; ((v ^^^ h) <<< 1) ^^^ ((h >>> 9) * 9)

/-- Multiplication by `f` in every lane. -/
def gfScale (high : Nat) : Nat → Nat → Nat → Nat
  | 0, _, _ => 0
  | n + 1, f, v => (if f % 2 = 1 then v else 0) ^^^ gfScale high n (f / 2) (gfScaleX high v)

/-- The generator, with roots α^0 to α^29, its coefficient of x^i in lane `i`. -/
def rsGen : Nat :=
  (List.range 30).foldl (fun g i => (g <<< 10) ^^^ gfScale gfHigh 10 (gfExp i) g) 1

/-- The remainder of a polynomial by the generator; the first symbol is the coefficient of the highest power (DEDUCED, log entry 89). -/
def rsRem (w : List Nat) : Nat :=
  let low := rsGen % 2 ^ 300
  let high := gfHigh
  w.foldl (fun r x => (((r % 2 ^ 290) <<< 10) ^^^ x) ^^^ gfScale high 10 (r >>> 290) low) 0

/-- Lane `i` of a packed number. -/
def rsLane (v i : Nat) : Nat := v >>> (10 * i) % 1024

/-- The code word of 514 information symbols: they, then the 30 symbols of the remainder (R188) (DEDUCED, log entry 89). -/
def rsEncode (info : List Nat) : List Nat :=
  let r := rsRem (info ++ List.replicate 30 0)
  info ++ (List.range 30).map (fun i => rsLane r (29 - i))

/-- The value of a polynomial, its coefficients from x^0 on. -/
def gfEval (x : Nat) : List Nat → Nat
  | [] => 0
  | c :: t => c ^^^ gfMul x (gfEval x t)

/-- Sum of two polynomials, the second times `f`. -/
def gfAddScaled (f : Nat) : List Nat → List Nat → List Nat
  | a, [] => a
  | [], b :: t => gfMul f b :: gfAddScaled f [] t
  | a :: s, b :: t => (a ^^^ gfMul f b) :: gfAddScaled f s t

/-- The state of the search for the error locator. -/
structure LocatorSearch where
  loc : List Nat := [1]
  prev : List Nat := [1]
  len : Nat := 0
  shift : Nat := 1
  disc : Nat := 1
  deriving DecidableEq, Repr

/-- One step of the search, with syndrome `n`. -/
def locatorStep (syn : List Nat) (m : LocatorSearch) (n : Nat) : LocatorSearch :=
  let d := (List.range (m.len + 1)).foldl (fun a i => a ^^^ gfMul (m.loc.getD i 0) (syn.getD (n - i) 0)) 0
  if d = 0 then { m with shift := m.shift + 1 } else
  let next := gfAddScaled (gfMul d (gfInv m.disc)) m.loc (List.replicate m.shift 0 ++ m.prev)
  if 2 * m.len ≤ n then { loc := next, prev := m.loc, len := n + 1 - m.len, shift := 1, disc := d }
  else { m with loc := next, shift := m.shift + 1 }

/-- The magnitude of the error at the coefficient of x^i. -/
def errorValue (loc omega : List Nat) (i : Nat) : Nat :=
  let x := gfExp ((1023 - i) % 1023)
  let odd := (List.range loc.length).foldl (fun a j => if j % 2 = 1 then a ^^^ gfMul (loc.getD j 0) (gfEval x (List.replicate (j - 1) 0 ++ [1])) else a) 0
  gfMul (gfExp i) (gfMul (gfEval x omega) (gfInv odd))

/-- The decoder of one code word: the word corrected and the number of its corrected symbols, or none where it cannot be corrected (DEDUCED, log entry
89). -/
def rsDecode (w : List Nat) : Option (List Nat × Nat) :=
  if w.length ≠ 544 then none else
  let r := rsRem w
  if r = 0 then some (w, 0) else
  let rem := (List.range 30).map (rsLane r)
  let syn := (List.range 30).map (fun j => gfEval (gfExp j) rem)
  let m := (List.range 30).foldl (locatorStep syn) {}
  if 15 < m.len then none else
  let at_ := (List.range 544).filter (fun i => gfEval (gfExp ((1023 - i) % 1023)) m.loc = 0)
  if at_.length ≠ m.len then none else
  let omega := (List.range 30).map fun k => (List.range (k + 1)).foldl (fun a i => a ^^^ gfMul (m.loc.getD i 0) (syn.getD (k - i) 0)) 0
  let fixed := at_.foldl (fun v i => v.modify (543 - i) (fun x => x ^^^ errorValue m.loc omega i)) w
  if rsRem fixed = 0 then some (fixed, m.len) else none

/-! ### Bits and symbols -/

/-- The low `n` bits of a number, the most significant first. -/
def bitsMsb (n v : Nat) : List Bool := (List.range n).map (fun i => bit v (n - 1 - i))

/-- The number of bits given most significant first. -/
def ofBitsMsb (l : List Bool) : Nat := l.foldl (fun n b => 2 * n + b2n b) 0

/-- The bits of bytes, each with its most significant bit first (R188). -/
def byteBits (bs : List Byte) : List Bool := bs.flatMap (fun b => bitsMsb 8 b.toNat)

/-- Bits cut into symbols of ten. -/
def symbolsOf : Nat → List Bool → List Nat
  | 0, _ => []
  | n + 1, l => ofBitsMsb (l.take 10) :: symbolsOf n (l.drop 10)

/-- Bytes from symbols: `n` bytes of their bits. -/
def bytesOfBits : Nat → List Bool → List Byte
  | 0, _ => []
  | n + 1, l => BitVec.ofNat 8 (ofBitsMsb (l.take 8)) :: bytesOfBits n (l.drop 8)

/-! ### Containers in code words (R188) -/

/-- Symbols of a container. -/
def containerSymbols : Nat := 224

/-- The first and the last code word of a round that hold a byte of the container of a slot. -/
def firstWord (slot : Nat) : Nat := 224 * slot / 514
def lastCodeWord (slot : Nat) : Nat := (224 * slot + 223) / 514

/-- What a receiver makes of the code words of a container: its bytes, whether every word was correct or corrected, and the symbols corrected and
the words given up, each word counted with the first container that has a byte in it (R188, R211; log entry 89). -/
structure LineContainer where
  bytes : List Byte
  ok : Bool
  corrected : Nat
  failed : Nat
  deriving DecidableEq, Repr

/-- Whether the words are those of a slot. -/
def wordsFit (slot : Nat) (ws : List (List (BitVec 10))) : Bool :=
  ws.length == lastCodeWord slot + 1 - firstWord slot && ws.all (fun w => w.length == 544)

/-- The container of a slot as received in its code words (DEDUCED, log entry 89). -/
def lineContainer (slot : Nat) (ws : List (List (BitVec 10))) : LineContainer :=
  let f := firstWord slot
  let raw := ws.map (fun w => w.map BitVec.toNat)
  let dec := raw.map rsDecode
  let counted := (List.range ws.length).filter (fun i => decide (224 * slot ≤ 514 * (f + i)))
  let symbols := ((raw.zip dec).map fun x => match x.2 with | some (v, _) => v.take 514 | none => x.1.take 514).flatten
  let own := (symbols.drop (224 * slot - 514 * f)).take 224
  { bytes := bytesOfBits 280 (own.flatMap (bitsMsb 10)), ok := dec.all Option.isSome,
    corrected := (counted.map fun i => match dec.getD i none with | some (_, n) => n | none => 0).sum,
    failed := (counted.filter fun i => (dec.getD i none).isNone).length }

/-- The code words of a round of `n` containers: the containers in slot order, then fill bits of zero (R188). -/
def roundWords (n : Nat) (containers : List (List Byte)) : List (List Nat) :=
  let symbols := symbolsOf (514 * n) (byteBits containers.flatten ++ List.replicate 8300 false)
  (List.range n).map fun i => rsEncode ((symbols.drop (514 * i)).take 514)

/-! ### Lanes (R182, R186 to R188) -/

/-- The 27 bytes of a lane's round marker (R187); `width` is 1 for eight lanes and 2 for sixteen. -/
def markerBytes (port lane width round : Nat) : List Byte :=
  let body := beBytes 2 (0x1000 + lane % 16 * 256 + width % 16 * 16) ++ beBytes 4 round ++ beBytes 1 port ++ zeros 8
  beBytes 8 0x5A3C96F00F69C3A5 ++ body ++ beBytes 4 (crc32c body)

/-- The seed of a lane's scrambler at a marker, the first bit first (R188) (DEDUCED, log entry 89). -/
def scrambleSeed (lane round : Nat) : List Bool := bitsMsb 4 lane ++ bitsMsb 32 round ++ List.replicate 22 true

/-- Additive scrambling by x^58 + x^39 + 1: each bit of the sequence is the sum of those 58 and 39 before it. The register holds the last 58 bits, the
oldest at bit 57 (DEDUCED, log entry 89). -/
def scrambleFrom : Nat → List Bool → List Bool
  | _, [] => []
  | r, b :: t =>
    let x := xor (bit r 57) (bit r 38)
    xor b x :: scrambleFrom ((2 * r + b2n x) % 2 ^ 58) t

/-- Scramble, or descramble, the bits of a lane behind its marker. -/
def scramble (lane round : Nat) (l : List Bool) : List Bool := scrambleFrom (ofBitsMsb (scrambleSeed lane round)) l

/-- The bits of lane `i` of `w` lanes: symbol `j` of the encoded sequence goes to lane `j` mod `w` (R188). -/
def laneSymbols (w i : Nat) (words : List (List Nat)) : List Nat :=
  (words.flatten.zipIdx.filter (fun x => x.2 % w == i)).map (·.1)

/-- What a lane carries in a round up to its pad: the marker, then its scrambled code-word bits. `first` is the port's lowest lane in use (DEDUCED,
log entry 89). -/
def laneBits (port first w i round : Nat) (words : List (List Nat)) : List Bool :=
  byteBits (markerBytes port (first + i) (if w = 16 then 2 else 1) round) ++
    scramble (first + i) round ((laneSymbols w i words).flatMap (bitsMsb 10))

/-- The PAM4 levels of bits, and with precoding their differences modulo 4 from 0 on (R182). -/
def pamLevels : List Bool → List Nat
  | a :: b :: t => (match a, b with | false, false => 0 | false, true => 1 | true, true => 2 | true, false => 3) :: pamLevels t
  | _ => []

/-- Precoding of levels: each level sent is the level due minus the one sent before, modulo 4 (R182). -/
def precodeFrom : Nat → List Nat → List Nat
  | _, [] => []
  | y, x :: t => let z := (x + 4 - y) % 4; z :: precodeFrom z t

/-- The levels of a lane in a round (R182). -/
def laneLevels (precode : Bool) (l : List Bool) : List Nat :=
  if precode then precodeFrom 0 (pamLevels l) else pamLevels l

end Sys2Proof.Machine
end

