-- ==== Sys2Proof/Machine/TimeOps.lean ====
section
/-! DEFINITION. Machine time and local time (R389 to R400): states, measurements and corrections, jumps, holdover, the error bound and UTC.
Offsets pending are kept in 2^-32 ns, rates in 2^-40, measurements in 1/65,536 ns. -/

namespace Sys2Proof.Machine

open Sys2Proof

/-- The code of a time state (R401). -/
def timeCode : TimeState → Nat
  | .free => 0 | .acquire => 1 | .locked => 2 | .holdover => 3

/-- Machine time enters a state, with its event (R479). -/
def setMtState (s : State) (st : TimeState) : State :=
  if s.time.mtState = st then s else
  boxEvent { s with time := { s.time with mtState := st } } 8 (leBytes 1 0 ++ leBytes 1 (timeCode s.time.mtState) ++ leBytes 1 (timeCode st))

/-- Local time enters a state, with its event. -/
def setLtState (s : State) (st : TimeState) : State :=
  if s.time.ltState = st then s else
  boxEvent { s with time := { s.time with ltState := st } } 8 (leBytes 1 1 ++ leBytes 1 (timeCode s.time.ltState) ++ leBytes 1 (timeCode st))

/-- Machine time is stepped by an amount in 1/65,536 ns (R390). -/
def stepMt (s : State) (d : Int) : State :=
  let v : Int := ((s.time.mtNs.toNat * 2 ^ 32 + s.time.mtFrac.toNat : Nat) : Int) + d * 65536
  let n := v.toNat
  { s with time := { s.time with mtNs := BitVec.ofNat 64 (n / 2 ^ 32), mtFrac := BitVec.ofNat 32 n } }

/-- The largest |θ| that is not a jump, in 1/65,536 ns (R395). -/
def State.jumpLimit (s : State) : Nat := s.time.jumpNs * 65536

/-- The bound of a change of a rate by one measurement, 10^-6 in 2^-40 (R394). -/
def rateStep : Int := 1099511

/-- The bound of a rate, 100 × 10^-6 in 2^-40 (R394). -/
def rateMax : Int := 109951162

/-- A rate after a measurement (R394). The estimate from the last 16 measurements is not given: it is a free value within the stated bounds
(DESIGN CHOICE, log entry 1). -/
def State.nextRate (s : State) (r : Int) : Int :=
  let d : Int := ((Config.freeNat s.freeCtr % (2 * rateStep.toNat + 1) : Nat) : Int) - rateStep
  Max.max (-rateMax) (Min.min rateMax (r + d))

/-- The error bound now (R396): in holdover it grows by 1 ns per ms. -/
def State.errNow (s : State) : Nat :=
  if s.time.mtState = .holdover then s.time.holdoverErr + (s.now - s.time.holdoverAt) / 1000000 else s.time.errBound

/-- The depth that this device reports (R391). -/
def State.reportedDepth (s : State) : Nat :=
  if s.time.root then 0 else if s.time.mtState = .locked then s.time.depth else 0xFF

/-- A time layer in holdover during a run is kept for the certificate (R374, R397). -/
def markHoldover (s : State) : State := if s.runOn then { s with inv := { s.inv with wasHoldover := true } } else s

/-- Machine time enters `HOLDOVER` from `LOCKED` (R395). -/
def mtHoldover (s : State) : State :=
  if s.time.mtState != .locked then s else
  let s1 := setMtState s .holdover
  markHoldover { s1 with time := { s1.time with holdovers := s1.time.holdovers + 1, holdoverAt := s.now, holdoverErr := s.time.errBound, goodRun := 0 } }

/-- Machine time loses its parent (R395): `HOLDOVER` with alarm 0x0B02. -/
def mtLost (s : State) : State := if s.time.mtState = .locked then raiseAlarm (mtHoldover s) 0x0B02 0 else s

/-- A correction of machine time by a measurement in `LOCKED` (R394, R396). -/
def mtCorrect (s : State) (theta : Int) : State :=
  let t := s.time
  let ths := t.thetas ++ [(s.now, theta)]
  { State.useFree s 1 with time := { t with
      pendingOff := t.pendingOff - theta * 65536, rho := if t.sameRef then 0 else s.nextRate t.rho, thetas := ths.drop (ths.length - 16),
      errBound := if t.root then 0 else t.parentErrb + 1 + ceilDiv theta.natAbs 65536 } }

/-- A measured offset of machine time (R390, R393 to R396) (DESIGN CHOICE, log entry 93). -/
def mtOffset (s : State) (theta : Int) : State :=
  let s0 := { s with time := { s.time with lastTheta := theta } }
  let small := decide (theta.natAbs ≤ s.jumpLimit)
  let refuse := fun (m : State) => raiseAlarm { m with time := { m.time with jumpsRefused := m.time.jumpsRefused + 1 } } 0x0B01 0
  match s.time.mtState with
  | .free => s0
  | .acquire =>
    let s1 := setMtState (stepMt s0 (-theta)) .locked
    { s1 with time := { s1.time with pendingOff := 0, thetas := [], errBound := s1.time.parentErrb + 1 + ceilDiv theta.natAbs 65536 } }
  | .locked => if small then mtCorrect s0 theta else refuse (mtHoldover s0)
  | .holdover =>
    if !small then refuse { s0 with time := { s0.time with goodRun := 0 } }
    else if s0.time.goodRun + 1 < 4 then { s0 with time := { s0.time with goodRun := s0.time.goodRun + 1 } }
    else mtCorrect (setMtState { s0 with time := { s0.time with goodRun := 0 } } .locked) theta

/-- A measurement of the parent; `SYNC_RX` counts the notes used (R393). -/
def mtMeasure (s : State) (theta : Int) : State := mtOffset { s with time := { s.time with syncRx := s.time.syncRx + 1 } } theta

/-- A time root that steers to UTC measures its machine time against local time, and corrects it under the same rules (R394). The spec does not say
when it measures: here after each correction of local time by its source (DESIGN CHOICE, log entry 93). -/
def steerRoot (s : State) : State :=
  if !(s.time.root && s.time.utcSteer && s.ltValid) then s else
  mtOffset s ((((s.time.mtNs.toNat : Int) - s.localTime) * 65536) + (s.time.mtFrac.toNat / 65536 : Nat))

/-- Machine time in `ACQUIRE`; a time root enters `LOCKED` directly, after a step to local time where it steers to it (R390). -/
def acquireMt (s : State) : State :=
  let s1 := setMtState s .acquire
  if !s1.time.root then s1 else
  let s2 := if s1.time.utcSteer && s1.ltValid then
      { s1 with time := { s1.time with mtNs := BitVec.ofNat 64 s1.localTime.toNat, mtFrac := 0 } } else s1
  let s3 := setMtState s2 .locked
  { s3 with time := { s3.time with depth := 0, errBound := 0 } }

/-! ### Local time (R394, R395, R397 to R400) -/

/-- A `TIME` record (R349, R400), of a run where one is on. -/
def timeRecord (s : State) (sub : Nat) (off : Int) (rate : Int) : State :=
  recordOrStop s 6 s.frameOrOnes sub 0
    (leBytes 1 sub ++ zeros 7 ++ leBytes 8 s.now ++ leBytes 8 (wrap 64 off) ++ leBytes 4 (wrap 32 rate) ++ zeros 4) false

/-- A rate of 2^-40 in parts per 10^12. -/
def ratePpt (r : Int) : Int := r * 1000000000000 / (2 ^ 40 : Nat)

/-- Local time is stepped by `-off` ns. -/
def stepLt (s : State) (off : Int) : State := { s with time := { s.time with ltOffset := s.time.ltOffset - off * (2 ^ 32 : Nat) } }

/-- Local time enters `HOLDOVER` from `LOCKED` (DEDUCED, log entry 51). -/
def ltHoldover (s : State) (alarm : Nat) : State :=
  if s.time.ltState != .locked then s else
  let s1 := setLtState s .holdover
  let s2 := markHoldover { s1 with time := { s1.time with holdovers := s1.time.holdovers + 1, ltGoodRun := 0 } }
  timeRecord (if alarm = 0 then s2 else raiseAlarm s2 alarm 0) 2 0 0

/-- A correction of local time by an offset in ns: it is slewed, and the rate follows within its bounds; a rate change starts at the current tick
(R389, R394) (DEDUCED, log entry 51). -/
def ltCorrect (s : State) (off : Int) : State :=
  let t := s.time
  let r := s.nextRate t.ltRate
  let gained := ((t.tick.toNat : Int) - t.ltBase.toNat) * t.ltRate / (2 ^ 40 : Nat)
  let s1 := { State.useFree s 1 with time := { t with
      ltPending := t.ltPending - off * (2 ^ 32 : Nat), ltRate := r, ltBase := t.tick, ltOffset := t.ltOffset + gained * (2 ^ 32 : Nat) } }
  timeRecord s1 0 (-off) (ratePpt (r - t.ltRate))

/-- A measured offset of local time from its source, in ns by which it leads (R394, R395, R397). -/
def ltOffsetMeasured (s : State) (off : Int) : State :=
  let small := decide (off.natAbs ≤ s.time.jumpNs)
  let refuse := fun (m : State) =>
    timeRecord (raiseAlarm { m with time := { m.time with jumpsRefused := m.time.jumpsRefused + 1 } } 0x0B01 0) 1 (-off) 0
  match s.time.ltState with
  | .free | .acquire => timeRecord (setLtState (stepLt { s with time := { s.time with ltPending := 0 } } off) .locked) 0 (-off) 0
  | .locked => if small then ltCorrect s off else refuse (ltHoldover s 0)
  | .holdover =>
    if !small then refuse { s with time := { s.time with ltGoodRun := 0 } }
    else if s.time.ltGoodRun + 1 < 4 then { s with time := { s.time with ltGoodRun := s.time.ltGoodRun + 1 } }
    else ltCorrect (timeRecord (setLtState { s with time := { s.time with ltGoodRun := 0 } } .locked) 3 0 0) off

/-- A measurement of local time against its source, which a steering root's machine time then follows (DEDUCED, log entry 51; DESIGN CHOICE, log entry
93). -/
def ltMeasure (s : State) (off : Int) : State := steerRoot (ltOffsetMeasured s off)

/-- Whether a timetable is loaded. -/
def State.ttLoaded (s : State) : Bool := s.mgmt.loadedImage.isSome

/-- The outcome of a UTC setting (R398): the state, and the reason where it is refused as a jump, which is counted and recorded (DEDUCED, log entry
94) (DESIGN CHOICE, log entry 93). -/
def applyUtc (s : State) (utc offset : Nat) : State × Nat :=
  let target : Int := (utc : Int) + (offset * 1000000000 : Nat)
  let off := s.localTime - target
  let named := fun (m : State) => ({ m with time := { m.time with utcOffset := offset, utcOffsetValid := true } } : State)
  if !s.ltValid || !s.ttLoaded then
    (steerRoot (timeRecord (setLtState (named (stepLt { s with time := { s.time with ltPending := 0 } } off)) .locked) 4 (-off) 0), 0)
  else if off.natAbs ≤ s.time.jumpNs then
    (steerRoot (timeRecord (named { s with time := { s.time with ltPending := s.time.ltPending - off * (2 ^ 32 : Nat) } }) 4 (-off) 0), 0)
  else (timeRecord { s with time := { s.time with jumpsRefused := s.time.jumpsRefused + 1 } } 1 (-off) 0, 0x0B01)

end Sys2Proof.Machine
end

