-- ==== Sys2Proof/Machine/PortOps.lean ====
section
/-! DEFINITION. Dexdin ports: slots and transmit entries (R27, R28, R221 to R224, R264), containers and retry (R189 to R196), note bundles
(R191, R215, R242), training and discovery (R197 to R207), down ports (R201, R202, R271), and landing (R227, R228). -/

namespace Sys2Proof.Machine

open Sys2Proof

/-! ### States and slots -/

/-- The code of a port state (R211). -/
def portCode : PortState → Nat
  | .off => 0 | .training => 1 | .discovery => 2 | .quiet => 3 | .up => 4 | .down => 5 | .disabled => 6

/-- A port enters a state, with its event (R479). -/
def setPortState (s : State) (p : Nat) (st : PortState) : State :=
  let old := (s.port p).state
  if old = st then s
  else boxEvent (s.modPort p fun q => { q with state := st }) 5 (leBytes 1 p ++ leBytes 1 (portCode old) ++ leBytes 1 (portCode st))

/-- Whether an ingest port is in Ethernet mode (R208). -/
def Port.ethernet (q : Port) : Bool := q.pmode == 1 || q.pmode == 2

/-- Whether a port exchanges rounds: trained, in Dexdin mode (R206, R208). -/
def Port.talks (q : Port) : Bool := (q.state == .discovery || q.state == .quiet || q.state == .up) && !q.ethernet

/-- Whether retry is in effect (R195). -/
def Port.retryOn (q : Port) : Bool := q.retryEn && decide (q.flightDecl ≤ 500)

/-- Slots in a round (R27, R198). -/
def Port.slots (q : Port) : Nat := if q.width = 2 then 1536 else 768

/-- The time of slot `n` within its round, in 1/65,536 ns (R27). -/
def Port.slotTime (q : Port) (n : Nat) : Nat := if q.width = 2 then n * 131072 / 3 else n * 262144 / 3

/-- Data slots before slot `n` of a round (R28). -/
def dataIndex (n : Nat) : Nat := n - n / 32 - 1

/-- Whether a run of an entry covers a data slot (R221). -/
def TEntry.runCovers (e : TEntry) (slot : Nat) : Bool := decide (e.slot ≤ slot) && decide (dataIndex slot < dataIndex e.slot + e.run)

/-- The round of the frame that a slot round is, while frames run (R221). -/
def State.frameRound (s : State) : Option Nat := if s.inFrame then some ((s.round * 1024 - s.frame.tick) / 1024) else none

/-- The active entry of a port that covers a data slot (R221, R264): a job entry in its rounds of the frame, a transit entry in every round. -/
def State.slotEntry (s : State) (p slot : Nat) : Option TEntry :=
  let v := s.activeVersion
  match v.ttx.find? (fun e => e.port == p && e.runCovers slot) with
  | some e => some e
  | none => match s.frameRound with
    | some r => v.tx.find? (fun e => e.port == p && decide (e.round ≤ r) && decide (r ≤ e.round + e.rounds) && e.runCovers slot)
    | none => none

/-- Whether a flow of a port has a covered slot later in the frame (R224). -/
def State.laterSlot (s : State) (p flow slot : Nat) : Bool :=
  match s.frameRound with
  | none => false
  | some r => s.activeVersion.tx.any fun e => e.port == p && e.flow == flow &&
      (decide (r < e.round + e.rounds) || (e.round + e.rounds == r &&
        (decide (slot < e.slot) || decide (dataIndex slot + 1 < dataIndex e.slot + e.run))))

/-- Whether a copy of a port's store is a straggler at a slot (R224, R264). -/
def State.isStraggler (s : State) (p slot : Nat) (c : Copy) : Bool :=
  c.straggler || (!(s.activeVersion.ttx.any (fun e => e.port == p && e.flow == c.hdr.flow)) &&
    !(c.hdr.epoch == s.fabric.active && c.hdr.framelo == s.frameIndex % 4096 && s.laterSlot p c.hdr.flow slot))

/-- The element of a list with the smallest key, the first of equals. -/
def leastBy {α : Type} (key : α → Nat) : List α → Option α
  | [] => none
  | x :: t => match leastBy key t with
    | some y => if key y < key x then some y else some x
    | none => some x

/-- The copy that a covered data slot sends (R223, R264): of a transit entry the first that entered the store, of a job entry the lowest
`SEQ` of the current frame under the active version. -/
def State.slotCopy (s : State) (p : Nat) (e : TEntry) : Option Copy :=
  let own := (s.port p).departure.filter fun c => c.hdr.flow == e.flow && !c.straggler
  if e.transit then leastBy (·.order) own
  else leastBy (fun c => c.hdr.seq) (own.filter fun c => c.hdr.framelo == s.frameIndex % 4096 && c.hdr.epoch == s.fabric.active)

/-- The straggler that a service slot sends: the oldest frame first, then the lowest `SEQ` (R224). -/
def State.slotStraggler (s : State) (p slot : Nat) : Option Copy :=
  leastBy (fun c => s.nearFrame c.hdr.framelo * 65536 + c.hdr.seq) ((s.port p).departure.filter (s.isStraggler p slot))

/-! ### Sending (R189 to R196) -/

/-- The slot word (R190) (DEDUCED, log entry 50). -/
def slotWord (cont : Nat) (nak : Option (Nat × Nat)) : List Byte :=
  let v := 1 * 2 ^ 22 + cont * 2 ^ 20 + (match nak with | some (r, n) => 2 ^ 19 + n % 2048 * 2 ^ 8 + r % 256 | none => 0)
  beBytes 3 v ++ leBytes 1 (crc8 (beBytes 3 v))

/-- The 280 bytes of a container (R189) (DEDUCED, log entry 50). -/
def TxContainer.bytes (c : TxContainer) : List Byte :=
  let body := hdrBytes c.hdr ++ slice c.payload 0 256
  slotWord c.cont c.nak ++ (if c.cont = 0 then zeros 276 else body ++ leBytes 4 (crc32c body))

/-- The NAK that the next container carries: each is sent in two containers, the oldest first (R193). -/
def takeNak (s : State) (p : Nat) : State × Option (Nat × Nat) :=
  match (s.port p).naks with
  | [] => (s, none)
  | n :: t =>
    (s.modPort p fun q => { q with naks := if n.left ≤ 1 then t else { n with left := n.left - 1 } :: t }, some (n.round, n.slot))

/-- A port sends a container in a slot: the NAK in its slot word, and its retry record, of which the last 2,048 are kept (R193, R194). -/
def sendContainer (s : State) (p slot cont : Nat) (h : Hdr) (payload : List Byte) : State :=
  let (s1, nak) := takeNak s p
  let c : TxContainer := { round := s.round, slot, cont, nak, hdr := h, payload }
  let rec_ : RetryRec := { round := s.round, slot, cont, hdr := h, payload }
  s1.modPort p fun q =>
    let l := q.retry ++ [rec_]
    { q with sentTx := q.sentTx.filter (fun x => x.round == s.round) ++ [c], retry := l.drop (l.length - 2048) }

/-- What a lane of a port sends in a round, up to its pad: the containers sent, empty ones in the slots that sent none (R182, R186 to R188). -/
def State.laneRound (s : State) (p i round : Nat) : List Nat :=
  let q := s.port p
  let container := fun n => match q.sentTx.find? (fun x => x.round == round && x.slot == n) with
    | some x => x.bytes
    | none => TxContainer.bytes { round, slot := n, cont := 0 }
  let words := roundWords (if q.width = 2 then 671 else 335) ((List.range q.slots).map container)
  laneLevels q.precode (laneBits p (if q.halfHi then 8 else 0) (if q.width = 2 then 16 else 8) i round words)

/-- Time passes to a slot of the current round. -/
def atSlot (s : State) (p slot : Nat) : State := s.advanceTo (s.round * 1024 + (s.port p).slotTime slot / 65536)

/-- Remove a copy from a departure store. -/
def removeCopy (s : State) (p : Nat) (c : Copy) : State :=
  s.modPort p fun q => { q with departure := q.departure.filter (fun d => d.order != c.order) }

/-- A data slot of an `UP` port (R223). -/
def dataSlot (s : State) (p slot : Nat) : State :=
  let q := s.port p
  if q.state != .up || q.ethernet || slot % 32 == 0 || decide (q.slots ≤ slot) then s else
  let s1 := atSlot s p slot
  match s1.slotEntry p slot with
  | none => sendContainer s1 p slot 0 {} []
  | some e => match s1.slotCopy p e with
    | none => (sendContainer s1 p slot 0 {} []).modPort p fun q => { q with slotEmpty := q.slotEmpty + 1 }
    | some c =>
      let s2 := sampleHdr (removeCopy s1 p c) p true (s1.round * 1024 + q.slotTime slot / 65536) slot false false false c.hdr
      sendContainer s2 p slot 1 c.hdr c.payload

/-- The header of a note bundle (R215, R239, R240). -/
def State.bundleHdr (s : State) (p : Nat) : Hdr :=
  { cls := 1, slice := s.fabric.slice, framelo := s.frameIndex % 4096, xoff := s.xoff, credit := (s.port p).noteLeft.toNat }

/-- The 32 bytes of a link-local note (R191). -/
def LNote.bytes (n : LNote) : List Byte :=
  beBytes 4 (2 ^ 28 + n.ntype * 2 ^ 22 + 2 ^ 21 + n.index % 2 ^ 18) ++ slice n.body 0 28

/-- A `SYNC` note gets its transmit time on the fly (R391). -/
def stampSync (t : Nat) (n : LNote) : LNote :=
  if n.ntype = 6 then { n with body := leBytes 8 (t / 65536) ++ leBytes 2 (t % 65536) ++ n.body.drop 10 } else n

/-- A port sends a note bundle: link-local notes first, then, on an `UP` port, routed notes in order (R242). -/
def sendBundle (s : State) (p slot : Nat) : State :=
  let q := s.port p
  let t := (s.round * 1024) * 65536 + q.slotTime slot
  let loc := (q.localNotes.take 8).map (stampSync t)
  let out := if q.state = .up then q.outNotes.take (8 - loc.length) else []
  let payload := loc.flatMap LNote.bytes ++ out.flatMap (fun c => noteBytes c.note)
  let s1 := s.modPort p fun q => { q with
    localNotes := q.localNotes.drop loc.length, outNotes := q.outNotes.drop out.length,
    notesSent := q.notesSent + BitVec.ofNat 32 out.length, sTxTime := if loc.any (fun n => n.ntype == 6) then t else q.sTxTime }
  sendContainer s1 p slot 2 (s.bundleHdr p) (slice payload 0 256)

/-- A service slot (R224): a pending resend, a bundle with a note, a straggler, or an empty bundle (DEDUCED, log entry 50). -/
def serviceSlot (s : State) (p slot : Nat) : State :=
  let q := s.port p
  if !q.talks || slot % 32 != 0 || decide (q.slots ≤ slot) then s else
  let s1 := atSlot s p slot
  match q.resends with
  | r :: t =>
    let s2 := s1.modPort p fun q => { q with resends := t, retries := q.retries + 1 }
    let s3 := if r.cont = 1 then sampleHdr s2 p true (s1.round * 1024 + q.slotTime slot / 65536) slot true false true r.hdr else s2
    sendContainer s3 p slot 3 r.hdr r.payload
  | [] =>
    if !q.localNotes.isEmpty || (q.state == .up && !q.outNotes.isEmpty) then sendBundle s1 p slot
    else match if q.state = .up then s1.slotStraggler p slot else none with
    | some c =>
      let s2 := (removeCopy s1 p c).modPort p fun q => { q with stragglers := q.stragglers + 1 }
      let s3 := sampleHdr s2 p true (s1.round * 1024 + q.slotTime slot / 65536) slot false true true c.hdr
      sendContainer s3 p slot 1 c.hdr c.payload
    | none => sendBundle s1 p slot

/-! ### Link-local notes -/

/-- A link-local note becomes due on a port. -/
def pushLocal (s : State) (p : Nat) (n : LNote) : State := s.modPort p fun q => { q with localNotes := q.localNotes ++ [n] }

/-- A lost container: `LOSSES`, alarm 0x0512, and a `LOSS` note to the sender (R196) (DEDUCED, log entry 40). -/
def lostContainer (s : State) (p round slot cause : Nat) : State :=
  pushLocal (portLoss s p) p { ntype := 5, index := 0, body := leBytes 4 round ++ leBytes 2 slot ++ leBytes 1 cause }

/-- The plan entry of a port (R203). -/
def State.planEntry (s : State) (p : Nat) : Option PlanEntry := s.plan.bind fun w => w.entries.find? (fun e => e.port == p && e.valid)

/-- The factory delays of a port (R211): `PHY_TX` and `PHY_RX` as applied. -/
def Port.phys (q : Port) : Nat × Nat := (q.phyTx.toNat, q.phyRx.toNat)

/-- The state that a port's `HEARTBEAT` reports (R200). -/
def State.hState (s : State) (p : Nat) : Nat :=
  if s.resets.level.isSome then 1 else if (s.port p).state = .quiet then 2 else 0

/-- The `HEARTBEAT` of a port for a round (R200). -/
def State.heartbeatNote (s : State) (p : Nat) : LNote :=
  let q := s.port p
  { ntype := 1, index := 0,
    body := leBytes 1 (s.hState p) ++ leBytes 1 (8 * q.width) ++ zeros 2 ++ leBytes 4 s.round
      ++ leBytes 4 (match q.ownLag with | some m => wrap 32 m | none => 0x80000000) ++ leBytes 4 q.phyTx.toNat ++ leBytes 4 q.phyRx.toNat }

/-- The `SYNC` note of a port (R391). -/
def State.syncNote (s : State) (p : Nat) : LNote :=
  let q := s.port p
  let t := s.time
  { ntype := 6, index := 0,
    body := zeros 10 ++ leBytes 2 q.ssent.toNat ++ leBytes 8 (q.peerArrival / 65536) ++ leBytes 2 (q.peerArrival % 65536)
      ++ leBytes 2 q.peerSseq.toNat ++ leBytes 1 s.reportedDepth
      ++ leBytes 1 (b2n (t.mtState == .locked || t.root) + 2 * b2n (t.mtState == .holdover) + 4 * b2n t.root + 8 * b2n s.ltValid)
      ++ leBytes 2 (Nat.min s.errNow 65535) }

/-! ### Training (R197, R198) -/

/-- Whether all lanes from `a` to `b - 1` are good. -/
def lanesOk (good a b : Nat) : Bool := (List.range (b - a)).all (fun i => bit good (a + i))

/-- The width decision (R198): the width code and `HALF_HI`, or none where the port fails. Both ends run the width that both accept. -/
def widthOf (p good partner : Nat) : Option (Nat × Bool) :=
  if isIngest p then (if lanesOk good 0 8 then some (1, false) else none)
  else if lanesOk good 0 16 then some (if partner = 8 then 1 else 2, false)
  else if lanesOk good 0 8 then some (1, false)
  else if lanesOk good 8 16 then some (1, true)
  else none

/-- The `IDENTITY` body of a port (R204). -/
def State.identityBody (s : State) (p : Nat) (reply : Bool) (nonce : List Byte) : List Byte :=
  let (x, y, z) := s.coords
  let sl := match s.plan with | some w => w.slice | none => 0
  let sig := match s.planEntry p with | some e => e.sigReq | none => false
  leBytes 8 s.serial.toNat ++ leBytes 1 x ++ leBytes 1 y ++ leBytes 1 z ++ leBytes 1 p ++ leBytes 1 sl
    ++ leBytes 1 (b2n sig + 2 * b2n reply) ++ zeros 2 ++ nonce

/-- A port sends `IDENTITY` with a fresh nonce from the random source (R204; a free value, log entry 1). -/
def sendIdentity (s : State) (p : Nat) (reply : Bool) : State :=
  let nonce := s.freeBytes 12
  let body := s.identityBody p reply nonce
  pushLocal ((s.useFree 12).modPort p fun q => { q with ownNonce := nonce }) p { ntype := 2, index := 0, body }

/-- A port enters `DISCOVERY` (R197, R204): what it knew of its partner is forgotten, and its note counts start again (DEDUCED, log entry 49). -/
def enterDiscovery (s : State) (p : Nat) : State :=
  let s1 := s.modPort p fun q => { q with
    tries := 0, hbSeen := [s.round], signed := false, planMatch := false, peer := 0, peerIdentity := [], keyPieces := [], sigPieces := [],
    naks := [], resends := [], retry := [], localNotes := [], noteSent := 0, noteCredit := 0, noteLeft := 0, peerXoff := false,
    ownLag := none, peerLag := none, ssent := 0, peerSseq := 0xFFFF, peerRxseq := 0xFFFF }
  sendIdentity (setPortState s1 p .discovery) p true

/-- One training attempt (R197, R198): `RETRAINS`, then the width and discovery, or `DOWN`; the third failure raises 0x0511. An Ethernet port
has no discovery (R208). -/
def trainPort (s : State) (p : Nat) (r : TrainResult) : State :=
  let s0 := (setPortState s p .training).modPort p fun q => { q with retrains := q.retrains + 1, lanesGood := BitVec.ofNat 16 r.lanesGood }
  match if r.failStep = 0 then widthOf p r.lanesGood r.partnerWidth else none with
  | some (w, hi) =>
    let s1 := s0.modPort p fun q => { q with width := w, halfHi := hi }
    if (s1.port p).ethernet then setPortState (s1.modPort p fun q => { q with tries := 0 }) p .up else enterDiscovery s1 p
  | none =>
    let n := (s0.port p).tries + 1
    let s1 := setPortState (s0.modPort p fun q => { q with tries := n, width := 0 }) p .down
    if n = 3 then raiseAlarm s1 0x0511 p else s1

/-! ### Discovery (R205 to R207) -/

/-- The twin of a port, and the reverse: a twin port must end on the matching twin (R185). The partner of a torus port is the opposite one. -/
def facing (p : Nat) : Nat :=
  if p < 6 then p ^^^ 1 else if 11 ≤ p ∧ p ≤ 16 then 11 + ((p - 11) ^^^ 1) else p

/-- Whether a partner's identity matches the plan entry (R206). -/
def PlanEntry.agrees (e : PlanEntry) (serial x y z port slice_ : Nat) : Bool :=
  e.serial == serial && e.x == x && e.y == y && e.z == z && e.peerPort == port && e.slice == slice_
    && (decide (e.port < 11) || 20 ≤ e.port || port == facing e.port)

/-- A port becomes `QUIET` with an alarm (R206) (DEDUCED, log entry 49). -/
def quietPort (s : State) (p reason : Nat) : State := raiseAlarm (setPortState s p .quiet) reason p

/-- The measured flight in 1/256 ns (R207), from both lags and the delays in 1/65,536 ns. -/
def Port.measure (q : Port) : Option Nat :=
  match q.ownLag, q.peerLag with
  | some a, some b =>
    let sigma : Int := (a + b) * 256 - (q.phyTx.toNat + q.phyRx.toNat + q.peerPhyTx.toNat + q.peerPhyRx.toNat : Nat)
    some ((sigma + q.cableAsym.toInt) / 512).toNat
  | _, _ => none

/-- Whether the measured flight exceeds the declared bound. -/
def Port.tooFar (q : Port) : Bool := decide (q.flightDecl * 256 < q.flight.toNat)

/-- The last test of discovery: the flight; a port that passes is `UP` (R206). A port that returns during a run carries traffic only from the flip
that names it (R201); it is named at once where no timetable runs (DEDUCED, log entry 91). -/
def admitPort (s : State) (p : Nat) : State :=
  let s1 := s.modPort p fun q => { q with flight := match q.measure with | some f => BitVec.ofNat 24 (Nat.min f (2 ^ 24 - 1)) | none => q.flight }
  if (s1.port p).tooFar then quietPort s1 p 0x0517
  else setPortState (s1.modPort p fun q => { q with planMatch := true, named := q.named || !s.runOn }) p .up

/-- Bytes as notes of 28 bytes, the last piece padded with zeros (R205). -/
def pieceNotes (ntype : Nat) (bs : List Byte) : List LNote := (chunks 28 bs).zipIdx.map fun e => { ntype, index := e.2, body := e.1 }

/-- A port sends its identity proof: the public key, and the signature of the stated message (R205; a hedged signature, log entry 12). -/
def sendProof (s : State) (p : Nat) : State :=
  let sig := s.freeBytes 3309
  (pieceNotes 3 (slice s.sec.idPublic 0 1952) ++ pieceNotes 4 sig).foldl (fun m n => pushLocal m p n) (s.useFree 3309)

/-- The judgement of a partner's `IDENTITY` (R205, R206) (DEDUCED, log entry 49). -/
def judgeIdentity (s : State) (p : Nat) (b : List Byte) : State :=
  match s.planEntry p with
  | none => quietPort s p 0x0515
  | some e =>
    if !e.agrees (le b 0 8) (le b 8 1 % 64) (le b 9 1 % 64) (le b 10 1 % 64) (le b 11 1) (le b 12 1) then quietPort s p 0x0515
    else if !e.sigReq then admitPort s p
    else sendProof s p

/-- The bytes of numbered pieces, the pieces from 0 to `n - 1`; none where one is missing. -/
def joinPieces (l : List (Nat × List Byte)) (n : Nat) : Option (List Byte) :=
  (List.range n).foldl (fun acc i => acc.bind fun bs => (l.find? (fun e => e.1 == i)).map fun e => bs ++ slice e.2 0 28) (some [])

/-- The check of a partner's proof (R205): `KEYDIG` and the signature (DESIGN CHOICE, log entry 12). -/
def proofOk (s : State) (p : Nat) : Bool :=
  let q := s.port p
  match s.planEntry p, joinPieces q.keyPieces 70, joinPieces q.sigPieces 119 with
  | some e, some k, some g =>
    let key := k.take 1952
    decide ((shake256 key 32) = slice e.keydig 0 32) &&
      Config.mldsaVerify key [] (ascii "D1-IDENT" ++ slice q.peerIdentity 0 28 ++ q.ownNonce) (g.take 3309)
  | _, _, _ => false

/-! ### A port goes down (R201, R202, R271) -/

/-- The outputs of a stored note once port `p` is down: the note takes the opposite way on a wrapping axis, and is discarded where there is
none (R268, R269). The second result tells whether it was reversed. -/
def State.detourNote (s : State) (p : Nat) (c : NoteCopy) : List Nat × Bool :=
  if !c.outs.contains p then (c.outs, false)
  else if noteDest c.note = bcastCode then
    let back := p ^^^ 1
    let wrap := match (s.axes false)[p / 2]? with | some a => a.wrap | none => false
    let rest := c.outs.filter (· != p)
    (if wrap && s.portUp back && !rest.contains back then rest ++ [back] else rest, false)
  else match s.route (c.note.ntype == 0x30) c.input (triple c.note.srcX c.note.srcY c.note.srcZ)
      (triple c.note.destX c.note.destY c.note.destZ) with
    | some (q, rev) => ([q], rev)
    | none => ([], false)

/-- The notes of one input store find their outputs again after port `p` has gone down (DEDUCED, log entry 42). -/
def rerouteStore (p : Nat) (s : State) (input : Nat) : State :=
  (s.port input).store.foldl (fun m c =>
    let (outs, rev) := m.detourNote p c
    let m1 := if rev then { m with fabric := { m.fabric with noteReversals := m.fabric.noteReversals + 1 } } else m
    if outs.isEmpty then dropNote (m1.modPort input fun o => { o with noteLeft := o.noteLeft + 1 })
    else m1.modPort input fun o => { o with store := o.store ++ [{ c with outs }] })
    (s.modPort input fun o => { o with store := [] })

/-- A port is declared down, or disabled by force: the alarm, its stores discarded and counted, and for a running timetable the hold and the detour
(R42, R201, R202, R233, R271). Notes that the port had taken and not sent are discarded. An ingest port has no detour (DEDUCED, log entries 42 and
43). -/
def portGoesDown (s : State) (p : Nat) (st : PortState) : State :=
  let q := s.port p
  let s1 := setPortState s p st
  let s2 := s1.modPort p fun q => { q with
    downs := q.downs + 1, losses := q.losses + BitVec.ofNat 32 (q.departure.length + q.retry.length), departure := [], retry := [],
    resends := [], naks := [], localNotes := [], outNotes := [], named := false, width := 0, tries := 0 }
  let s3 := { s2 with fabric := { s2.fabric with noteDrops := s2.fabric.noteDrops + BitVec.ofNat 32 q.outNotes.length } }
  let s4 := drainNotes ((s3.portList ++ [31]).foldl (rerouteStore p) (raiseAlarm s3 0x0510 p))
  let s5 := if s4.inFrame && decide (s4.now ≤ s4.horizon) && s4.jobUses p then sendHold s4 3 false else s4
  let s6 := if p = s5.time.parent then mtLost s5 else s5
  if isIngest p then s6 else declareDetour s6 p

/-! ### Landing (R227, R228) -/

/-- A landing fault, a device fault with the record of R227. -/
def landFault (s : State) (reason : Nat) (l : Landing) (ks : Nat) (buf : Option (Nat × LEntry)) : State :=
  let base : FaultRec := { reason, engine := 6, pc := 0xFFFF, frame := ks, cycle := s.cycleNow, byte37 := l.input, detail := l.hdr.flow }
  let r := match buf with
    | some (n, e) =>
      let (d, g, y, x) := s.physCore e.lcore
      { base with lcore := e.lcore, pdie := d, pregion := g, prow := y, pcol := x, object := 5 * 4096 + e.aflag, bytes14 := n }
    | none => { base with object := 0xFFFF, bytes14 := 0xFFFF }
  if !s.runOn then s
  else enterFaulted { s with stats := { s.stats with faults := satInc s.stats.faults } } r l.hdr.flow

/-- The landing buffer of a parcel: the entry of the version of its `EPOCH` for its flow and the phase of its frame (R227). -/
def State.landBuf (s : State) (h : Hdr) (ks : Nat) : Option (Nat × LEntry) :=
  ((s.version h.epoch).landing.zipIdx.find? (fun e => e.1.flow == h.flow && ks % Nat.max e.1.pmod 1 == e.1.phase)).map (fun e => (e.2, e.1))

/-- A parcel is written into its buffer in machine time; the last offset completes the buffer and sets its arrival flag (R227, R228). -/
def writeParcel (s : State) (n : Nat) (e : LEntry) (b : LandState) (off : Nat) (payload : List Byte) : State :=
  let landed := off :: b.landed
  let k := s.core e.lcore
  let k1 := k.applyWrite { space := if e.attic then .attic else .shelf, core := e.lcore, addr := e.base + 256 * off, bytes := slice payload 0 256 }
  let k2 := if e.count ≤ landed.length then { k1 with aflags := spSet false k1.aflags e.aflag true } else k1
  { s.setCore e.lcore k2 with land := spSet {} s.land n { b with landed } }

/-- The landing of one parcel (R227): the first row that applies. -/
def landParcel (s : State) (l : Landing) : State :=
  let h := l.hdr
  let ks := s.nearFrame h.framelo
  match s.landBuf h ks with
  | none => landFault s 0x0522 l ks none
  | some (n, e) =>
    let b := spGet {} s.land n
    if e.count ≤ h.offset then landFault s 0x0522 l ks (some (n, e))
    else if h.lastf ∧ h.seq + 1 ≠ e.count then landFault s 0x0523 l ks (some (n, e))
    else match b.inst with
    | none => writeParcel s n e { b with inst := some ks } h.offset l.payload
    | some i =>
      if i < ks then landFault s 0x0521 l ks (some (n, e))
      else if ks < i then { s with fabric := { s.fabric with landStale := s.fabric.landStale + 1 } }
      else if b.landed.contains h.offset then { s with fabric := { s.fabric with landDups := s.fabric.landDups + 1 } }
      else writeParcel s n e b h.offset l.payload

end Sys2Proof.Machine
end

