-- ==== Sys2Proof/Machine/Tables.lean ====
section
/-! DEFINITION. Slot tables in native form and the loader's checks of them (R199, R206, R208, R214, R218, R221, R222, R226, R234, R260, R264). -/

namespace Sys2Proof.Machine

open Sys2Proof

/-! ### Entries (R218, R221, R226) -/

/-- A transmit entry of a port, or none for a wrong version. -/
def decodeT (port v : Nat) : Option TEntry :=
  if bits v 63 62 ≠ 1 then none else
  some { port, transit := bit v 61, round := bits v 60 49, slot := bits v 48 38, flow := bits v 37 18, run := bits v 17 7, rounds := bits v 6 0 }

/-- The 64 bits of a transmit entry. -/
def encodeT (e : TEntry) : Nat :=
  2 ^ 62 + b2n e.transit * 2 ^ 61 + e.round * 2 ^ 49 + e.slot * 2 ^ 38 + e.flow * 2 ^ 18 + e.run * 2 ^ 7 + e.rounds

/-- A crossbar entry, or none for a wrong version. -/
def decodeX (v : Nat) : Option XEntry :=
  if bits v 63 62 ≠ 1 then none else
  some { transit := bit v 61, input := bits v 60 56, flow := bits v 55 36, dmask := BitVec.ofNat 24 (bits v 35 12), hops := bits v 11 8,
         outclass := bit v 7 }

/-- The 64 bits of a crossbar entry. -/
def encodeX (e : XEntry) : Nat :=
  2 ^ 62 + b2n e.transit * 2 ^ 61 + e.input * 2 ^ 56 + e.flow * 2 ^ 36 + e.dmask.toNat * 2 ^ 12 + e.hops * 2 ^ 8 + b2n e.outclass * 2 ^ 7

/-- A landing entry, or none for a wrong version. -/
def decodeL (v : Nat) : Option LEntry :=
  if bits v 127 124 ≠ 1 then none else
  some { flow := bits v 123 104, pmod := 2 ^ bits v 103 102, phase := bits v 101 99, lcore := bits v 98 82, attic := bit v 81,
         base := bits v 80 64, count := bits v 63 55, aflag := bits v 54 49 }

/-- The code of a frame modulus. -/
def pmodCode (m : Nat) : Nat := if m = 8 then 3 else if m = 4 then 2 else if m = 2 then 1 else 0

/-- The 128 bits of a landing entry. -/
def encodeL (e : LEntry) : Nat :=
  2 ^ 124 + e.flow * 2 ^ 104 + pmodCode e.pmod * 2 ^ 102 + e.phase * 2 ^ 99 + e.lcore * 2 ^ 82 + b2n e.attic * 2 ^ 81 + e.base * 2 ^ 64
    + e.count * 2 ^ 55 + e.aflag * 2 ^ 49

/-- Every element of a list, or none where one is missing. -/
def allSome {α : Type} : List (Option α) → Option (List α)
  | [] => some []
  | some x :: t => (allSome t).map (x :: ·)
  | none :: _ => none

/-! ### Checks of one version -/

/-- The slots of a port that a table may use: those of its trained width, or of its full width while it is not trained (DEDUCED, log entry 58). -/
def State.tableSlots (s : State) (p : Nat) : Nat :=
  let q := s.port p
  if q.width = 0 then (if fullWidth p = 16 then 1536 else 768) else q.slots

/-- Whether the run and the rounds of an entry keep their bounds in a frame of `L` rounds on a port of `n` slots (R221, R222) (DEDUCED, log entry 58).
-/
def TEntry.fits (e : TEntry) (L n : Nat) : Bool :=
  decide (e.slot % 32 ≠ 0) && decide (e.slot < n) && decide (1 ≤ e.run) && decide (e.run ≤ 1488)
    && decide (dataIndex e.slot + e.run ≤ n - n / 32) && decide (e.round + e.rounds ≤ L - 1)

/-- Whether two entries cover a common data slot of a round. -/
def TEntry.slotsMeet (a b : TEntry) : Bool :=
  decide (dataIndex a.slot < dataIndex b.slot + b.run) && decide (dataIndex b.slot < dataIndex a.slot + a.run)

/-- Whether two entries of a port cover a common slot: a transit entry holds its run in every round (R264). -/
def TEntry.meets (a b : TEntry) : Bool :=
  a.port == b.port && a.slotsMeet b &&
    (a.transit || b.transit || (decide (a.round ≤ b.round + b.rounds) && decide (b.round ≤ a.round + a.rounds)))

/-- The first entry of a list that meets an earlier one. -/
def firstMeet : List TEntry → Option TEntry
  | [] => none
  | e :: t => match t.find? e.meets with
    | some x => some x
    | none => firstMeet t

/-- The first entry that does not follow its predecessor in ascending (`ROUND`, `SLOT`) order. -/
def firstDescent : List TEntry → Option TEntry
  | a :: b :: t => if a.round * 2048 + a.slot < b.round * 2048 + b.slot then firstDescent (b :: t) else some b
  | _ => none

/-- The first transmit entry of a version that breaks R222; `n` gives the slots of each port. -/
def txFault (s : State) (n : Nat → Nat) (L : Nat) (l : List TEntry) : Option TEntry :=
  match l.find? (fun e => !(portExists s.variant e.port && e.fits L (n e.port))), firstMeet l with
  | some e, _ => some e
  | none, some e => some e
  | none, none => (List.range 22).findSome? fun p => firstDescent (l.filter (fun e => e.port == p))

/-- The first entry whose pair (`INPUT`, `FLOW`) an earlier one has. -/
def firstTwin : List XEntry → Option XEntry
  | [] => none
  | e :: t => match t.find? (fun x => x.input == e.input && x.flow == e.flow) with
    | some x => some x
    | none => firstTwin t

/-- The first crossbar entry that is refused, with its reason (R218). -/
def xbarFault (s : State) (l : List XEntry) : Option (Nat × XEntry) :=
  let bad := fun (e : XEntry) =>
    (List.range 23).any (fun p => bit e.dmask.toNat p && (p == 22 || !portExists s.variant p || p == e.input)) ||
      !(e.input == 31 || portExists s.variant e.input)
  let eth := fun (e : XEntry) => (maskPorts e.dmask).any (fun p => (s.port p).ethernet) || (e.input != 31 && (s.port e.input).ethernet)
  match l.find? bad, firstTwin l with
  | some e, _ => some (0x0520, e)
  | none, some e => some (0x0520, e)
  | none, none => (l.find? eth).map (fun e => (0x0519, e))

/-- The first reason that is not zero. -/
def firstReason : List Nat → Nat
  | [] => 0
  | r :: t => if r = 0 then firstReason t else r

/-- A reason where a condition holds. -/
def reasonIf (b : Bool) (r : Nat) : Nat := if b then r else 0

/-- The landing entries of a version (R226): modulus and phase, the store's bounds, and the alignment. -/
def LEntry.ok (e : LEntry) : Bool :=
  decide (e.phase < e.pmod) && e.base % 256 == 0 && decide (1 ≤ e.count) && decide (e.count ≤ 384) && decide (e.lcore < coreCount)
    && decide (e.base + 256 * e.count ≤ if e.attic then 0x18000 else 0xC000)

/-- The ports that the job entries of a table set use. -/
def TableSet.ports (t : TableSet) : List Nat :=
  (List.range 22).filter fun p => t.tx.any (fun e => e.port == p) || t.xbar.any (fun e => e.input == p || bit e.dmask.toNat p)

/-! ### LOAD_TRANSIT (R425) -/

/-- The reason for which a transit plan of a version is refused: R214, R222, R234, R260 and R264 (DEDUCED, log entry 58). -/
def transitReason (s : State) (b : Bool) (tx : List TEntry) (xb : List XEntry) : Nat :=
  let v := s.version b
  let own := fun (f : Nat) => decide (s.fabric.flowBase ≤ f) && decide (f < s.fabric.flowBase + s.fabric.flowCount)
  firstReason [
    reasonIf ((List.range 22).any (fun p => decide (4096 < (tx.filter (fun e => e.port == p)).length)) || decide (8192 < xb.length)) 0x0528,
    reasonIf (tx.any (fun e => !e.transit || e.round != 0 || e.rounds != 0) || xb.any (fun e => !e.transit)) 0x0924,
    reasonIf (txFault s s.tableSlots 4096 tx).isSome 0x0520,
    (xbarFault s (xb ++ v.xbar)).elim 0 (·.1),
    reasonIf (tx.any (fun e => own e.flow) || xb.any (fun e => own e.flow)) 0x0923,
    reasonIf (tx.any (fun e => v.tx.any e.meets)) 0x0526]

end Sys2Proof.Machine
end

