-- ==== Sys2Proof/Machine/CmdOps.lean ====
section
/-! DEFINITION. The judgement of a host command (R410, R415 to R418, R423, R430 to R433, R497) and its inventory record (R349, R356, R359). -/

namespace Sys2Proof

open Machine

/-! ### Packets (R410) -/

/-- Parameter bytes `a` to `a + n - 1` of a packet, numbered as in the slot; bytes past `PLEN` read as zero. -/
def Packet.bytes (k : Packet) (a n : Nat) : List Byte := slice (k.params.take k.plen) (a - 16) n

/-- A little-endian parameter field of `n` bytes at byte `a`. -/
def Packet.par (k : Packet) (a n : Nat) : Nat := ofLe (k.bytes a n)

/-- The packet with one parameter byte fixed. -/
def Packet.withByte (k : Packet) (a : Nat) (b : Byte) : Packet :=
  { k with params := putAt (slice k.params 0 (Nat.max k.params.length (a - 15))) (a - 16) [b], plen := Nat.max k.plen (a - 15) }

/-- The 256 bytes of the command slot; its reserved bytes are zero. -/
def Packet.slotBytes (k : Packet) (opcode : Nat) : List Byte :=
  leBytes 4 k.seq ++ leBytes 2 opcode ++ leBytes 1 (k.role % 4 + 4 * b2n k.pblk) ++ leBytes 1 k.pver ++ leBytes 4 k.plen ++ zeros 4
    ++ (if k.pblk then leBytes 8 k.paddr ++ zeros 232 else slice k.params 0 240)

/-- The bytes of the authorisation trailer, where the parameters hold one (R431). -/
def Packet.trailer (k : Packet) : Option (List Byte) := if k.plen < 3344 then none else some (slice k.params (k.plen - 3344) 3344)

/-- Check 1: the form of the packet (DEDUCED, log entry 52). -/
def Packet.formOk (k : Packet) : Bool :=
  k.pver == 1 && decide (k.role ≤ 1) && (if k.pblk then decide (1 ≤ k.plen) && decide (k.plen ≤ 2 ^ 24) && k.paddr % 64 == 0
    else decide (k.plen ≤ 240))

/-- Whether a command is an earliest-frame stream command (R331 to R333). -/
def Packet.earliest (k : Packet) (op : Nat) : Bool := (op == 0x40 || op == 0x41) && k.par 24 8 == ones64

/-- The content of a command's record: its slot, then its parameter block. -/
def Packet.content (k : Packet) (op : Nat) : List Byte :=
  k.slotBytes op ++ (if k.pblk && k.readOk then k.params.take k.plen else [])

/-- The source field of a command's record. -/
def Packet.srcField (k : Packet) (op : Nat) : Nat := k.seq + op * 2 ^ 32

end Sys2Proof

namespace Sys2Proof.Machine

open Sys2Proof

/-! ### Verdicts and commands (R415, R416) -/

/-- What the judgement of a command gives: a short final reply; `ACCEPTED`, and then what the command does at once; or no reply yet. -/
inductive Verdict where
  | final (s : State) (status reason : Nat) (results : List (Nat × Byte))
  | long (s : State) (act : State → State)
  | silent (s : State)

/-- A refusal without effect. -/
def refuse (s : State) (status reason : Nat) : Verdict := .final s status reason []

/-- `OK` with results from byte 24. -/
def okWith (s : State) (bs : List Byte) : Verdict := .final s stOk 0 (resAt 24 bs)

/-- A command of R419: its opcode, the states of R418, whether the fabric owner alone may send it, whether it is one of the long commands
of which one is in progress at a time, and its own rules. -/
structure Cmd where
  opcode : Nat
  allowed : List DevState
  owner : Bool := false
  single : Bool := false
  run : Packet → State → Verdict

/-- Where a command comes from: the ring, a fabric-owner message (R433), or a replay record (R368). -/
inductive CmdSource where
  | ring | message | replay
  deriving DecidableEq, Repr

/-- All states with an intake. -/
def anyState : List DevState := [.idle, .loaded, .running, .held, .faulted, .replay]

/-! ### Authorisation (R430 to R432) -/

/-- An enrolled key (R465). -/
def State.keyOf (s : State) (role index : Nat) : Option Key := s.settings.keys.find? (fun e => e.role == role && e.index == index)

/-- The first condition of R432 that fails, and the state with the counter of a command that passes (DEDUCED, log entry 53). -/
def authorise (s : State) (opcode : Nat) (k : Packet) : Except Nat State :=
  match k.trailer with
  | none => .error 0x0810
  | some t =>
    if k.role ≠ 1 ∨ !k.pblk ∨ le t 0 1 ≠ 1 then .error 0x0810 else
    let i := le t 1 1
    match s.keyOf 0 i with
    | none => .error 0x0811
    | some e =>
      let msg := ascii "D1-FOAUTH" ++ leBytes 2 opcode ++ slice k.params 0 (k.plen - 3344) ++ slice t 0 32
      if !Config.mldsaVerify e.key (ascii "D1-FO") msg (slice t 32 3309) then .error 0x0812
      else if le t 8 8 ≤ (spGet 0 s.sec.foCounters i).toNat then .error 0x0813
      else
        let s1 := { s with sec := { s.sec with foCounters := spSet 0 s.sec.foCounters i (BitVec.ofNat 64 (le t 8 8)) } }
        if le t 16 8 ≠ s.serial.toNat ∧ le t 16 8 ≠ ones64 then .error 0x0814 else .ok s1

/-- Whether a command needs an authorisation: those of the fabric owner, and a core reset that it sends (R423). -/
def needsOwner (k : Packet) (c : Cmd) : Bool := c.owner || (c.opcode == 0x80 && k.par 16 1 == 2 && k.role == 1)

/-! ### Judging (R415) -/

/-- The commands that an outstanding `ABORT` shuts out (R497). -/
def afterAbort (opcode : Nat) : Bool := [0x31, 0x34, 0x35, 0x40, 0x41].contains opcode

/-- Check 4: the state allows the command (R418, R497). A replayed command finds the states of the run that it repeats (R368) (DEDUCED, log entry 54).
-/
def stateAllows (s : State) (c : Cmd) (src : CmdSource) : Bool :=
  let d := if src = .replay ∧ s.dev = .replay then DevState.running else s.dev
  c.allowed.contains d && !((c.opcode == 0x32 || c.opcode == 0x35) && s.dev == .held && s.frame.stopped) &&
    !(afterAbort c.opcode && s.frame.abortAt.isSome)

/-- Checks 1 to 6 of R415 for a listed opcode, then the command's own rules. `SIG_FAILS` counts a signature of R432 that fails (R467) (DEDUCED, log
entry 53). -/
def judge (s : State) (c : Cmd) (src : CmdSource) (k : Packet) : Verdict :=
  if !stateAllows s c src then refuse s stBadState 0
  else
    let auth : Except Nat State :=
      if needsOwner k c then authorise s c.opcode k else if k.role = 1 then .error 0x0815 else .ok s
    match auth with
    | .error r =>
      refuse (if r = 0x0812 then { s with sec := { s.sec with sigFails := s.sec.sigFails + 1 } } else s) stNotAuth r
    | .ok s1 =>
      if c.single && s1.cmd.out.any (·.long) then refuse s1 stBusy 0x0A02
      else if s1.cmd.out.any (fun o => o.opcode == c.opcode) then refuse s1 stBusy 0x0A04
      else c.run k s1

/-- All checks of R415. -/
def verdict (s : State) (op : Nat) (c : Option Cmd) (src : CmdSource) (k : Packet) : Verdict :=
  if !k.formOk then refuse s stBadParam 0x0A01
  else if k.pblk && !k.readOk then refuse s stBadParam 0x0A03
  else match c with
    | none => let _ := op; refuse s stBadOpcode 0
    | some c => judge s c src k

/-! ### The COMMAND record (R349, R356, R359) -/

/-- Whether a command makes a `COMMAND` record. -/
def recorded (op : Nat) : Bool := !([1, 2, 0x11, 0x42, 0x50, 0x52, 0x60, 0x91].contains op)

/-- The earliest frame that a stream command can take (R332). In `LOADED` it is frame 0, or, after `RESTORE`, the frame after the restored one, whose
table the checkpoint holds (DEDUCED, log entry 55). -/
def State.streamFrame (s : State) : Nat :=
  if s.dev = .loaded then (if s.frame.ranOnce || s.frameIndex == 0 then 0 else s.frameIndex + 1) else s.frameIndex + 1

/-- The `FRAME` of a command's record. -/
def State.recordFrame (s : State) (op : Nat) (k : Packet) : Nat := if k.earliest op then s.streamFrame else s.frameIndex

/-- Record a command, and count its choice (R359) (DEDUCED, log entry 53). -/
def recordCommand (s : State) (op : Nat) (k : Packet) : State :=
  let s1 := record s 1 (s.recordFrame op k) 0 (k.srcField op) (k.content op) false k.pblk
  if s.ttLoaded && (op == 0x33 || k.earliest op) then addChoices s1 1 else s1

/-- Whether a command's record finds room (R352, R356). -/
def State.commandFits (s : State) (op : Nat) (k : Packet) : Bool :=
  s.roomFor (s.recordSet 1 (s.recordFrame op k) 0 (k.srcField op) (k.content op) false k.pblk)

/-! ### Taking a command in (R411, R416, R429) -/

/-- Give a verdict: the reply, and the entry of a command that is outstanding from now on. -/
def giveVerdict (op : Nat) (single : Bool) (k : Packet) : Verdict → State
  | .final s st r res =>
    postReply (if st = stNotAuth then { s with cmd := { s.cmd with authFails := s.cmd.authFails + 1 } } else s) k.seq st r res
  | .silent s => s
  | .long s act =>
    let s1 := postReply s k.seq stAccepted 0 []
    act { s1 with cmd := { s1.cmd with out := s1.cmd.out ++ [{ opcode := op, packet := k, long := single }] } }

/-- The records from a `LOAD_CRATE` on are kept until it ends: where it succeeds they open a new segment (R353). -/
def openLink (s : State) (op : Nat) : State :=
  if op = 0x20 ∧ !s.inv.linking then { s with inv := { s.inv with linking := true, links := [] } } else s

/-- A `LOAD_CRATE` that does not get as far as `ACCEPTED` leaves its record in the previous segment. -/
def closeLink (s : State) : State :=
  if s.cmd.out.any (fun o => o.opcode == 0x20) then s else { s with inv := { s.inv with linking := false, links := [] } }

/-- Take in one command of the ring or of a message: count it, record it, judge it, answer it (DEDUCED, log entry 53). -/
def takeCommand (op : Nat) (c : Option Cmd) (src : CmdSource) (k : Packet) (s : State) : State :=
  let s0 := { s with cmd := { s.cmd with commands := s.cmd.commands + 1 } }
  let single := match c with | some x => x.single | none => false
  if src = .ring ∧ recorded op ∧ !s0.commandFits op k then postReply s0 k.seq stBusy 0x0A30 []
  else
    let s1 := if src = .ring ∧ recorded op then recordCommand (openLink s0 op) op k else s0
    closeLink (giveVerdict op single k (verdict s1 op c src k))

/-- Whether commands are taken in at all: not before the bring-up is done, not during a core reset, and not while IDE is awaited (R408, R414,
R442). -/
def State.takesCommands (s : State) : Bool :=
  s.dev != .off && s.dev != .boot && !s.cmd.suspended && !s.ideWaits

/-- A host command as a row of its own. -/
def hostCommand (c : Cmd) (k : Packet) (s : State) : Out :=
  if !s.takesCommands then .next s else .next (takeCommand c.opcode (some c) .ring k s)

end Sys2Proof.Machine
end

