-- ==== Sys2Proof/Machine/CellarOps.lean ====
section
/-! DEFINITION. The cellars: correction of sectors (R169 to R172, R535), controllers (R154 to R163), repair and retirement (R173 to R175), the
zone table (R153, R316), and the host windows (R176 to R180). -/

namespace Sys2Proof.Machine

open Sys2Proof

/-! ### Sectors and addresses -/

/-- The bank of a sector address (R150). -/
def bankOf (a : Nat) : Nat := a / 32 % 32

/-- The sector address of a bank, row and column (R150) (DESIGN CHOICE, log entry 8; DEDUCED, log entry 30). -/
def sectorAt (bank row col : Nat) : Nat := row * 1024 + bank * 32 + col

/-- The device address of a sector of controller `k`, in the zones from device address `base` on; none where no zone holds it. -/
def daIn (s : State) (k a : Nat) : List Zone → Nat → Option Nat
  | [], _ => none
  | z :: t, base =>
    let i := (s.healthyPcs z.mio).findIdx (fun x => x == k)
    let n := z.groups.findIdx (fun g => g == i / 16)
    if k / 160 = z.mio ∧ i < (s.healthyPcs z.mio).length ∧ n < z.groups.length then some (base + 512 * (a * z.groups.length + n) + 32 * (i % 16))
    else daIn s k a t (base + zoneBytes z)

/-- The sector address before the page remap (R174). -/
def State.unmapSector (s : State) (k a : Nat) : Nat :=
  match s.cellar.remaps.find? (fun r => r.ctl == k && r.spare == a / 128) with
  | some r => r.page * 128 + a % 128
  | none => a

/-- The device address of a sector, zero where it has none. -/
def State.daOf (s : State) (k a : Nat) : Nat := (daIn s k (s.unmapSector k a) s.cellar.zones 0).getD 0

/-! ### Correction (R170 to R172) -/

/-- Enter a row in the repair list, once; a full list takes no further entry, and each such entry raises 0x0C16 (R172, R447). -/
def listRow (s : State) (k bank row : Nat) (ue : Bool) : State :=
  if s.cellar.repair.any (fun r => r.ctl == k && r.bank == bank && r.row == row) then
    { s with cellar := { s.cellar with
        repair := s.cellar.repair.map fun r =>
        if r.ctl = k ∧ r.bank = bank ∧ r.row = row then { r with ue := r.ue || ue } else r } }
  else if 1024 ≤ s.cellar.repair.length then raiseAlarm s 0x0C16 k
  else { s with cellar := { s.cellar with repair := s.cellar.repair ++ [{ ctl := k, bank, row, ue }] } }

/-- A sector of controller `k` passes the corrector (R170 to R172): 0 correct, 1 corrected, 2 uncorrectable (DEDUCED, log entry 30). -/
def correctSector (s : State) (k a : Nat) : State × Nat :=
  let e := sectorClass (spGet 0 s.cellar.errors (k * sectorsPerPc + a))
  let bank := bankOf a
  let row := a / 1024
  if e = 1 then
    let c := s.cellar
    let rk := (k * 32 + bank) * 24576 + row
    let s1 := { s with cellar := { c with ceCount := spModify 0 c.ceCount (2 * (k / 32) + bank / 16) (· + 1), rowCe := spModify 0 c.rowCe rk (· + 1) } }
    (if c.ceRowLimit < spGet 0 s1.cellar.rowCe rk then listRow s1 k bank row false else s1, 1)
  else if e = 2 then
    let c := s.cellar
    let s1 := { s with cellar := { c with
      ueCount := c.ueCount + 1, lastUeDa := BitVec.ofNat 64 (s.daOf k a),
      ueBanks := if c.ueBanks.contains (k, bank) then c.ueBanks else c.ueBanks ++ [(k, bank)] } }
    (listRow s1 k bank row true, 2)
  else (s, 0)

/-- Alarm 0x0407 (R535): the origin is 0 for scrub and 1 for a host read. -/
def ueAlarm (s : State) (k a origin : Nat) : State := raiseAlarm s 0x0407 k (leBytes 8 (s.daOf k a) ++ leBytes 1 origin)

/-! ### Controllers (R154 to R163) -/

/-- φ of a controller (R160). -/
def phaseOf (k : Nat) : Nat := 3 * (k % 160) % 48

/-- The controllers at cycle 0 of a frame (R154, R157, R160, R161): their programs restart. -/
def startControllers (s : State) : State :=
  { s with cellar := { s.cellar with
      ctls := s.cellar.ctls.map fun e =>
      (e.1, { e.2 with cycle := 0, entries := [], ended := false, refreshN := 0, scrubN := 0, requests := [], returns := [] }) } }

/-- The effect of one entry on the banks: ACT opens a row, PRE closes it, RD sends a sector to the corrector (R155, R159). A column
command reads the row that is open. -/
def Ctl.apply (x : Ctl) (e : CtlEntry) : Ctl :=
  let t := x.cycle + e.delta
  let y := { x with cycle := t }
  match e.kind with
  | 1 => { y with openRow := spSet 0 y.openRow e.bank (e.row + 1) }
  | 2 => { y with openRow := spSet 0 y.openRow e.bank 0 }
  | 3 =>
    let r := spGet 0 y.openRow e.bank
    { y with returns := y.returns ++ [(t, sectorAt e.bank (if r = 0 then e.row else r - 1) e.col)] }
  | 7 => { y with openRow := spSet 0 y.openRow e.bank ((y.requests.getD e.tag (0, 0)).2 + 1) }
  | _ => y

/-- A program entry issues, in its cycle: the package executes cycles, the program has not ended and the cycle is not held. -/
def ctlEntry (s : State) (k : Nat) (e : CtlEntry) : State :=
  let x := s.ctl k
  if !s.cycling || x.ended || decide (s.heldFrom ≤ x.cycle + e.delta) then s
  else let y := x.apply e; s.setCtl k { y with entries := y.entries ++ [e] }

/-- Entries with the increments of repetition `r` added (R158). -/
def CtlEntry.shifted (e : CtlEntry) (r colInc rowInc : Nat) : CtlEntry :=
  { e with col := (e.col + r * colInc) % 32, row := e.row + r * rowInc }

/-- `REPEAT`: the preceding `n` entries execute `m` more times, with increments (R158) (DEDUCED, log entry 46). -/
def ctlRepeat (s : State) (k n m colInc rowInc : Nat) : State :=
  let x := s.ctl k
  if !s.cycling || x.ended || decide (s.heldFrom ≤ x.cycle) then s else
  let es := x.entries.drop (x.entries.length - n)
  let y := (List.range m).foldl (fun y r => es.foldl (fun y e => y.apply (e.shifted (r + 1) colInc rowInc)) y) x
  s.setCtl k { y with entries := y.entries ++ [{ kind := 5, delta := 0 }] }

/-- A sector read leaves the corrector and is released onto the bridge (R159, R170, R171). The data and the fault of its consumer are those
of the transfer (R138). -/
def releaseSector (s : State) (k : Nat) : State :=
  let x := s.ctl k
  match x.returns with
  | [] => s
  | (t, a) :: rest =>
    if !s.cycling || decide (s.heldFrom ≤ t + cellarC) then s
    else (correctSector (s.setCtl k { x with returns := rest }) k a).1

/-- The pinned refresh of a controller (R160). -/
def pinnedRefresh (s : State) (k : Nat) : State :=
  let x := s.ctl k
  let t := 48 * x.refreshN + phaseOf k
  if !s.cycling || decide (s.frame.e ≤ t) || decide (s.heldFrom ≤ t) then s
  else s.setCtl k { x with refreshN := x.refreshN + 1, lastRefresh := spSet 0 x.lastRefresh (x.refreshN % 32) (s.cycleTime t) }

/-- One column of a scrub window: the sector is read; the first four corrected are written back (R161) (DEDUCED, log entry 30). -/
def scrubColumn (k bank row : Nat) (acc : State × Nat) (col : Nat) : State × Nat :=
  let a := sectorAt bank row col
  let (s1, r) := correctSector acc.1 k a
  if r = 1 ∧ acc.2 < 4 then
    (rewriteSector s1 (k * sectorsPerPc + a), acc.2 + 1)
  else if r = 2 then
    (ueAlarm { s1 with cellar := { s1.cellar with scrubUe := s1.cellar.scrubUe + 1 } } k a 0, acc.2)
  else (s1, acc.2)

/-- The next scrub window of a controller (R161). -/
def scrubWindow (s : State) (k : Nat) : State :=
  let x := s.ctl k
  let m := x.scrubN
  let t := 2064 * m + phaseOf k + 24
  if !s.cycling || decide (s.frame.e ≤ t + 163) || decide (s.heldFrom ≤ t + 163) then s else
  let bank := (11 * m + 16) % 32
  let row := spGet 0 x.scrubRow bank
  let s1 := s.setCtl k { x with scrubN := m + 1, scrubRow := spSet 0 x.scrubRow bank ((row + 1) % 24576), windowsDone := x.windowsDone + 1 }
  let (s2, _) := (List.range 32).foldl (scrubColumn k bank row) (s1, 0)
  if (x.windowsDone + 1) % 786432 = 0 then { s2 with cellar := { s2.cellar with scrubPasses := s2.cellar.scrubPasses + 1 } } else s2

/-- Whether the programs of the controllers are halted (R162). -/
def State.programsHalted (s : State) : Bool := !s.cycling || s.freeze.halted

/-- The machine time of the next cycle 0 where it is known (R164). -/
def State.nextCycle0 (s : State) : Option Nat :=
  if s.frame.tickTaken then some (s.frame.tick + 256)
  else if s.inRun && s.frame.tickWait then s.agreedTick.map (· + 256) else none

/-- The retention unit of a controller refreshes a bank that has reached its age (R162 to R164): an open bank gets its row back. -/
def retentionRefresh (s : State) (k bank : Nat) : State :=
  let x := s.ctl k
  let due := spGet 0 x.lastRefresh bank + s.cellar.ageNs
  let t := Nat.max s.now due
  let quiet := match s.nextCycle0 with
    | some c => decide (c < t + s.cellar.quietNs) && decide (t < c)
    | none => false
  if !s.programsHalted || s.dev == .off || s.dev == .boot || quiet then s else
  let s1 := s.advanceTo t
  let s2 := s1.setCtl k { s1.ctl k with lastRefresh := spSet 0 (s1.ctl k).lastRefresh bank t }
  { s2 with
    cellar := { s2.cellar with retRefreshes := s2.cellar.retRefreshes + 1, retHolds := s2.cellar.retHolds + 1 },
    freeze := if s2.freeze.halted then { s2.freeze with retention := s2.freeze.retention + 1 } else s2.freeze }

/-! ### The zone table (R153, R316) -/

/-- Whether a zoning list asks no MIO for more groups than it has. -/
def State.zoningFits (s : State) (l : List (Nat × Nat)) : Bool :=
  (List.range (mioCount s.variant)).all fun m => decide (((l.filter (fun e => e.1 == m)).map (·.2)).sum ≤ s.groupCount m)
    && l.all (fun e => decide (e.1 < mioCount s.variant))

/-- Compute the zone table again; a list that no longer fits falls back to the default with alarm 0x0907 (DESIGN CHOICE, log entry 9). -/
def computeZones (s : State) : State :=
  match s.settings.zoning with
  | none => { s with cellar := { s.cellar with zones := s.defaultZones } }
  | some l =>
    if s.zoningFits l then { s with cellar := { s.cellar with zones := zonesFrom s [] l } }
    else raiseAlarm { s with cellar := { s.cellar with zones := s.defaultZones } } 0x0907 0 []

/-! ### Repair and retirement (R172 to R175) -/

/-- Write zero into the uncorrectable sectors among `n` from sector `a`, and clear every error of them (R173, R535). -/
def scrubOut (k : Nat) (s : State) (a : Nat) : State :=
  let key := k * sectorsPerPc + a
  let e := sectorClass (spGet 0 s.cellar.errors key)
  let s1 := rewriteSector s key
  if e = 2 then
    raiseAlarm { s1 with cellar := { s1.cellar with bytes := writeBytes s1.cellar.bytes (key * 32) (zeros 32) } } 0x0408 k (leBytes 8 (s.daOf k a))
  else s1

/-- Copy one sector of a page into its spare page (R174). -/
def copySector (k src dst : Nat) (s : State) (i : Nat) : State :=
  { s with cellar := { s.cellar with
      bytes := writeBytes s.cellar.bytes ((k * sectorsPerPc + dst + i) * 32) (s.sectorData (k * sectorsPerPc + src + i))
      errors := spSet 0 s.cellar.errors (k * sectorsPerPc + dst + i) 0 } }

/-- Retire a pseudo-channel whole (R175). The zone table is computed again, and the placement does not stand (DEDUCED, log entry 34). -/
def retirePc (s : State) (k : Nat) : State :=
  if s.pcRetired k then s else
  deviceCommit <| computeZones { s with
    cellar := { s.cellar with
        retired := insertNat k s.cellar.retired, pcsRetired := s.cellar.pcsRetired + 1,
        repair := s.cellar.repair.filter (fun r => r.ctl != k) },
    mgmt := { s.mgmt with placed := none } }

/-- Retire the page of a row (R174), or the pseudo-channel whose spare pages are all in use (R175). -/
def retirePage (s : State) (k page : Nat) : State :=
  let used := spGet 0 s.cellar.sparesUsed k
  if s.cellar.remaps.any (fun r => r.ctl == k && r.page == page) then s
  else if 64 ≤ used then retirePc s k
  else
    let spare := 196544 + used
    let s1 := (List.range 128).foldl (fun m i => scrubOut k m (page * 128 + i)) s
    let s2 := (List.range 128).foldl (copySector k (page * 128) (spare * 128)) s1
    deviceCommit { s2 with
      cellar := { s2.cellar with
          remaps := s2.cellar.remaps ++ [{ ctl := k, page, spare }], sparesUsed := spSet 0 s2.cellar.sparesUsed k (used + 1),
          pagesRetired := s2.cellar.pagesRetired + 1 },
      mgmt := { s2.mgmt with placed := none } }

/-- Treat one listed row (R173 to R175): post-package repair while the bank has a resource left, else the page is retired (DESIGN CHOICE, log entry
32). -/
def repairRow (s : State) (r : RepairEntry) : State :=
  if s.pcRetired r.ctl then s else
  let b := r.ctl * 32 + r.bank
  let used := spGet 0 s.cellar.pprUsed b
  if used < Config.pprPerBank then
    (List.range 32).foldl (fun m c => scrubOut r.ctl m (sectorAt r.bank r.row c))
      { s with cellar := { s.cellar with pprUsed := spSet 0 s.cellar.pprUsed b (used + 1) } }
  else retirePage s r.ctl (r.row * 8 + r.bank / 4)

/-- The pseudo-channels with uncorrectable errors in three banks (R175). -/
def State.failingPcs (s : State) : List Nat :=
  ((s.cellar.ueBanks.map (·.1)).eraseDups).filter fun k => decide (3 ≤ (s.cellar.ueBanks.filter (fun e => e.1 == k)).length)

/-- The repair list is acted on, in ascending order (R172). -/
def repairCellars (s : State) : State :=
  let rows := sortBy (fun r => (r.ctl * 32 + r.bank) * 24576 + r.row) s.cellar.repair
  let s1 := rows.foldl repairRow { s with cellar := { s.cellar with repair := [] } }
  s1.failingPcs.foldl retirePc s1

/-! ### The cellar window (R179, R180, R354, R480) -/

/-- The overflow region of the box room: its first device address and its size (R480). -/
def State.overflow (s : State) : Nat × Nat := (s.ringSize, s.alarms.ovfGib * 2 ^ 30)

/-- Whether a 64-byte line is allowed for a host read or write. -/
def State.lineAllowed (s : State) (off : Nat) (wr : Bool) : Bool :=
  let (o, n) := s.overflow
  s.cellar.windowOpen && decide (off + 64 ≤ s.populated) && decide (s.ringSize ≤ off) && !(wr && decide (o ≤ off) && decide (off < o + n))

/-- A denied request (R180, R535). -/
def denyWindow (s : State) (off : Nat) : State :=
  raiseAlarm { s with cellar := { s.cellar with winDenied := s.cellar.winDenied + 1 } } 0x0A40 0 (leBytes 8 off) false true

/-- The read of a sector through the window: it passes the corrector, and an uncorrectable one is poison (R170, R171). -/
def windowSector (acc : State × Bool) (da : Nat) : State × Bool :=
  match acc.1.sectorKey da with
  | none => acc
  | some n =>
    let k := n / sectorsPerPc
    let a := n % sectorsPerPc
    let (s1, r) := correctSector acc.1 k a
    if r = 2 then (ueAlarm s1 k a 1, true) else (s1, acc.2)

/-- A host read of a line of the cellar window: the data, or poison (none), or all ones where it is denied. -/
def windowRead (s : State) (off : Nat) : State :=
  let l := off / 64 * 64
  let put := fun (m : State) (r : Option (List Byte)) => { m with cellar := { m.cellar with lastRead := r } }
  if !s.lineAllowed l false then put (denyWindow s l) (some (List.replicate 64 0xFF))
  else
    let (s1, bad) := windowSector (windowSector (s, false) l) (l + 32)
    put s1 (if bad then none else some (s1.cellarRead l 64))

/-- A host write of a line of the cellar window. -/
def windowWrite (s : State) (off : Nat) (data : List Byte) : State :=
  let l := off / 64 * 64
  if s.lineAllowed l true then s.cellarWrite l (slice data 0 64) else denyWindow s l

/-! ### The Hatch (R176 to R178, R368) -/

/-- The area that holds an offset: an `OUT` area holds its sealed copy as well (R178). -/
def State.hatchArea (s : State) (off : Nat) : Option Area :=
  s.hatch.areas.find? fun a =>
    decide (a.offset ≤ off) && decide (off < a.offset + a.size * (if a.kind = 1 ∨ a.kind = 4 then 2 else 1))

/-- A host write to range 1, whose first 64 MiB are the Hatch; the other bytes discard writes (R176, R177, R407) (DEDUCED, log entry 47). -/
def hostHatchWrite (s : State) (off : Nat) (data : List Byte) : State :=
  if s.dev == .off || s.dev == .boot || decide (hatchSize < off + data.length) || data.isEmpty then s
  else if s.mgmt.loadedImage.isNone then hubWrite s off data
  else
    let denied := { s with cellar := { s.cellar with winDenied := s.cellar.winDenied + 1 } }
    match s.hatchArea off with
    | none => denied
    | some a =>
      if a.kind ≠ 0 ∧ a.kind ≠ 3 then denied
      else if s.inv.replay.isSome && s.runOn then denied
      else if s.inRun || s.dev == .held then
        if !s.hatch.withheld.isEmpty || decide (1048576 < s.hatch.journalBytes + data.length) then
          { s with hatch := { s.hatch with withheld := s.hatch.withheld ++ [(off, data)] } }
        else { s with hatch := { s.hatch with journal := s.hatch.journal ++ [(off, data)], journalBytes := s.hatch.journalBytes + data.length } }
      else hubWrite s off data

/-- The byte that a host read of range 1 returns: beyond the Hatch all ones (R176, R178, R407). -/
def State.hatchSeen (s : State) (off : Nat) : Byte :=
  if hatchSize ≤ off then 0xFF
  else if s.mgmt.loadedImage.isNone then spGet 0 s.hatch.bytes off else
  match s.hatchArea off with
  | none => 0
  | some a =>
    if a.kind = 0 ∨ a.kind = 3 then spGet 0 s.hatch.bytes off
    else if a.kind = 1 ∨ a.kind = 4 then spGet 0 s.hatch.bytes (a.offset + a.size + (off - a.offset) % a.size)
    else 0

/-- A host read of range 1. -/
def hostHatchRead (s : State) (off len : Nat) : State :=
  if s.dev == .off || s.dev == .boot then s
  else { s with hatch := { s.hatch with lastRead := some ((List.range len).map (fun i => s.hatchSeen (off + i))) } }

end Sys2Proof.Machine
end

