-- ==== Sys2Proof/Machine/Frames.lean ====
section
/-! DEFINITION. The events of a frame (R34 to R46, R53, R80, R85, R492): the end of the schedule, freezes, faults that end a freeze, the fault
halt, the start of a frame, and the notes of frame control, detours and resends (R42 to R45, R233, R272, R273, R494 to R496). -/

namespace Sys2Proof.Machine

open Sys2Proof

/-! ### The package as a whole -/

/-- The logical cores that the timetable uses, ascending. -/
def State.usedCores (s : State) : List Nat := (s.cores.filter (fun e => e.2.section_)).map (·.1)

/-- Bring every core to cycle `t`. -/
def settleAll (s : State) (t : Nat) : State := s.usedCores.foldl (fun m c => settle m c t) s

/-! ### The end of the schedule (R38, R53, R492) -/

/-- The checks of a core at cycle *E* − 1: `FRAME_END` was executed, and no owned flow that posted has posted too little. -/
def endChecks (s : State) (c : Nat) : State :=
  let k := s.core c
  let t := s.frame.e - 1
  if k.halted then s
  else if !k.ended then raiseCore s c 0 k.pc t { reason := 0x0105 }
  else match k.flows.find? (fun f => decide (0 < f.posted) && decide (f.posted < f.count)) with
    | some f => raiseCore s c 4 f.lastPc t { reason := 0x0503, detail := f.flow }
    | none => s

/-- A frame was executed: the wear count of every region that carried a logical region grows by one (R315) (DEDUCED, log entry 59). -/
def countWear (s : State) : State :=
  match s.mgmt.placed with
  | none => s
  | some p => { s with mgmt := { s.mgmt with wear := p.regionMap.foldl (fun m e => spSet 0 m e.2 (spGet 0 m e.2 + 1)) s.mgmt.wear } }

/-- SCHEDULE_END: cycle *E* − 1 has been executed with no freeze pending (R38). Each core is checked, and the package enters tick wait; a device that
holds proposes its tick. A check that fails faults instead (R85) (DEDUCED, log entries 36 and 59). -/
def execScheduleEnd (s : State) : Out :=
  let e := s.frame.e
  if !s.cycling || s.freeze.faultAt.isSome || s.freeze.held.isSome then .next s else
  let s1 := settleAll (s.advanceTo (s.cycleTime e)) e
  let s2 := s1.usedCores.foldl endChecks s1
  if s2.freeze.faultAt.isSome then .next s2 else
  let s4 := s2.usedCores.foldl (fun m c => m.setCore c { m.core c with progs := [] }) s2
  .next (sendReady { countWear s4 with
    frame := { s4.frame with tickWait := true, completedAt := some s4.now },
    fabric := { s4.fabric with curCycle := e } })

/-! ### Freezes (R34 to R37, R80) -/

/-- FREEZE_HALT: twelve cycles after the first request the package halts at one common index (R34), which may lie past the last cycle of the frame. A
fault halt that is due no later takes its place (DEDUCED, log entry 36). -/
def execFreezeHalt (s : State) : Out :=
  match s.freeze.held with
  | none => .next s
  | some h =>
    let first := fun (m : State) => match m.freeze.faultAt with | some f => decide (h < f) | none => true
    if !s.cycling || s.freeze.halted || !first s then .next s else
    let s0 := settleAll s h
    if !first s0 then .next s0 else
    let s1 := s0.advanceTo (s.cycleTime h)
    .next { s1 with
      freeze := { s1.freeze with halted := true, startMt := s1.now },
      fabric := { s1.fabric with freezes := s1.fabric.freezes + 1, curCycle := h } }

/-- Whether the flag of a request is clear. -/
def State.stillWaits (s : State) (r : FreezeReq) : Bool :=
  if r.arrival then !spGet false (s.core r.core).aflags r.flag else !spGet false (s.core r.core).sflags r.flag

/-- A waiting unit looks at its flag again in the first cycle after the freeze (R79). -/
def rearm (h : Nat) (s : State) (r : FreezeReq) : State :=
  let k := s.core r.core
  if r.arrival then s
  else if r.unit = 0 then s.setCore r.core { k with cyc := Nat.max k.cyc h }
  else
    let e := engineOf (r.unit - 1)
    s.setCore r.core (k.setEng e { k.eng e with occEnd := Nat.max (k.eng e).occEnd h })

/-- The causes byte of a freeze event (R479): arrival, sync, retention. -/
def FreezeNet.causeBits (f : FreezeNet) : Nat :=
  b2n (f.causes.any (·.arrival)) + 2 * b2n (f.causes.any (fun r => !r.arrival)) + 4 * b2n (decide (0 < f.retention))

/-- `n` frozen periods pass (R36). -/
def addFrozen (s : State) (n : Nat) : State :=
  { s with fabric := { s.fabric with frozenCycles := s.fabric.frozenCycles + BitVec.ofNat 64 n,
                                     frameFrozen := s.fabric.frameFrozen + BitVec.ofNat 32 n } }

/-- FREEZE_RESUME: requests whose flags are set are withdrawn; when none is left, the package goes on at the next index after `periods`
periods, at least one (R35, R36). -/
def execFreezeResume (periods : Nat) (s : State) : Out :=
  match s.freeze.held with
  | none => .next s
  | some h =>
    if !s.cycling || !s.freeze.halted then .next s else
    let s0 := settleAll s h
    let left := s0.freeze.reqs.filter s0.stillWaits
    if !left.isEmpty then .next { s0 with freeze := { s0.freeze with reqs := left } } else
    let p := Nat.max periods 1
    let s1 := addFrozen s0 p
    let first := (s1.freeze.causes.head?).elim 0 (·.core)
    let s2 := boxEvent s1 1 (leBytes 4 h ++ leBytes 4 p ++ leBytes 1 s1.freeze.causeBits ++ leBytes 4 first)
    let s3 := s2.freeze.causes.foldl (rearm h) s2
    let s4 := { s3 with freeze := { s3.freeze with held := none, halted := false, reqs := [], causes := [], retention := 0 } }
    .next (s4.advanceTo (s4.cycleTime h))

/-- FREEZE_OVER: `FRAME_FROZEN` exceeds the freeze allowance, once in a frame: counted, and up to the horizon a hold with cause 2 (R37,
R42). -/
def execFreezeOver (s : State) : Out :=
  let limit := s.fabric.freezeAllow + 1
  let sofar := s.fabric.frameFrozen.toNat
  if !s.inFrame || s.freeze.overThis || !(s.freeze.halted || decide (limit ≤ sofar)) then .next s else
  let s1 := if s.freeze.halted then s.advanceTo (s.freeze.startMt + ceilDiv ((limit - sofar) * 1000000) s.rate) else s
  let s2 := { s1 with freeze := { s1.freeze with overThis := true }, fabric := { s1.fabric with freezeOver := s1.fabric.freezeOver + 1 } }
  .next (if s2.now ≤ s2.horizon then sendHold s2 2 false else s2)

/-- The program counter of a unit at a freeze (R80). -/
def Core.unitPc (k : Core) (unit : Nat) : Nat :=
  if unit = 0 then k.pc else
  let x := k.eng (engineOf (unit - 1))
  match x.cur, x.running, x.queue with
  | some f, _, _ => f.q.pc
  | none, some f, _ => f.q.pc
  | none, none, q :: _ => q.pc
  | none, none, [] => 0xFFFF

/-- The waiting core with the lowest logical index. -/
def lowestReq : List FreezeReq → Option FreezeReq
  | [] => none
  | r :: t => match lowestReq t with
    | some q => if q.core < r.core then some q else some r
    | none => some r

/-- A fault found at a freeze, by the core and unit of a request, at the cycle of its check (DEDUCED, log entry 36). -/
def freezeFault (s : State) (r : FreezeReq) (periods source : Nat) (f : FaultRec) : State :=
  let s1 := addFrozen { s with stats := { s.stats with faults := satInc s.stats.faults } } periods
  enterFaulted s1 (s1.coreRec r.core r.unit r.pc r.cycle f) source

/-- CIRCULAR_WAIT: a freeze that only sync flags caused lasts longer than the allowance. The lowest waiting core raises 0x0201 with the declared
setter of the flag (R37, R80) (DEDUCED, log entry 36). -/
def execCircularWait (s : State) : Out :=
  match lowestReq (s.freeze.reqs.filter s.stillWaits), s.freeze.held with
  | some r, some _ =>
    if !s.cycling || !s.freeze.halted || s.freeze.causes.any (·.arrival) then .next s else
    let limit := s.fabric.freezeAllow + 1
    let s1 := s.advanceTo (s.freeze.startMt + ceilDiv (limit * 1000000) s.rate)
    let st := spGet {} (s1.core r.core).setters r.flag
    let c2 := if st.other then st.core else r.core
    .next (freezeFault s1 r limit r.core { reason := 0x0201, object := obj 4 r.flag, engine2 := st.unit, pc2 := (s1.core c2).unitPc st.unit,
                                             lcore2 := some c2 })
  | _, _ => .next s

/-- The landing entry of an arrival flag of a core (R143, R226). -/
def State.landingOf (s : State) (c f : Nat) : Option (Nat × LEntry) :=
  ((s.core c).afmap.find? (fun e => e.1 == f)).bind fun e => (s.activeVersion.landing[e.2]?).map (fun l => (e.2, l))

/-- ARRIVAL_TIMEOUT: a freeze with an arrival cause lasts longer than `ARRIVAL_LIMIT` rounds. The record gives the core, the flag, the flow, the frame
and the cycle (R37) (DEDUCED, log entry 36). -/
def execArrivalTimeout (s : State) : Out :=
  match lowestReq ((s.freeze.reqs.filter s.stillWaits).filter (·.arrival)), s.freeze.held with
  | some r, some _ =>
    if !s.cycling || !s.freeze.halted then .next s else
    let s1 := s.advanceTo (s.freeze.startMt + s.fabric.arrivalLimit * 1024)
    let flow := match s1.landingOf r.core r.flag with | some (_, l) => l.flow | none => 0
    .next (freezeFault s1 r ((s1.now - s1.freeze.startMt) * s1.rate / 1000000) r.core
      { reason := 0x0202, object := obj 5 r.flag, detail := flow })
  | _, _ => .next s

/-! ### The fault halt (R85, R86) -/

/-- The order of faults: the cycle, the logical core, and within a core the order of R63 (R86) (DEDUCED, log entry 35). -/
def FaultRec.rank (f : FaultRec) : Nat := (f.cycle * 131072 + f.lcore % 131072) * 8 + unitOrder f.engine

/-- FAULT_HALT: twelve cycles after a core fault the package halts. The first fault is latched, the device enters `FAULTED` and sends a stop note
(R45, R85, R86) (DEDUCED, log entry 35). -/
def execFaultHalt (s : State) : Out :=
  match s.freeze.faultAt with
  | none => .next s
  | some t =>
    if !s.cycling then .next s else
    let s1 := (settleAll s t).advanceTo (s.cycleTime t)
    let s2 := { s1 with fabric := { s1.fabric with curCycle := t } }
    let fs := sortBy FaultRec.rank s2.freeze.raised
    let s3 := fs.foldl (fun m f => latchFault m f f.lcore) s2
    .next (faultClose s3 ((fs.head?).elim 0 (·.reason)))

/-! ### Cycle 0 (R38, R53, R54, R131) -/

/-- A core at cycle 0 of frame `k`: ready tags, sync flags and posting counts are reset, registers, arrival flags and the stores are kept (R54, R144).
A command left in a queue stays there (DESIGN CHOICE, log entries 6 and 7). -/
def Core.startFrame (k : Core) (frame : Nat) (free : Nat) : Core :=
  let eng := fun (x : EngineState) =>
    ({ queue := x.queue.map (fun q => { q with enqCycle := 0 }), occEnd := 0, cur := none, running := none, freedAt := 0 } : EngineState)
  { k with
    pc := k.entries.getD (frame % Nat.max k.entries.length 1) 0, cyc := 0, ended := false, skip := 0, stalled := none, waitFlag := none,
    tags := [], sflags := [], sflagAt := [], uses := [], pend := [], progs := [], arms := [],
    mx := eng k.mx, vx := eng k.vx, sx := eng k.sx, nx := eng k.nx,
    flows := k.flows.map (fun f => { f with posted := 0, lastPc := 0 }), staging := [], stagingFree := some free }

/-- FRAME_START: 256 ns after the tick every region executes cycle 0 at a common index. Staging is undefined (R131): each core draws 4 KiB of
free bytes. -/
def execFrameStart (s : State) : Out :=
  if !s.inRun || !s.frame.tickTaken || !s.frame.tickWait then .next s else
  let s1 := s.advanceTo (s.frame.tick + 256)
  let s2 := s1.usedCores.foldl (fun m c => State.useFree (m.setCore c ((m.core c).startFrame m.frameIndex m.freeCtr)) 4096) s1
  .next (startControllers { s2 with
    frame := { s2.frame with tickWait := false, tickTaken := false, ranOnce := true },
    contexts := spMap {} (fun g => { g with ready := 0 }) s2.contexts, pathUses := [],
    fabric := { s2.fabric with curCycle := 0 } })

/-! ### Holds (R41 to R44, R356) -/

/-- HOLD_HORIZON: at *H* the device sends a hold note if the package is frozen, if the cycles left do not fit, or if the inventory buffer
holds more than 12 MiB (R42, R356). -/
def execHoldHorizon (s : State) : Out :=
  if !s.inFrame || s.frame.horizonDone then .next s else
  let s0 := s.advanceTo s.horizon
  let s1 := { s0 with frame := { s0.frame with horizonDone := true } }
  let e := s1.frame.e
  let c := s1.cycleAt s1.now
  let late := s1.frame.completedAt.isNone && decide (c < e) &&
    decide (s1.fabric.holdLead * 1024 < ceilDiv ((e - c) * 1000000) (floorKhz s1.clock.mode))
  let s2 := if s1.freeze.halted then sendHold s1 0 false else if late then sendHold s1 1 false else s1
  .next (if 12582912 < s2.inv.bufBytes then sendHold { s2 with inv := { s2.inv with holds := s2.inv.holds + 1 } } 4 false else s2)

/-- HOLD_TIMEOUT: no ready note follows the hold of a device within `ARRIVAL_LIMIT` rounds; it does not apply to a pause hold (R44, R421). -/
def execHoldTimeout (x y z : Nat) (s : State) : Out :=
  match s.holdsNow.find? (fun h => h.x == x && h.y == y && h.z == z && h.ready.isNone && !h.pause) with
  | none => .next s
  | some h => .next (if s.runOn then deviceFault (s.advanceTo (h.at_ + s.fabric.arrivalLimit * 1024)) 0x0203 0 else s)

/-- HOLD_NOTE: a hold note of another device is recorded; a stale one is ignored, one for a later frame is kept, and this device joins while its frame
is unfinished (R42, R43, R244) (DEDUCED, log entry 39). -/
def execHoldNote (x y z frame cause : Nat) (pause : Bool) (s : State) : Out :=
  let _ := cause
  let s1 := takeNote s 0x10 x y z
  if !s1.runOn || decide (frame < s1.holdFrame) then .next s1 else
  let same := fun (h : HoldRec) => h.x == x && h.y == y && h.z == z && h.frame == frame
  let holds := if s1.frame.holds.any same then s1.frame.holds.map (fun h => if same h then { h with pause := h.pause || pause } else h)
    else s1.frame.holds ++ [{ x, y, z, frame, pause, at_ := s1.now }]
  .next (joinHold { s1 with frame := { s1.frame with holds } })

/-- READY: a ready note proposes a tick for a frame that its sender holds (R43) (DEDUCED, log entry 39). -/
def execReady (x y z frame tick : Nat) (s : State) : Out :=
  let s1 := takeNote s 0x11 x y z
  if !s1.runOn || decide (frame < s1.holdFrame) then .next s1 else
  let holds := s1.frame.holds.map fun h =>
    if h.x == x && h.y == y && h.z == z && h.frame == frame && h.ready.isNone then { h with ready := some tick } else h
  let s2 := { s1 with frame := { s1.frame with holds } }
  .next (if frame = s2.holdFrame then checkLate s2 else s2)

/-- STOP: a stop note of another device. The device stops at the first tick not yet taken, or at once if frozen or paused (R45, R502) (DEDUCED, log
entry 39). -/
def execStop (x y z frame reason : Nat) (s : State) : Out :=
  let _ := frame
  let s0 := takeNote s 0x12 x y z
  let s1 := boxEvent s0 6 (leBytes 2 reason ++ zeros 1 ++ leBytes 1 x ++ leBytes 1 y ++ leBytes 1 z)
  if !s1.runOn || s1.frame.stopFor.isSome then .next s1 else
  let s2 := latchFault s1 (s1.deviceRec 0x0205 0) 0
  .next (if s2.freeze.halted || s2.paused then enterStopped s2 0x0205
    else { s2 with frame := { s2.frame with stopFor := some (0x0205, s2.frameIndex) } })

/-! ### Detours (R229, R233, R275) -/

/-- DETOUR: a detour note of another device: the loss union grows, and the flip falls at the largest round announced (R233). -/
def execDetour (x y z flipRound lostPort frame : Nat) (s : State) : Out :=
  let _ := frame
  let s1 := takeNote s 0x13 x y z
  .next (if s1.runOn then announceLoss s1 (s1.linkName x y z lostPort) flipRound else s1)

/-- TABLE_SET_WRITTEN: the hub's write into the inactive version completes (R229). -/
def execTableSetWritten (s : State) : Out := .next (finishWrite s)

/-- DETOUR_FLIP: at round *F* the detour plan becomes the active version, and the resend requests that waited for it are sent (R233, R272). -/
def execDetourFlip (s : State) : Out :=
  match s.fabric.flipRound with
  | none => .next s
  | some F =>
    if !s.runOn then .next s else
    let plan := s.planFor s.baseSet s.fabric.union
    let s1 := flip (finishWrite (s.advanceTo (F * 1024))) true
    .next (releaseRequests { s1 with fabric := { s1.fabric with
      detours := s1.fabric.detours + 1, detourSet := plan, flippedUnion := some s1.fabric.union, flipRound := none } })

/-! ### Resend requests (R272, R273) -/

/-- RESEND: a resend note, served from the source buffer (R273) (DEDUCED, log entry 40). -/
def execResend (x y z flow frame first count : Nat) (s : State) : Out :=
  .next (serveResend (takeNote s 0x14 x y z) flow frame first count)

/-- The maximal runs of the offsets from `i` to `i + n - 1` that have not landed: (first, count). -/
def missingRuns (landed : List Nat) : Nat → Nat → List (Nat × Nat)
  | 0, _ => []
  | n + 1, i =>
    let rest := missingRuns landed n (i + 1)
    if landed.contains i then rest else
    match rest with
    | (f, c) :: t => if f = i + 1 then (i, c + 1) :: t else (i, 1) :: rest
    | [] => [(i, 1)]

/-- The frame of a buffer's instance: `INST`, or the largest frame not above the current one with the entry's phase (R272). -/
def State.instanceFrame (s : State) (n : Nat) (l : LEntry) : Nat :=
  match (spGet {} s.land n).inst with
  | some f => f
  | none => let m := Nat.max l.pmod 1; let k := s.frameIndex; k - (k % m + m - l.phase % m) % m

/-- RESEND_WAIT_EXPIRY: a core has been frozen on an incomplete buffer for `RESEND_WAIT` rounds: one request for each maximal run of missing
offsets, at most 8 (R272). -/
def execResendWaitExpiry (c : Nat) (flag : Fin 64) (s : State) : Out :=
  onCore c s fun s =>
    if !s.cycling || !s.freeze.halted || !(s.freeze.reqs.any (fun r => r.core == c && r.arrival && r.flag == flag.val && s.stillWaits r)) then s
    else match s.landingOf c flag with
    | none => s
    | some (n, l) =>
      let s1 := s.advanceTo (s.freeze.startMt + s.fabric.resendWait * 1024)
      let frame := s1.instanceFrame n l
      ((missingRuns (spGet {} s1.land n).landed l.count 0).take 8).foldl (fun m r => requestResend m l.flow frame r.1 r.2) s1

/-! ### Routed notes (R239, R241, R244) -/

/-- ROUTED_NOTE_RECEIVE: a routed note enters the store of a torus port that is `UP` (R237 to R239). -/
def execRoutedNoteReceive (p : Nat) (n : RNote) (s : State) : Out :=
  onPort p s fun s => if p < 6 && s.portUp p then receiveNote s p n else s

/-- A gap of one source and kind is passed over: the next note held is delivered (R241). -/
def passGap (s : State) (x y z : Nat) (bc : Bool) : State :=
  let r := s.noteSrc x y z bc
  match r.gapAt, sortBy (fun n => ((BitVec.ofNat 16 n.seq) - r.next).toNat) r.held with
  | some t, n :: _ =>
    let s1 := raiseAlarm (s.advanceTo ((t + s.fabric.arrivalLimit) * 1024)) 0x0529 0
    let (s2, r2) := releaseHeld 64 s1 { r with next := BitVec.ofNat 16 n.seq }
    State.setNoteSrc { s2 with fabric := { s2.fabric with noteGaps := s2.fabric.noteGaps + 1 } }
      { r2 with gapAt := if r2.held.isEmpty then none else some s2.round }
  | _, _ => s

/-- NOTE_GAP: a gap in the notes of a source stays for `ARRIVAL_LIMIT` rounds and is passed over (R241). -/
def execNoteGap (x y z : Nat) (s : State) : Out := .next (passGap (passGap s x y z false) x y z true)

/-- FO_MSG: a complete fabric-owner message is taken, inventoried and kept for the next intake (R244, R349, R433). -/
def execFoMsg (x y z : Nat) (msg : List Byte) (s : State) : Out :=
  if s.dev = .off ∨ s.dev = .boot then .next s else
  let s1 := State.updateXoff { s with noteIn := s.noteIn.filter (fun n => !(n.ntype == 0x30 && n.srcX == x && n.srcY == y && n.srcZ == z)) }
  let s2 := recordOrStop s1 5 s1.frameIndex 0 (x + 256 * y + 65536 * z) msg false
  .next { s2 with cmd := { s2.cmd with foMsgs := s2.cmd.foMsgs ++ [(x, y, z, msg)] } }

end Sys2Proof.Machine
end

