-- ==== Sys2Proof/Machine/UnloadOps.lean ====
section
/-! DEFINITION. The entry to `IDLE` and the unloading of a job (R172, R179, R315, R422, R430), and writes to host memory (R363). -/

namespace Sys2Proof.Machine

open Sys2Proof

/-- Bytes written to host memory through CXL.cache. -/
def hostWrite (s : State) (addr : Nat) (bs : List Byte) : State := { s with hostOut := s.hostOut ++ [(addr, bs)] }

/-- The wear counts are written to the settings store where they have changed (R315, R453). -/
def storeWear (s : State) : State := if s.mgmt.wear = s.settingsInForce.wear then s else deviceCommit s

/-- The counters of the fabric owner's keys are written to the settings store where they have changed (R430, R453). -/
def storeCounters (s : State) : State := if s.sec.foCounters = s.settingsInForce.counters then s else deviceCommit s

/-- What the device does as it enters `IDLE`: the window opens, the repair list is acted on, and counters are stored (R172, R179, R315,
R430). -/
def enterIdle (s : State) : State :=
  let s1 := setDev { s with cellar := { s.cellar with windowOpen := true } } .idle
  repairCellars (storeCounters (storeWear s1))

/-- The job entries of a version are cleared; its transit entries stay (R263). -/
def TableVersion.clearJob (v : TableVersion) : TableVersion := { v with tx := [], xbar := [], landing := [], set := none }

/-- The timetable is discarded: its tables, areas, programs and sections (R422). -/
def clearJob (s : State) : State :=
  { s with
    verA := s.verA.clearJob, verB := s.verB.clearJob, land := [],
    cores := spMap {} (fun k => { k with section_ := false, owner := false, entries := [], setters := [], afmap := [], flows := [] }) s.cores,
    hatch := { s.hatch with areas := [] },
    mgmt := { s.mgmt with loadedImage := none },
    streams := { s.streams with positions := 0, nclass := 0 },
    fabric := { s.fabric with frameRounds := 0, budget := 0, staged := none, writing := none, flipRound := none },
    cellar := { s.cellar with ctls := spMap {} (fun x => { x with programs := [] }) s.cellar.ctls },
    frame := { s.frame with ranOnce := false, stopped := false, e := 0 } }

/-- `ABORT` with `UNLOAD`: the timetable and the placement are discarded, and the device enters `IDLE` (R422). -/
def unloadJob (s : State) : State :=
  let s1 := clearJob s
  enterIdle { s1 with mgmt := { s1.mgmt with placed := none } }

end Sys2Proof.Machine
end

