-- ==== Sys2Proof/Machine/FoCmds.lean ====
section
/-! DEFINITION. The commands of the fabric owner: SET_SLICE (R255 to R258, R424), LOAD_TRANSIT (R425), PORT_CONTROL (R202, R426) and DISCOVER
(R203, R249, R427). -/

namespace Sys2Proof.Machine

open Sys2Proof

/-! ### SET_SLICE -/

/-- `SLICE_PERMIT` of every port from byte `a` of the parameters (R424). -/
def applyPermits (s : State) (k : Packet) (a : Nat) : State :=
  s.portList.foldl (fun m p => m.modPort p fun q => { q with permit := BitVec.ofNat 256 (k.par (a + 32 * p) 32) }) s

/-- A machine extent (R254). -/
def extentOk (e : Nat) : Bool := e == 4 || e == 8 || e == 12 || e == 16

/-- Whether the ranges of R424 and the coordinate bits of R256 are kept. -/
def sliceRanges (s : State) (k : Packet) : Bool :=
  let coord := fun (i : Nat) => decide (k.par i 1 ≤ 15)
  let extent := fun (i : Nat) => decide (1 ≤ k.par i 1) && decide (k.par i 1 ≤ 16)
  let base := k.par 28 4
  coord 18 && coord 19 && coord 20 && extent 21 && extent 22 && extent 23 && extentOk (k.par 24 1) && extentOk (k.par 25 1)
    && extentOk (k.par 26 1) && decide (1 ≤ k.par 27 1) && decide (k.par 27 1 ≤ 8) && decide (base < 2 ^ 20)
    && decide (base + k.par 32 4 ≤ 2 ^ 20)
    && (match s.plan with
      | none => false
      | some w => k.par 24 1 == w.extX && k.par 25 1 == w.extY && k.par 26 1 == w.extZ && bit (k.par 17 1) 3 == w.wrapX
          && bit (k.par 17 1) 4 == w.wrapY && bit (k.par 17 1) 5 == w.wrapZ)

/-- Whether the plan joins a torus port to the neighbour at coordinates (x, y, z). -/
def State.joined (s : State) (p : Nat) (n : List Nat) : Bool :=
  match s.planEntry p with
  | some e => triple e.x e.y e.z == n
  | none => false

/-- One axis of R255, R257 and R258: own coordinates, axis, machine extent and wrap, slice origin, extent and wrap. The links between
neighbours of the slice that this device has must be joined, the slice must not pass an open edge, and a wrap must close through direct
links. -/
def axisOk (s : State) (own : List Nat) (i e : Nat) (mwrap : Bool) (o n : Nat) (wrap : Bool) : Bool :=
  let c := own.getD i 0
  let r := (c + e - o % e) % e
  let at_ := fun (v : Nat) => own.set i v
  let up := s.joined (2 * i) (at_ ((c + 1) % e))
  let down := s.joined (2 * i + 1) (at_ ((c + e - 1) % e))
  let inside := (if r + 1 < n then up else true) && (if 0 < r ∧ r < n then down else true)
  let edge := mwrap || decide (o + n ≤ e)
  let closes := (n == e && mwrap) ||
    (o % 4 == 0 && n % 4 == 0 && (if r + 1 = n then s.joined (2 * i) (at_ (o % e)) else true)
      && (if r = 0 then s.joined (2 * i + 1) (at_ ((o + n - 1) % e)) else true))
  inside && edge && (!wrap || closes)

/-- Whether the slice of the parameters is one that R255 and R258 allow (DEDUCED, log entry 57). -/
def sliceShapeOk (s : State) (k : Packet) : Bool :=
  let own := triple s.coords.1 s.coords.2.1 s.coords.2.2
  (List.range 3).all fun i =>
    axisOk s own i (k.par (24 + i) 1) (bit (k.par 17 1) (3 + i)) (k.par (18 + i) 1) (k.par (21 + i) 1) (bit (k.par 17 1) i)

/-- The sync tree position (R390, R391): a time root enters `LOCKED` directly (DEDUCED, log entry 57). -/
def applySyncCfg (s : State) (v : Nat) : State :=
  let s1 := { s with time := { s.time with
    parent := bits v 4 0, root := bit v 8, sameRef := bit v 9, utcSteer := bit v 10,
    depth := if bit v 8 ∧ s.time.mtState = .locked then 0 else s.time.depth } }
  if s1.time.root && s1.time.mtState == .acquire then acquireMt s1 else s1

/-- The sequences of the notes restart at 0 (R241). -/
def restartNotes (s : State) : State := { s with noteSeqs := [], noteSrcs := [] }

/-- The values of `SET_SLICE` take effect (DEDUCED, log entry 57). -/
def applySlice (s : State) (k : Packet) : State :=
  let f := s.fabric
  let id := k.par 16 1
  let f1 : Fabric := if id = 0 then { f with slice := 0 } else
    { f with
      slice := id, sizeX := k.par 21 1, sizeY := k.par 22 1, sizeZ := k.par 23 1, x0 := k.par 18 1, y0 := k.par 19 1, z0 := k.par 20 1,
      wrapX := bit (k.par 17 1) 0, wrapY := bit (k.par 17 1) 1, wrapZ := bit (k.par 17 1) 2, holdLead := k.par 27 1,
      flowBase := k.par 28 4, flowCount := k.par 32 4 }
  restartNotes (applySyncCfg (applyPermits { s with fabric := f1 } k 48) (k.par 36 4))

/-- `SET_SLICE` (DEDUCED, log entry 57). -/
def cSetSlice : Cmd := {
  opcode := 0x70, allowed := [.idle], owner := true
  run := fun k s =>
    let id := k.par 16 1
    let par := bits (k.par 36 4) 4 0
    if k.plen < 736 + 3344 ∨ !(par == 31 || portExists s.variant par) then refuse s stBadParam 0
    else if id ≠ 0 ∧ !sliceRanges s k then refuse s stBadParam 0
    else if id ≠ 0 ∧ !sliceShapeOk s k then refuse s stRejected 0x0921
    else okWith (applySlice s k) [] }

/-! ### LOAD_TRANSIT -/

/-- The transmit entries of the parameters in port order, 8 bytes each from byte `a`: counts per port from port `p` on. -/
def transitTx (k : Packet) : List Nat → Nat → Nat → List (Option TEntry)
  | [], _, _ => []
  | n :: t, p, a => (List.range n).map (fun i => decodeT p (k.par (a + 8 * i) 8)) ++ transitTx k t (p + 1) (a + 8 * n)

/-- `LOAD_TRANSIT`: the plan is checked, the permits apply, and the entries are replaced at the next slot-round boundary (R499). -/
def cLoadTransit : Cmd := {
  opcode := 0x71, allowed := anyState, owner := true
  run := fun k s =>
    let nx := k.par 20 4
    let counts := (List.range 22).map (fun p => k.par (24 + 4 * p) 4)
    let nt := counts.sum
    if k.par 16 1 ≠ 1 ∨ 1 < k.par 17 1 ∨ k.plen ≠ 800 + 8 * (nt + nx) + 3344 then refuse s stBadParam 0
    else match allSome (transitTx k counts 0 816), allSome ((List.range nx).map (fun i => decodeX (k.par (816 + 8 * (nt + i)) 8))) with
      | some tx, some xb =>
        let v := k.par 17 1 == 1
        let r := transitReason s v tx xb
        if r ≠ 0 then refuse s stRejected r
        else okWith (applyPermits { s with transit := some (v, tx, xb) } k 112) []
      | _, _ => refuse s stBadParam 0 }

/-! ### PORT_CONTROL -/

/-- A port that the active epoch does not use leaves its link: its stores are emptied, and it goes to a state (DEDUCED, log entry 62). -/
def closePort (s : State) (p : Nat) (st : PortState) : State :=
  let s1 := (setPortState s p st).modPort p fun q => { q with
    departure := [], retry := [], resends := [], naks := [], localNotes := [], outNotes := [], store := [], width := 0, tries := 0 }
  if p = s1.time.parent then mtLost s1 else s1

/-- A port is disabled: where the active epoch uses it, as a down event (R202). -/
def disablePort (s : State) (p : Nat) : State :=
  let s1 := s.modPort p fun q => { q with disableAtTick := false }
  if s1.runOn && s1.epochUses p then portGoesDown s1 p .disabled else closePort s1 p .disabled

/-- The ports whose disable waits for this tick (DEDUCED, log entries 57 and 81). -/
def disableAtTick (s : State) : State :=
  (s.portList.filter (fun p => (s.port p).disableAtTick)).foldl disablePort s

/-- The actions of `PORT_CONTROL` (R426). A disable outside a run, where no tick comes, acts at once. -/
def portAction (s : State) (p action : Nat) (force : Bool) : Verdict :=
  let uses := s.runOn && s.epochUses p
  if action = 0 then
    if uses && !force then refuse s stRejected 0x0518
    else if s.runOn then okWith (s.modPort p fun q => { q with disableAtTick := true }) []
    else okWith (disablePort s p) []
  else if action = 1 then
    let q := s.port p
    if q.state = .disabled ∨ q.state = .off ∨ !q.enable then
      okWith (setPortState (s.modPort p fun q => { q with enable := true, disableAtTick := false }) p .training) []
    else okWith (s.modPort p fun q => { q with disableAtTick := false }) []
  else if uses && !force then refuse s stRejected 0x0518
  else if uses then okWith (portGoesDown s p .down) []
  else okWith (closePort s p .training) []

/-- `PORT_CONTROL` (DEDUCED, log entry 57). -/
def cPortControl : Cmd := {
  opcode := 0x72, allowed := anyState, owner := true
  run := fun k s =>
    let p := k.par 16 1
    if !portExists s.variant p || decide (2 < k.par 17 1) then refuse s stBadParam 0
    else portAction s p (k.par 17 1) (bit (k.par 18 1) 0) }

/-! ### DISCOVER -/

/-- A plan entry of R203 at byte `a` of the parameters. -/
def planEntryAt (k : Packet) (a : Nat) : PlanEntry :=
  { port := k.par a 1, sigReq := bit (k.par (a + 1) 1) 0, valid := bit (k.par (a + 1) 1) 1, serial := k.par (a + 2) 8, x := k.par (a + 10) 1,
    y := k.par (a + 11) 1, z := k.par (a + 12) 1, peerPort := k.par (a + 13) 1, slice := k.par (a + 14) 1, keydig := k.bytes (a + 16) 32 }

/-- The wiring plan of the parameters. -/
def planOf (k : Packet) : WiringPlan :=
  { x := k.par 18 1, y := k.par 19 1, z := k.par 20 1, slice := k.par 21 1, serial := k.par 24 8, extX := k.par 32 1, extY := k.par 33 1,
    extZ := k.par 34 1, wrapX := bit (k.par 35 1) 0, wrapY := bit (k.par 35 1) 1, wrapZ := bit (k.par 35 1) 2,
    entries := (List.range (k.par 17 1)).map (fun i => planEntryAt k (48 + 64 * i)) }

/-- Whether the extents of a plan are allowed and its coordinates lie within them (R203, R237, R256). -/
def WiringPlan.ok (w : WiringPlan) : Bool :=
  let inside := fun (x y z : Nat) => decide (x < w.extX) && decide (y < w.extY) && decide (z < w.extZ)
  extentOk w.extX && extentOk w.extY && extentOk w.extZ && inside w.x w.y w.z &&
    w.entries.all (fun e => !e.valid || inside e.x e.y e.z)

/-- `DISCOVER`: the plan is loaded, and every port in discovery or later sends its identity again (R204) (DEDUCED, log entry 57). -/
def cDiscover : Cmd := {
  opcode := 0x73, allowed := [.idle], owner := true
  run := fun k s =>
    let n := k.par 17 1
    let w := planOf k
    if k.par 16 1 ≠ 1 ∨ 22 < n ∨ k.plen ≠ 32 + 64 * n + 3344 ∨ w.serial ≠ s.serial.toNat ∨ !w.ok then refuse s stBadParam 0
    else if w.x % 2 ≠ s.boardPos.toNat % 2 ∨ w.y % 2 ≠ s.boardPos.toNat / 2 then refuse s stBadParam 0x0920
    else
      let s1 := { s with plan := some w }
      okWith ((s1.portList.filter (fun p => (s1.port p).talks)).foldl (fun m p =>
        sendIdentity (m.modPort p fun q => { q with signed := false, planMatch := false, keyPieces := [], sigPieces := [] }) p true) s1) [] }

/-! ### The rows -/

/-- SET_SLICE. -/
def execSetSlice (k : Packet) (s : State) : Out := hostCommand cSetSlice k s
/-- LOAD_TRANSIT. -/
def execLoadTransit (k : Packet) (s : State) : Out := hostCommand cLoadTransit k s
/-- PORT_DISABLE: `PORT_CONTROL` with action 0. -/
def execPortDisable (k : Packet) (s : State) : Out := hostCommand cPortControl (k.withByte 17 0) s
/-- PORT_ENABLE: `PORT_CONTROL` with action 1. -/
def execPortEnable (k : Packet) (s : State) : Out := hostCommand cPortControl (k.withByte 17 1) s
/-- PORT_RETRAIN: `PORT_CONTROL` with action 2. -/
def execPortRetrain (k : Packet) (s : State) : Out := hostCommand cPortControl (k.withByte 17 2) s
/-- DISCOVER (DEDUCED, log entry 49). -/
def execDiscover (k : Packet) (s : State) : Out := hostCommand cDiscover k s

end Sys2Proof.Machine
end

