-- ==== Sys2Proof/Machine/TimeRows.lean ====
section
/-! DEFINITION. The events of time (R389 to R400): sync notes, holdover, IEEE 1588, PPS, the reference clocks and the error bound. -/

namespace Sys2Proof.Machine

open Sys2Proof

/-- Receipt of a `SYNC` note at `arrival`, in 1/65,536 ns of own machine time (R391 to R396) (DEDUCED, log entry 94). -/
def receiveSync (s : State) (p : Nat) (b : List Byte) (arrival : Nat) : State :=
  let q := s.port p
  if !q.talks || q.state != .up then s else
  let t1 := le b 0 8 * 65536 + le b 8 2
  let sseq := le b 10 2
  let t4 := le b 12 8 * 65536 + le b 20 2
  let rxseq := le b 22 2
  let skipped := q.peerSseq.toNat != 0xFFFF && (q.peerSseq + 1).toNat != sseq
  let ownSkipped := q.peerRxseq.toNat != 0xFFFF && (q.peerRxseq + 1).toNat != rxseq
  let mine := decide (rxseq ≠ 0xFFFF) && rxseq == (q.ssent - 1).toNat
  let s1 := s.setPort p { q with peerSseq := BitVec.ofNat 16 sseq, peerRxseq := BitVec.ofNat 16 rxseq, peerArrival := arrival }
  if p ≠ s.time.parent || s.time.root then s1 else
  let s2 := { s1 with time := { s1.time with parentErrb := le b 26 2 } }
  if !bit (le b 25 1) 0 then mtLost s2
  else if skipped || ownSkipped || !mine then s2
  else
    let a : Int := (q.peerPhyTx.toNat : Int) + q.phyRx.toNat - q.phyTx.toNat - q.peerPhyRx.toNat - q.cableAsym.toInt
    let theta : Int := (((arrival : Int) - t1) - ((t4 : Int) - q.sTxTime) - a) / 2
    let d := le b 24 1
    mtMeasure { s2 with time := { s2.time with depth := if d < 0xFF then d + 1 else 0xFF } } theta

/-- SYNC: a sync note on a port; on the parent port it measures and corrects machine time (R393 to R396). -/
def execSync (p : Nat) (body : List Byte) (arrival : Nat) (s : State) : Out := onPort p s fun s => receiveSync s p body arrival

/-- HOLDOVER_EXPIRY: machine time has been in holdover for longer than `HOLDOVER_MAX` during a run, which stops with 0x0B03 (R395). -/
def execHoldoverExpiry (s : State) : Out :=
  .next (if s.time.mtState = .holdover ∧ s.runOn then stopNow (s.advanceTo (s.time.holdoverAt + s.time.holdoverMax * 1000000)) 0x0B03 else s)

/-- TIME_ERR_EXCEEDED: the error bound is above the crate's `TIME_ERR` while a timetable is loaded (R396). -/
def execTimeErrExceeded (s : State) : Out :=
  let e := s.errNow
  .next (match s.mgmt.crate with
    | some c => if s.ttLoaded && decide (c.timeErr < e) then
        raiseAlarm { s with time := { s.time with errBound := e } } 0x0B04 0 [] false true else s
    | none => s)

/-! ### IEEE 1588 (R397) -/

/-- The ingest port of the time-receiver (R401). -/
def ptpPortIndex (n : Nat) : Nat := if n < 2 then 9 + n else 18 + n

/-- Whether the time-receiver listens on a port. -/
def State.ptpOn (s : State) (p : Nat) : Bool :=
  s.time.ptpEn && p == ptpPortIndex s.time.ptpPort && (s.port p).ethernet && (s.port p).state == .up

/-- The best of the foreign time-transmitters: the lowest priority, then the lowest identity. -/
def bestMaster (l : List (Nat × Nat × Nat × Bool)) : Option (Nat × Nat × Nat × Bool) :=
  leastBy (fun m => m.2.1 * 2 ^ 64 + m.1 % 2 ^ 64) l

/-- Select the time-transmitter; `UTC_OFFSET` follows its Announce where valid. -/
def selectMaster (s : State) : State :=
  match bestMaster s.time.masters with
  | none => { s with time := { s.time with master := none } }
  | some (g, _, off, ok) =>
    { s with time := { s.time with
        master := some g, utcOffset := if ok then off else s.time.utcOffset, utcOffsetValid := s.time.utcOffsetValid || ok } }

/-- A message of the time-receiver's port (DEDUCED, log entry 51). -/
def ptpReceive (s : State) (p : Nat) : PtpMsg → State
  | .announce g prio off ok =>
    let l := s.time.masters
    let l1 := if l.any (fun m => m.1 == g) then l.map (fun m => if m.1 = g then (g, prio, off, ok) else m)
      else if l.length < 4 then l ++ [(g, prio, off, ok)] else l
    selectMaster { s with time := { s.time with masters := l1 } }
  | .sync d => if s.time.master.isSome then ltMeasure s (d - s.time.ptpDelay - (s.port p).cableAsym.toInt / 65536) else s
  | .delayResp d => { s with time := { s.time with ptpDelay := d } }
  | .pdelayReq => s
  | .other => { s with time := { s.time with ptpDiscards := s.time.ptpDiscards + 1 } }

/-- PTP_MESSAGE: an IEEE 1588 message at the time-receiver. A Sync carries the difference of its time stamps, of which the path delay and the
port's asymmetry are taken off; it corrects local time. A request of the link partner is answered, which changes no state (R397). -/
def execPtpMessage (p : Nat) (m : PtpMsg) (s : State) : Out := onPort p s fun s => if s.ptpOn p then ptpReceive s p m else s

/-- PTP_ANNOUNCE_TIMEOUT: the selected time-transmitter is lost; another is selected, and with none local time is in holdover (R395, R397). -/
def execPtpAnnounceTimeout (s : State) : Out :=
  match s.time.master with
  | none => .next s
  | some g =>
    let s1 := selectMaster { s with time := { s.time with masters := s.time.masters.filter (fun m => m.1 != g) } }
    .next (if s1.time.master.isNone then ltHoldover s1 0x0B02 else s1)

/-- DELAY_REQ: the time-receiver sends its own Delay_Req or Pdelay_Req, which changes no state of the package (R397). -/
def execDelayReq (s : State) : Out := .next s

/-! ### PPS (R398, R399) -/

/-- The offset of local time from its nearest whole second. -/
def State.secondOffset (s : State) : Int :=
  let r := s.localTime % 1000000000
  if r < 500000000 then r else r - 1000000000

/-- PPS_IN_EDGE: a rising edge is time-stamped and counted; it applies a waiting `TIME_SET_UTC`, and may discipline local time (R398, R399). -/
def execPpsInEdge (s : State) : Out :=
  let t := s.time
  let s1 := if t.ppsInEn then
      { s with time := { t with ppsInTs := BitVec.ofNat 64 (wrap 64 s.localTime), ppsInCount := t.ppsInCount + 1 } } else s
  .next (match t.ppsWait with
    | some (utc, off, seq) =>
      let s2 := { s1 with time := { s1.time with ppsWait := none } }
      let (s3, r) := applyUtc s2 utc off
      postReply s3 seq (if r = 0 then stOk else stRejected) r []
    | none => if t.ppsInEn && t.ppsInDisc && s1.ltValid then ltMeasure s1 s1.secondOffset else s1)

/-- PPS_MISSING: no edge came for 2 s after a `TIME_SET_UTC` that waits for one, which is refused with 0x0B06 (R398). -/
def execPpsMissing (s : State) : Out :=
  .next (match s.time.ppsWait with
    | some (_, _, seq) =>
      let s1 := s.advanceTo (s.now + 2000000000)
      postReply { s1 with time := { s1.time with ppsWait := none } } seq stRejected 0x0B06 []
    | none => s)

/-- PPS_OUT_EDGE: the output rises at the next whole second of its timescale, and falls `WIDTH` µs later (R399). -/
def execPpsOutEdge (s : State) : Out :=
  if !s.time.ppsOutEn then .next { s with pins := { s.pins with ppsOut := false } }
  else if s.pins.ppsOut then
    let s1 := s.advanceTo (s.now + s.time.ppsWidth * 1000)
    .next { s1 with pins := { s1.pins with ppsOut := false } }
  else
    let r := if s.time.ppsOutSrc then s.now % 1000000000 else (s.localTime % 1000000000).toNat
    let s1 := s.advanceTo (s.now + (1000000000 - r) % 1000000000)
    .next { s1 with pins := { s1.pins with ppsOut := true } }

/-! ### Reference clocks (R388) and registers (R389, R390) -/

/-- REFCLK_LOSS: of REFCLK_TIME both layers enter holdover; of REFCLK_SYS every Dexdin port loses lock and goes down; alarm 0x0B05 (R388) (DESIGN
CHOICE, log entry 4). -/
def execRefclkLoss (r : RefClock) (s : State) : Out :=
  match r with
  | .time =>
    if !s.time.refTime then .next s else
    .next (raiseAlarm (ltHoldover (mtHoldover { s with time := { s.time with refTime := false } }) 0) 0x0B05 0)
  | .sys =>
    if !s.time.refSys then .next s else
    let s1 := raiseAlarm { s with time := { s.time with refSys := false } } 0x0B05 0
    .next (s1.portList.foldl (fun m p => if (m.port p).talks then portGoesDown m p .down else m) s1)

/-- REFCLK_RESTORE: a clock is declared restored; ports train again and the time layers return by their measurements (R388, R395). -/
def execRefclkRestore (r : RefClock) (s : State) : Out :=
  match r with
  | .time => .next { s with time := { s.time with refTime := true } }
  | .sys => .next { s with time := { s.time with refSys := true } }

/-- REACQUIRE: a write of `MT_CTRL.REACQUIRE`; it is ignored while a timetable is loaded (R390). -/
def execReacquire (s : State) : Out :=
  .next (if s.ttLoaded || s.dev == .off || s.dev == .boot then s else acquireMt s)

/-- MT_NS_READ: a read of `MT_NS` latches `MT_FRAC` (R389). -/
def execMtNsRead (s : State) : Out := .next { s with time := { s.time with mtFracLatch := s.time.mtFrac } }

/-! ### The 1 GHz tick (R389, R394) -/

/-- What one tick adds to machine time, in 2^-32 ns: 2^32 × (1 + ρ + σ), rounded, with σ of ±50 × 10^-6 toward a pending offset (DEDUCED, log entry
82). -/
def Time.mtInc (t : Time) : Int :=
  2 ^ 32 + (t.rho + 128) / 256 + drained t.pendingOff 1

/-- One tick of the 1 GHz clock, which runs once the device has left `OFF`. The model lets one pass where no command waits (DESIGN CHOICE, log entry
11) (DEDUCED, log entry 82). -/
def idleTick (s : State) : State :=
  if s.dev = .off then s else
  let v : Nat := (((s.time.mtNs.toNat * 2 ^ 32 + s.time.mtFrac.toNat : Nat) : Int) + s.time.mtInc).toNat
  { s with time := { s.time.pass 1 with mtNs := BitVec.ofNat 64 (v / 2 ^ 32), mtFrac := BitVec.ofNat 32 v } }

end Sys2Proof.Machine
end

