-- ==== Sys2Proof/Machine/Registers.lean ====
section
/-! DEFINITION. Writes of the registers of BAR0 (R8, R50, R181, R211, R212, R246, R279, R376, R401, R402, R406, R409, R445, R490, R525): the
access code, the range and the states in which a register may be written. A write outside the range of a field leaves that field alone. -/

namespace Sys2Proof.Machine

open Sys2Proof

/-- A field after a write: the value, or the old one where the value lies outside the range. -/
def inRange (lo hi old v : Nat) : Nat := if lo ≤ v ∧ v ≤ hi then v else old

/-- Every image is invalidated (R306, R354, R480) (DEDUCED, log entry 60). -/
def invalidateImages (s : State) : State := { s with mgmt := { s.mgmt with images := [], verified := false } }

/-! ### Registers that a settings entry may load as well (R451) -/

/-- `FABRIC.FRAME_CFG`: the guard (R50) (DEDUCED, log entry 60). -/
def writeFrameCfg (v : Nat) (s : State) : State :=
  { s with fabric := { s.fabric with guardPm := inRange 5 100 s.fabric.guardPm (bits v 22 16) } }

/-- `FABRIC.FREEZE_ALLOW` (R50). -/
def writeFreezeAllow (v : Nat) (s : State) : State :=
  { s with fabric := { s.fabric with freezeAllow := inRange 256 65536 s.fabric.freezeAllow (bits v 16 0) } }

/-- `FABRIC.ARRIVAL_LIMIT` (R50). -/
def writeArrivalLimit (v : Nat) (s : State) : State :=
  { s with fabric := { s.fabric with arrivalLimit := inRange 16 65535 s.fabric.arrivalLimit (bits v 15 0) } }

/-- `FABRIC.RESEND_CFG` (R279). -/
def writeResendCfg (v : Nat) (s : State) : State :=
  { s with fabric := { s.fabric with resendWait := inRange 1 64 s.fabric.resendWait (bits v 7 0) } }

/-- `RESETC.RST_CFG` (R445). -/
def writeRstCfg (v : Nat) (s : State) : State :=
  { s with resets := { s.resets with
      wdogMs := inRange 100 60000 s.resets.wdogMs (bits v 31 16), quiesce10us := inRange 1 255 s.resets.quiesce10us (bits v 15 8),
      ldnCore := bit v 1, hotCore := bit v 0 } }

/-- `CELLAR.RET_CFG` (R181). -/
def writeRetCfg (v : Nat) (s : State) : State :=
  { s with cellar := { s.cellar with
      quietNs := inRange 160 300 s.cellar.quietNs (bits v 24 16), ageNs := inRange 1000 1600 s.cellar.ageNs (bits v 10 0) } }

/-- `CELLAR.CE_ROW_LIMIT` (R181). -/
def writeCeRowLimit (v : Nat) (s : State) : State :=
  { s with cellar := { s.cellar with ceRowLimit := inRange 1 255 s.cellar.ceRowLimit (bits v 7 0) } }

/-- `TIME.JUMP_NS` (R401). -/
def writeJumpNs (v : Nat) (s : State) : State := { s with time := { s.time with jumpNs := inRange 100 1000000 s.time.jumpNs (bits v 19 0) } }

/-- `TIME.HOLDOVER_MAX` (R401). -/
def writeHoldoverMax (v : Nat) (s : State) : State :=
  { s with time := { s.time with holdoverMax := inRange 1 60000 s.time.holdoverMax (bits v 15 0) } }

/-- `TIME.PTP_CFG` (R401): a port that the variant does not have and transport 3 are ignored. -/
def writePtpCfg (v : Nat) (s : State) : State :=
  let p := bits v 2 1
  let t := bits v 5 4
  { s with time := { s.time with
      ptpDomain := bits v 15 8, ptpTransport := if t = 3 then s.time.ptpTransport else t, ptpP2p := bit v 3,
      ptpPort := if portExists s.variant (ptpPortIndex p) then p else s.time.ptpPort, ptpEn := bit v 0 } }

/-- `TIME.PPS_CFG` (R401). -/
def writePpsCfg (v : Nat) (s : State) : State :=
  { s with time := { s.time with
      ppsWidth := inRange 10 500000 s.time.ppsWidth (bits v 27 8), ppsInDisc := bit v 3, ppsInEn := bit v 2, ppsOutSrc := bit v 1,
      ppsOutEn := bit v 0 } }

/-- `CLOCK.DITHER` (R402). -/
def writeDither (v : Nat) (s : State) : State :=
  { s with clock := { s.clock with
      ditherPeriod := inRange 10 10000 s.clock.ditherPeriod (bits v 23 8), ditherAmp := inRange 0 10 s.clock.ditherAmp (bits v 3 0) } }

/-- `STATS.PIN_SLEW` (R525). -/
def writePinSlew (v : Nat) (s : State) : State := { s with stats := { s.stats with pinSlew := BitVec.ofNat 32 (bits v 11 0) } }

/-- `INVENTORY.INV_CFG` (R376): the limit and the digest-only bit. -/
def writeInvCfg (v : Nat) (s : State) : State :=
  { s with inv := { s.inv with smallKib := inRange 1 64 s.inv.smallKib (bits v 23 16), digestOnly := bit v 0 } }

/-- The fields of `PORTS.PORT_CFG` (R211): only an ingest port has a mode; a mode of 3 and a reach above 3 are ignored (DEDUCED, log entry 62). -/
def Port.withCfg (q : Port) (p v : Nat) : Port :=
  let m := bits v 29 28
  { q with
    pmode := if isIngest p && m != 3 then m else q.pmode, precode := bit v 25, retryEn := bit v 24,
    reach := inRange 0 3 q.reach (bits v 23 20), preset := bits v 19 16, enable := bit v 12, flightDecl := bits v 11 0 }

/-- The part of `PORT_CFG` that the link is trained with. -/
def Port.linkCfg (q : Port) : Nat × Bool × Nat × Nat × Bool := (q.pmode, q.precode, q.reach, q.preset, q.enable)

/-- `PORTS.PORT_CFG`: a port whose profile changes retrains, and one that is no longer enabled is off (R211, R451). A disabled port stays so (DEDUCED,
log entry 62). -/
def writePortCfg (p v : Nat) (s : State) : State :=
  let q := s.port p
  let s1 := s.modPort p (fun q => q.withCfg p v)
  let q1 := s1.port p
  if q1.linkCfg = q.linkCfg ∨ q.state = .disabled then s1
  else if q1.enable then closePort s1 p .training
  else if q.state = .off then s1 else closePort s1 p .off

/-- The Ethernet identity of an ingest port (R212). -/
def writeEth (p : Nat) (f : Port → Port) (s : State) : State := if isIngest p then s.modPort p f else s

/-- `BR_CFG.OVF_GIB` (R480): a change empties the overflow region and invalidates every image. -/
def writeOvfGib (g : Nat) (s : State) : State :=
  if 32 < g ∨ g = s.alarms.ovfGib then s else invalidateImages { s with alarms := { s.alarms with ovfGib := g } }

/-! ### Registers with rules of their own -/

/-- `CMDWIN.CMD_CFG` (R409): the slots are fixed while `EN` is 1; setting `EN` starts both rings again. -/
def writeCmdCfg (v : Nat) (s : State) : State :=
  let c := s.cmd
  let on := bit v 0
  let c1 := { c with log2Slots := if c.en then c.log2Slots else inRange 6 10 c.log2Slots (bits v 15 12), irqEn := bit v 1, en := on }
  { s with cmd := if on && !c.en then { c1 with nextSeq := 1, rplWritten := 0, rplConsumed := 0 } else c1 }

/-- `CMDWIN.CMD_BASE` (R409). -/
def writeCmdBase (v : Nat) (s : State) : State :=
  if s.cmd.en then s else { s with cmd := { s.cmd with cmdBase := BitVec.ofNat 64 (v / 4096 * 4096) } }

/-- `CMDWIN.RPL_BASE` (R409). -/
def writeRplBase (v : Nat) (s : State) : State :=
  if s.cmd.en then s else { s with cmd := { s.cmd with rplBase := BitVec.ofNat 64 (v / 4096 * 4096) } }

/-- `CMDWIN.INTAKE_PERIOD` (R409). -/
def writeIntakePeriod (v : Nat) (s : State) : State :=
  { s with cmd := { s.cmd with intakePeriod := inRange 500 50000 s.cmd.intakePeriod (bits v 15 0) } }

/-- `CMDWIN.RPL_CONSUMED` (R409, R412). -/
def writeRplConsumed (v : Nat) (s : State) : State := { s with cmd := { s.cmd with rplConsumed := BitVec.ofNat 32 v } }

/-- `RESETC.RST_CAUSE`: a bit written 1 is cleared (R445). -/
def writeRstCause (v : Nat) (s : State) : State :=
  { s with resets := { s.resets with cause := s.resets.cause &&& ~~~(BitVec.ofNat 12 v) } }

/-- `RESETC.BACKUP0` to `BACKUP7` (R445). -/
def writeBackup (i v : Nat) (s : State) : State :=
  { s with resets := { s.resets with backup := spSet 0 s.resets.backup i (BitVec.ofNat 64 v) } }

/-- `PORTS.SAMPLE_CFG` (R245, R246): the counters are cleared, and the configuration takes effect at the next round (DEDUCED, log entry 63). -/
def writeSampleCfg (p v : Nat) (s : State) : State :=
  s.modPort p fun q => { q with sampleNext := some (BitVec.ofNat 32 v), sampleRx := 0, sampleTx := 0 }

/-- `ALARM_CFG.IRQ_EN` (R490). -/
def writeAlarmCfg (v : Nat) (s : State) : State := { s with alarms := { s.alarms with irqEn := bit v 0 } }

/-- `ALARM_ACK` (R484): the slot is no longer pending. -/
def ackAlarm (n : Nat) (s : State) : State :=
  State.alertLine { s with alarms := { s.alarms with slots := spModify {} s.alarms.slots n fun a => { a with pending := false } } }

/-- `ALARM_CLEAR.GO` (R484): every valid slot that is not pending is freed. -/
def clearAlarms (s : State) : State := { s with alarms := { s.alarms with slots := s.alarms.slots.filter (fun e => e.2.pending) } }

/-- `BR_CFG` (R490): `OVF_GIB` is written in `IDLE` only. -/
def writeBrCfg (v : Nat) (s : State) : State :=
  let s1 := { s with alarms := { s.alarms with evmask := BitVec.ofNat 10 (bits v 10 1) } }
  if s.dev = .idle then writeOvfGib (bits v 26 21) s1 else s1

/-- `BR_PAGE` (R490). -/
def writeBrPage (v : Nat) (s : State) : State := { s with alarms := { s.alarms with brPage := bits v 5 0 } }

/-- `MT_CTRL.REACQUIRE` (R390, R401): ignored while a timetable is loaded. -/
def writeMtCtrl (v : Nat) (s : State) : State := if bit v 0 && !s.ttLoaded then acquireMt s else s

/-! ### Block resets (R444) -/

/-- Whether a block reset is allowed (DEDUCED, log entry 63). -/
def blockAllowed (s : State) (kind index : Nat) : Bool :=
  if kind = 0 then portExists s.variant index && !s.epochUses index
  else if kind = 1 then s.dev == .idle && decide (index < 160 * mioCount s.variant)
  else s.dev == .idle && decide (index < 64)

/-- `BLOCK_CTRL.GO`: ignored while a block reset runs and for kind 3; refused where it is not allowed (DEDUCED, log entry 63). -/
def requestBlock (kind index : Nat) (s : State) : State :=
  if s.resets.blockBusy ∨ 3 ≤ kind then s
  else if !blockAllowed s kind index then { s with resets := { s.resets with blockRefused := true } }
  else { s with resets := { s.resets with blockBusy := true, blockRefused := false, blockTimedOut := false, blockDone := false } }

/-- `RESETC.BLOCK_CTRL` (R445). The kind and the index of a running block reset stay (DEDUCED, log entry 63). -/
def writeBlockCtrl (v : Nat) (s : State) : State :=
  if s.resets.blockBusy then s else
  let s1 := { s with resets := { s.resets with blockKind := bits v 17 16, blockIndex := bits v 15 0 } }
  if bit v 31 then requestBlock (bits v 17 16) (bits v 15 0) s1 else s1

/-- A core as R442 leaves it: its stores, engines and scalars are zero, its section of a timetable stays. -/
def Core.zeroed (k : Core) : Core :=
  { section_ := k.section_, group := k.group, owner := k.owner, entries := k.entries, setters := k.setters, afmap := k.afmap, flows := k.flows }

/-- The cores and the contexts of physical region `j` are zeroed (R442). -/
def zeroRegion (s : State) (j : Nat) : State :=
  { s with
    cores := s.cores.filterMap (fun e =>
      if s.physRegion (e.1 / 1280) = j then (if e.2.zeroed = {} then none else some (e.1, e.2.zeroed)) else some e),
    contexts := s.contexts.filter (fun e => s.physRegion (e.1 / 16) != j) }

/-- The effect of a block reset that completes (R444). -/
def resetBlock (s : State) (kind index : Nat) (ok : Bool) : State :=
  if kind = 0 then closePort s index .training
  else if kind = 1 then (if ok then s else retirePc s index)
  else zeroRegion s index

/-! ### The map of BAR0 (R406) -/

/-- A write that is ignored unless the device is `IDLE` (DEDUCED, log entry 84). -/
def whenIdle (f : State → State) (s : State) : State := if s.dev = .idle then f s else s

/-- A register of a port's block, at its offset in the block (DEDUCED, log entry 61). -/
def portRegister (p o v : Nat) (s : State) : State :=
  if !portExists s.variant p then s else
  match o with
  | 0x000 => whenIdle (writePortCfg p v) s
  | 0x00C => s.modPort p fun q => { q with cableAsym := BitVec.ofNat 32 v }
  | 0x0A0 => writeSampleCfg p v s
  | 0x100 => whenIdle (writeEth p fun q => { q with ethMac := BitVec.ofNat 64 (v % 2 ^ 48) }) s
  | 0x108 => whenIdle (writeEth p fun q => { q with ethVlan := BitVec.ofNat 32 (v % 4096) }) s
  | 0x10C => whenIdle (writeEth p fun q => { q with ethReqType := BitVec.ofNat 32 (v % 65536) }) s
  | 0x110 => whenIdle (writeEth p fun q => { q with ethIp4 := BitVec.ofNat 32 v }) s
  | 0x120 => whenIdle (writeEth p fun q => { q with ethIp6 := BitVec.ofNat 128 (q.ethIp6.toNat / 2 ^ 64 * 2 ^ 64 + v % 2 ^ 64) }) s
  | 0x128 => whenIdle (writeEth p fun q => { q with ethIp6 := BitVec.ofNat 128 (v * 2 ^ 64 + q.ethIp6.toNat % 2 ^ 64) }) s
  | _ => s

/-- A register of the other blocks, at its offset in BAR0. -/
def blockRegister (a v : Nat) (s : State) : State :=
  match a with
  | 0x010000 => writeCmdCfg v s
  | 0x010008 => writeCmdBase v s
  | 0x010010 => writeRplBase v s
  | 0x010018 => writeIntakePeriod v s
  | 0x010024 => writeRplConsumed v s
  | 0x020000 => writeRstCause v s
  | 0x020008 => whenIdle (writeRstCfg v) s
  | 0x020010 => writeBlockCtrl v s
  | 0x030008 => whenIdle (writeJumpNs v) s
  | 0x03000C => whenIdle (writeHoldoverMax v) s
  | 0x030024 => writeMtCtrl v s
  | 0x030080 => whenIdle (writePtpCfg v) s
  | 0x030084 => whenIdle (writePpsCfg v) s
  | 0x040004 => whenIdle (writeDither v) s
  | 0x0A0000 => whenIdle (writeFrameCfg v) s
  | 0x0A0004 => whenIdle (writeFreezeAllow v) s
  | 0x0A0008 => whenIdle (writeArrivalLimit v) s
  | 0x0A0148 => whenIdle (writeResendCfg v) s
  | 0x0C0010 => whenIdle (writeRetCfg v) s
  | 0x0C0014 => whenIdle (writeCeRowLimit v) s
  | 0x0E0400 => whenIdle (writePinSlew v) s
  | 0x100004 => writeAlarmCfg v s
  | 0x100008 => ackAlarm (bits v 8 0) s
  | 0x10000C => if bit v 0 then clearAlarms s else s
  | 0x120000 => writeBrCfg v s
  | 0x120004 => writeBrPage v s
  | 0x200000 => whenIdle (writeInvCfg v) s
  | _ => s

/-- A write of a register of BAR0 by its offset; an offset in no register, and one that is read only, ignores it (R8, R406) (DEDUCED, log entry 61).
-/
def writeRegister (a v : Nat) (s : State) : State :=
  if 0x020040 ≤ a ∧ a < 0x020080 ∧ a % 8 = 0 then writeBackup ((a - 0x020040) / 8) v s
  else if 0x080000 ≤ a ∧ a < 0x096000 then portRegister ((a - 0x080000) / 0x1000) (a % 0x1000) v s
  else blockRegister a v s

/-- BAR0 answers from step 8 of bring-up on (R446); before it a write does nothing (DEDUCED, log entry 61). -/
def hostRegister (f : State → State) (s : State) : Out := .next (if s.dev = .off ∨ s.dev = .boot then s else f s)

/-! ### The rows -/

/-- CMD_ENABLE: a write of `CMD_CFG` with `EN` set (R409). -/
def execCmdEnable (value : Word) (s : State) : Out := hostRegister (writeCmdCfg (value.toNat / 2 * 2 + 1)) s

/-- CMD_DISABLE: a write of `CMD_CFG` with `EN` clear; no command in progress is affected (R409). -/
def execCmdDisable (value : Word) (s : State) : Out := hostRegister (writeCmdCfg (value.toNat / 2 * 2)) s

/-- RPL_CONSUMED_WRITE: the host has consumed replies (R412). -/
def execRplConsumedWrite (value : Word) (s : State) : Out := hostRegister (writeRplConsumed value.toNat) s

/-- ALARM_ACK (R484): a write of the slot number, of nine bits. -/
def execAlarmAck (slot : Nat) (s : State) : Out := hostRegister (ackAlarm (slot % 512)) s

/-- ALARM_CLEAR (R484): a write of 1 to `GO`. -/
def execAlarmClear (s : State) : Out := hostRegister clearAlarms s

/-- RST_CAUSE_CLEAR (R445). -/
def execRstCauseClear (mask : Word) (s : State) : Out := hostRegister (writeRstCause mask.toNat) s

/-- SAMPLE_CFG_WRITE (R245, R246). -/
def execSampleCfgWrite (p : Nat) (value : Word) (s : State) : Out :=
  if portExists s.variant p then hostRegister (writeSampleCfg p value.toNat) s else .fault .noSuchPort

/-- OVF_GIB_WRITE: a write of `BR_CFG` (R480, R490). -/
def execOvfGibWrite (value : Word) (s : State) : Out := hostRegister (writeBrCfg value.toNat) s

/-- REGISTER_WRITE: a write of the register at an offset of BAR0 (R8, R406). -/
def execRegisterWrite (addr : Nat) (value : DWord) (s : State) : Out := hostRegister (writeRegister addr value.toNat) s

/-- BLOCK_RESET: `BLOCK_CTRL` written with `GO` set (R444, R445). -/
def execBlockReset (kind index : Nat) (s : State) : Out := hostRegister (writeBlockCtrl (2 ^ 31 + kind % 4 * 65536 + index % 65536)) s

/-- BLOCK_QUIESCE_TIMEOUT: the block has not gone idle in time (R444); the source is its index (R483) (DEDUCED, log entry 63). -/
def execBlockQuiesceTimeout (s : State) : Out :=
  if !s.resets.blockBusy || s.resets.blockTimedOut then .next s else
  .next (raiseAlarm { s with resets := { s.resets with blockTimedOut := true } } 0x0C15 s.resets.blockIndex)

/-- BLOCK_RESET_DONE: the block is reset after a quiesce time of `us`, at most the wait; `ok` is whether a pseudo-channel trained (R444). -/
def execBlockResetDone (us : Nat) (ok : Bool) (s : State) : Out :=
  if !s.resets.blockBusy then .next s else
  let r := s.resets
  let wait := 10 * r.quiesce10us
  let n := if r.blockTimedOut then wait else Nat.min us wait
  .next (resetBlock { s with resets := { r with blockBusy := false, blockDone := true, blockUs := n % 65536 } } r.blockKind r.blockIndex ok)

end Sys2Proof.Machine
end

