-- ==== Sys2Proof/Machine/Settings.lean ====
section
/-! DEFINITION. The settings store (R314, R316, R448 to R454, R465, R466): its images, the range of every entry, the moment an entry takes effect,
and the commits of the host and of the device. -/

namespace Sys2Proof.Machine

open Sys2Proof

/-! ### The image of a copy (R448) -/

/-- A TLV entry. -/
def tlvBytes (e : Nat × List Byte) : List Byte := leBytes 2 e.1 ++ zeros 2 ++ leBytes 4 e.2.length ++ padTo 8 e.2

/-- The type of an entry without its critical bit. -/
def entryType (e : Nat × List Byte) : Nat := e.1 % 32768

/-- Whether an entry is owned by the device (R451). -/
def deviceOwned (e : Nat × List Byte) : Bool := entryType e == 0x40 || entryType e == 0x41 || entryType e == 0x42

/-- The host-owned entries of a copy. -/
def SetCopy.hostEntries (c : SetCopy) : List (Nat × List Byte) := c.entries.filter (fun e => !deviceOwned e)

/-- The bytes of a copy before its digest. -/
def SetCopy.front (c : SetCopy) : List Byte :=
  let t := c.entries.flatMap tlvBytes
  ascii "FAELMSET" ++ leBytes 1 1 ++ leBytes 1 (b2n (!c.sigBytes.isEmpty)) ++ zeros 2 ++ leBytes 4 t.length ++ leBytes 8 c.seq.toNat ++ zeros 8 ++ t

/-- The bytes of a copy. -/
def SetCopy.bytes (c : SetCopy) : List Byte := if c.present then c.front ++ c.digest ++ c.sigBytes else []

/-- The host digest that a settings signature covers (R452). -/
def SetCopy.hostDigest (c : SetCopy) : List Byte := hashH (c.head ++ c.hostEntries.flatMap tlvBytes)

/-! ### The entries (R451) -/

/-- An entry of a copy by its type. -/
def SetCopy.entry (c : SetCopy) (t : Nat) : Option (List Byte) := (c.entries.find? (fun e => entryType e == t)).map (·.2)

/-- Four bytes of a value, by word (DESIGN CHOICE, log entry 16). -/
def word (v : List Byte) (i : Nat) : Nat := le v (4 * i) 4

/-- The pieces of `n` bytes of a value. -/
def pieces (n : Nat) (v : List Byte) : List (List Byte) := (List.range (v.length / n)).map (fun i => slice v (n * i) n)

/-- Whether a number lies from `lo` to `hi`. -/
def within (lo hi v : Nat) : Bool := decide (lo ≤ v) && decide (v ≤ hi)

/-- A port profile of 16 bytes. -/
def profileOk (b : List Byte) : Bool :=
  let f := le b 3 1
  let m := bits f 5 4
  decide (le b 0 1 < 22) && decide (le b 1 1 ≤ 3) && decide (le b 2 1 ≤ 15) && m != 3 && (m == 0 || isIngest (le b 0 1)) && decide (le b 4 2 ≤ 4095)

/-- An Ethernet identity of 40 bytes: neither a group MAC address nor a multicast IP address (R212). -/
def ethIdentOk (b : List Byte) : Bool :=
  isIngest (le b 0 1) && !bit (le b 8 8) 40 && !within 224 239 (le b 16 4 / 2 ^ 24) && le b 24 16 / 2 ^ 120 != 255

/-- The zones of a `CELLAR_ZONING` value (R316). -/
def zoningOf (v : List Byte) : List (Nat × Nat) := (List.range (le v 1 1)).map (fun i => (le v (2 + 2 * i) 1, le v (3 + 2 * i) 1))

/-- A `CELLAR_ZONING` value. -/
def zoningOk (s : State) (v : List Byte) : Bool :=
  if le v 0 1 = 0 then decide (1 ≤ v.length)
  else le v 0 1 == 1 && within 1 16 (le v 1 1) && v.length == 2 + 2 * le v 1 1 &&
    (zoningOf v).all (fun e => decide (e.1 < mioCount s.variant) && within 1 10 e.2)

/-- The keys of a `KEYS` value (R465). -/
def keysOf (v : List Byte) : List Key :=
  (pieces 1960 (v.drop 4)).map fun b => { role := le b 0 1, index := le b 1 1, key := slice b 8 1952 }

/-- The number of indices of a key role. -/
def roleIndices (r : Nat) : Nat := if r ≤ 1 then 4 else if r = 2 then 2 else if r = 3 then 1 else 0

/-- Whether two keys of a list have one role and index. -/
def keyTwice : List Key → Bool
  | [] => false
  | k :: t => t.any (fun e => e.role == k.role && e.index == k.index) || keyTwice t

/-- A `KEYS` value. -/
def keysOk (v : List Byte) : Bool :=
  let ks := keysOf v
  v.length == 4 + 1960 * le v 0 4 && ks.all (fun k => decide (k.index < roleIndices k.role)) && !keyTwice ks

/-- Whether the value of a host-owned entry has its form and lies in its ranges (R451). The widths that R451 does not give are four bytes for
each register, in the order listed (DESIGN CHOICE, log entry 16). -/
def entryOk (s : State) (e : Nat × List Byte) : Bool :=
  let v := e.2
  match entryType e with
  | 0x01 => v.length % 16 == 0 && (pieces 16 v).all profileOk
  | 0x02 => v.length == 16 && within 5 100 (word v 0) && within 256 65536 (word v 1) && within 16 65535 (word v 2) && within 1 64 (word v 3)
  | 0x03 => v.length == 4 && within 100 60000 (bits (word v 0) 31 16) && within 1 255 (bits (word v 0) 15 8)
  | 0x04 => v.length == 8 && within 160 300 (bits (word v 0) 24 16) && within 1000 1600 (bits (word v 0) 10 0) && within 1 255 (word v 1)
  | 0x05 =>
    v.length == 20 && within 100 1000000 (word v 0) && within 1 60000 (word v 1) && decide (bits (word v 2) 5 4 ≤ 2) &&
      portExists s.variant (ptpPortIndex (bits (word v 2) 2 1)) && within 10 500000 (bits (word v 3) 27 8) &&
      within 10 10000 (bits (word v 4) 23 8) && within 0 10 (bits (word v 4) 3 0)
  | 0x06 => v.length == 4
  | 0x07 => v.length % 40 == 0 && (pieces 40 v).all ethIdentOk
  | 0x10 => v.length == 1 && decide (le v 0 1 ≤ 1)
  | 0x11 => zoningOk s v
  | 0x12 => v.length == 1
  | 0x13 => v.length == 8 && within 1 64 (word v 0) && within 1 64 (bits (word v 1) 23 16)
  | 0x14 => v.length == 1 && decide (le v 0 1 ≤ 1)
  | 0x20 => v.length % 8 == 0
  | 0x30 => keysOk v
  | 0x40 | 0x41 | 0x42 => true
  | _ => !bit e.1 15

/-- The TLV entries of `n` bytes at byte `a` of an image, or the offset of the first one that fails (DESIGN CHOICE, log entry 16). -/
def readTlvs (s : State) (im : List Byte) (last : Nat) : Nat → Nat → Except Nat (List (Nat × List Byte))
  | 0, _ => .ok []
  | fuel + 1, a =>
    if a = last then .ok []
    else if last < a + 8 then .error a
    else
      let n := le im (a + 4) 4
      let e := (le im a 2, slice im (a + 8) n)
      if last < a + 8 + roundUp n 8 then .error a
      else if !entryOk s e then .error a
      else match readTlvs s im last fuel (a + 8 + roundUp n 8) with
        | .ok l => .ok (e :: l)
        | .error x => .error x

/-- A settings image, or the offset at which its form fails (R452). -/
def readImage (s : State) (im : List Byte) : Except Nat SetCopy :=
  let n := le im 12 4
  let signed := bit (le im 9 1) 0
  let last := 32 + n
  if slice im 0 8 ≠ ascii "FAELMSET" then .error 0
  else if le im 8 1 ≠ 1 then .error 8
  else if im.length ≠ last + 64 + (if signed then 3344 else 0) then .error 12
  else if slice im last 64 ≠ hashH (im.take last) then .error last
  else match readTlvs s im last (n / 8 + 1) 32 with
    | .error a => .error a
    | .ok es => .ok { present := true, valid := true, seq := BitVec.ofNat 64 (le im 16 8), entries := es,
                      sigBytes := if signed then slice im (last + 64) 3344 else [], digest := slice im last 64, head := slice im 0 16 }

/-! ### Signatures (R452, R464 to R466) -/

/-- Whether a copy is signed by a settings-signing key of a list (DEDUCED, log entry 65). -/
def SetCopy.signedBy (c : SetCopy) (keys : List Key) : Bool :=
  !c.sigBytes.isEmpty && match keys.find? (fun k => k.role == 2 && k.index == le c.sigBytes 0 1) with
    | some k => Config.mldsaVerify k.key (ascii "D1-SETTINGS") c.hostDigest (slice c.sigBytes 32 3309)
    | none => false

/-- Whether settings must be signed: a settings-signing key is enrolled, or the `SETSIG` fuse is blown. -/
def State.signRequired (s : State) : Bool := s.sec.setsig || s.settings.keys.any (fun k => k.role == 2)

/-! ### Putting a copy in force (R451) -/

/-- The `PORT_CFG` value of a port profile. -/
def profileCfg (b : List Byte) : Nat :=
  let f := le b 3 1
  bits f 5 4 * 2 ^ 28 + bits f 1 1 * 2 ^ 25 + bits f 2 2 * 2 ^ 24 + le b 1 1 * 2 ^ 20 + le b 2 1 * 2 ^ 16 + bits f 0 0 * 2 ^ 12 + le b 4 2

/-- A port profile is applied (R451): the port retrains where it changed (DESIGN CHOICE, log entry 16). -/
def applyProfile (s : State) (b : List Byte) : State :=
  let p := le b 0 1
  if !portExists s.variant p then s
  else (writePortCfg p (profileCfg b) s).modPort p fun q => { q with cableAsym := BitVec.ofNat 32 (le b 8 4) }

/-- An Ethernet identity is applied (R212) (DESIGN CHOICE, log entry 16). -/
def applyEthIdent (s : State) (b : List Byte) : State :=
  let p := le b 0 1
  if !portExists s.variant p then s else
  writeEth p (fun q => { q with
    ethReqType := BitVec.ofNat 32 (le b 2 2), ethVlan := BitVec.ofNat 32 (le b 4 2 % 4096), ethMac := BitVec.ofNat 64 (le b 8 8 % 2 ^ 48),
    ethIp4 := BitVec.ofNat 32 (le b 16 4), ethIp6 := BitVec.ofNat 128 (le b 24 16) }) s

/-- A change of `INV_SIZE` empties the ring, restarts the numbers and invalidates every image (R354) (DEDUCED, log entry 66). -/
def applyInvSize (s : State) (gib : Nat) : State :=
  if gib = s.inv.sizeGib then s else
  invalidateImages { s with inv := { s.inv with
    sizeGib := gib, ring := [], ringBytes := 0, head := 0, buffer := [], bufBytes := 0, nextSeq := 0, chain := [] } }

/-- One entry takes effect; the calibration does so at the next power-on or system reset only (DEDUCED, log entry 65). -/
def applyEntry (s : State) (e : Nat × List Byte) : State :=
  let v := e.2
  match entryType e with
  | 0x01 => (pieces 16 v).foldl applyProfile s
  | 0x02 =>
    writeResendCfg (word v 3) (writeArrivalLimit (word v 2) (writeFreezeAllow (word v 1) (writeFrameCfg (word v 0 * 65536) s)))
  | 0x03 => writeRstCfg (word v 0) s
  | 0x04 => writeCeRowLimit (word v 1) (writeRetCfg (word v 0) s)
  | 0x05 =>
    writeDither (word v 4) (writePpsCfg (word v 3) (writePtpCfg (word v 2) (writeHoldoverMax (word v 1) (writeJumpNs (word v 0) s))))
  | 0x06 => writePinSlew (word v 0) s
  | 0x07 => (pieces 40 v).foldl applyEthIdent s
  | 0x10 => { s with settings := { s.settings with verifyPolicy := le v 0 1 } }
  | 0x11 => { s with settings := { s.settings with zoning := if le v 0 1 = 0 then none else some (zoningOf v) } }
  | 0x12 => { s with settings := { s.settings with rotatePolicy := le v 0 1 } }
  | 0x13 => writeInvCfg (word v 1) (applyInvSize s (word v 0))
  | 0x14 => { s with settings := { s.settings with ideRequired := le v 0 1 == 1 } }
  | 0x30 => { s with settings := { s.settings with keys := keysOf v } }
  | _ => s

/-- The copy in force is applied: policies without an entry take their defaults (R450), then every entry takes effect, and the zone table is computed
again (DEDUCED, log entry 65). -/
def applySettings (s : State) : State :=
  let c := s.settingsInForce
  let s0 := { s with settings := { s.settings with
      verifyPolicy := 0, rotatePolicy := 0, zoning := none, ideRequired := false, keys := [] } }
  let s1 := if (c.entry 0x13).isNone then applyInvSize s0 16 else s0
  computeZones (c.entries.foldl applyEntry s1)

/-! ### Commits (R452, R453) -/

/-- A remap as numbers. -/
def Remap.nums (r : Remap) : List Nat := [r.ctl, r.page, r.spare]

/-- The retirement list as numbers: cores, regions, pseudo-channels and page remaps, each list behind its length. -/
def State.retirement (s : State) : List Nat :=
  let m := s.mgmt
  m.retiredCores.length :: m.retiredCores ++ m.retiredRegions.length :: m.retiredRegions ++ s.cellar.retired.length :: s.cellar.retired ++
    s.cellar.remaps.length :: s.cellar.remaps.flatMap Remap.nums

/-- The device-owned entries as they are now; the spec gives them no layout (DESIGN CHOICE, log entry 15). -/
def State.deviceEntries (s : State) : List (Nat × List Byte) :=
  [(0x40, Config.layout 0x40 s.retirement),
   (0x41, Config.layout 0x41 ((List.range 64).map (fun j => (spGet 0 s.mgmt.wear j).toNat))),
   (0x42, Config.layout 0x42 ((List.range 4).map (fun i => (spGet 0 s.sec.foCounters i).toNat)))]

/-- Write the copy not in force with host entries and their signature, read it back, and put it in force. -/
def writeCopy (s : State) (host : List (Nat × List Byte)) (sig head : List Byte) : State :=
  let t := s.settings
  let c : SetCopy := {
    present := true, valid := true, seq := if t.defaults then 1 else s.settingsInForce.seq + 1, entries := host ++ s.deviceEntries,
    sigBytes := sig, head, retCores := s.mgmt.retiredCores, retRegions := s.mgmt.retiredRegions, retPcs := s.cellar.retired,
    remaps := s.cellar.remaps, wear := s.mgmt.wear, counters := s.sec.foCounters }
  let c1 := { c with digest := hashH c.front }
  let toA := t.defaults || t.inForceB
  { s with settings :=
    if toA then { t with copyA := c1, inForceB := false, defaults := false, badA := false }
    else { t with copyB := c1, inForceB := true, badB := false } }

/-- The device writes a commit of its own: host entries and signature are carried forward (R453). -/
def writeDevice (s : State) : State :=
  let c := s.settingsInForce
  writeCopy s (if s.settings.defaults then [] else c.hostEntries) (if s.settings.defaults then [] else c.sigBytes) c.head

/-- Whether a host commit is in progress (DEDUCED, log entry 66). -/
def State.hostCommit (s : State) : Bool := s.cmd.out.any (fun o => o.opcode == 0x13)

/-- One device commit has been written: the flag stays while another waits. -/
def endCommit (s : State) : State :=
  let n := s.settings.deviceDue - 1
  { s with settings := { s.settings with deviceDue := n, writing := decide (0 < n) || s.hostCommit } }

/-- The first commit that enrols a settings-signing key blows the `SETSIG` fuse (R466). -/
def blowSetsig (s : State) : State :=
  if s.settings.keys.any (fun k => k.role == 2) then { s with sec := { s.sec with setsig := true } } else s

/-- Sequence number and digest of a copy, as results. -/
def SetCopy.results (c : SetCopy) : List Byte := leBytes 8 c.seq.toNat ++ slice c.digest 0 64

/-- What a long command answers at its end: status, reason, results. -/
abbrev Final := Nat × Nat × List (Nat × Byte)

/-- The end of `COMMIT_SETTINGS` (R452). Whether the flash write reads back is a free value (DEDUCED, log entry 66). -/
def finishCommit (s : State) : State × Final :=
  match s.settings.staged with
  | none => (s, stBadParam, 0, [])
  | some c =>
    let bad := Config.freeBool s.freeCtr
    let s0 := State.useFree { s with settings := { s.settings with writing := false } } 1
    if bad then (s0, stRejected, 0x0C17, [])
    else
      let s1 := writeCopy s0 c.hostEntries c.sigBytes c.head
      let s2 := blowSetsig (applySettings { s1 with settings := { s1.settings with staged := none } })
      (s2, stOk, 0, resAt 24 s1.settingsInForce.results)

/-! ### The commands -/

/-- `GET_SETTINGS` (R419) (DEDUCED, log entry 66). -/
def cGetSettings : Cmd := {
  opcode := 0x11, allowed := anyState
  run := fun k s =>
    let c := if k.par 28 1 = 1 then s.settings.staged else if s.settings.defaults then some {} else some s.settingsInForce
    match c with
    | none => refuse s stBadParam 0
    | some c =>
      if 1 < k.par 28 1 ∨ k.par 24 4 < c.bytes.length then refuse s stBadParam 0
      else okWith (hostWrite s (k.par 16 8) c.bytes) (leBytes 4 c.bytes.length ++ c.results) }

/-- The record of a pull (R349); a purpose that R349 does not number is a free value (DESIGN CHOICE, log entry 1). -/
def pullRecord (s : State) (sub addr : Nat) (data : List Byte) : State :=
  recordOrStop s 2 s.frameOrOnes sub addr data false

/-- The record of a pull for which R349 names no purpose (DEDUCED, log entry 71). -/
def pullOther (s : State) (addr : Nat) (data : List Byte) : State :=
  State.useFree (pullRecord s s.freeByte.toNat addr data) 1

/-- `STAGE_SETTINGS` (R452): the result of a refusal holds the offset of the failure at byte 24 (DESIGN CHOICE, log entry 16). -/
def cStageSettings : Cmd := {
  opcode := 0x12, allowed := anyState
  run := fun k s =>
    let n := k.par 24 4
    if 262144 < n then refuse s stBadParam 0 else
    let im := slice k.pulled 0 n
    let s1 := pullOther s (k.par 16 8) im
    match readImage s1 im with
    | .error a => .final s1 stBadParam 0x0C10 (resAt 24 (leBytes 4 a))
    | .ok c =>
      if s1.signRequired && !c.signedBy s1.settings.keys then
        .final { s1 with sec := { s1.sec with sigFails := s1.sec.sigFails + 1 } } stNotAuth 0x0820 []
      else okWith { s1 with settings := { s1.settings with staged := some c } } (slice c.digest 0 64) }

/-- `COMMIT_SETTINGS` (R314, R316, R452). -/
def cCommitSettings : Cmd := {
  opcode := 0x13, allowed := [.idle], single := true
  run := fun _ s =>
    match s.settings.staged with
    | none => refuse s stBadParam 0
    | some c =>
      let rot := match c.entry 0x12 with | some v => decide (3 < le v 0 1) | none => false
      let zone := match c.entry 0x11 with | some v => le v 0 1 == 1 && !s.zoningFits (zoningOf v) | none => false
      if rot || zone then refuse s stBadParam 0
      else .long s fun s => { s with settings := { s.settings with writing := true } } }

/-! ### The rows -/

/-- GET_SETTINGS. -/
def execGetSettings (k : Packet) (s : State) : Out := hostCommand cGetSettings k s

/-- STAGE_SETTINGS. -/
def execStageSettings (k : Packet) (s : State) : Out := hostCommand cStageSettings k s

/-- COMMIT_SETTINGS: the write ends with LONG_COMMAND_DONE. -/
def execCommitSettings (k : Packet) (s : State) : Out := hostCommand cCommitSettings k s

/-- DEVICE_COMMIT_WRITTEN: the oldest device commit has been written; where the read-back fails it stays due (R452, R453) (DEDUCED, log entry 66). -/
def execDeviceCommitWritten (ok : Bool) (s : State) : Out :=
  .next (if s.settings.deviceDue = 0 ∨ ok = false then s else endCommit (writeDevice s))

end Sys2Proof.Machine
end

