-- ==== Sys2Proof/Machine/Crates.lean ====
section
/-! DEFINITION. Crates (R281 to R292, R467): header, directory, sections, core records, and LOAD_CRATE. The layouts that R283 does not give are
those of log entry 17. -/

namespace Sys2Proof.Machine

open Sys2Proof

/-! ### Header and directory (R281, R282) -/

/-- A directory entry at byte `a` of a crate or an image, and the section's bytes. -/
def dirEntry (f : List Byte) (a : Nat) : Section :=
  let d := slice f a 64
  let off := le d 8 8
  let n := le d 16 8
  { stype := le d 0 2, var := le d 2 1, devX := le d 4 1, devY := le d 5 1, devZ := le d 6 1, offset := off, length := n, sdig := slice d 24 32,
    data := if off + n ≤ f.length then slice f off n else [] }

/-- The directory of `n` entries from byte `a`. -/
def dirEntries (f : List Byte) (a n : Nat) : List Section := (List.range n).map (fun i => dirEntry f (a + 64 * i))

/-- The section types of a crate (R283). -/
def crateTypes : List Nat := [0x01, 0x02, 0x10, 0x11, 0x12, 0x13, 0x20, 0x30, 0x40, 0x50, 0xF0]

/-- Whether two byte ranges overlap. -/
def rangesMeet (a n b m : Nat) : Bool := decide (0 < n) && decide (0 < m) && decide (a < b + m) && decide (b < a + n)

/-- Whether two sections of a list overlap. -/
def sectionsMeet : List Section → Bool
  | [] => false
  | x :: t => t.any (fun y => rangesMeet x.offset x.length y.offset y.length) || sectionsMeet t

/-- The form of a directory: every type listed, every section within the file, none meeting another or the directory. -/
def dirOk (f : List Byte) (first : Nat) (types : List Nat) (l : List Section) : Bool :=
  l.all (fun x => types.contains x.stype && decide (x.offset + x.length ≤ f.length) && !rangesMeet x.offset x.length 0 first)
    && !sectionsMeet l && decide ((l.filter (fun x => x.stype == 0xF0)).length ≤ 1)

/-- The form of a crate header (R281). -/
def headerOk (f : List Byte) : Bool :=
  decide (64 ≤ f.length) && slice f 0 8 == ascii "FAELMCRT" && le f 8 1 == 1 && within 1 2 (le f 9 1) && decide (le f 10 1 ≤ 2)
    && within 16 4096 (le f 16 2) && within 1 8 (le f 18 1) && within 1 16 (le f 20 1) && within 1 16 (le f 21 1) && within 1 16 (le f 22 1)
    && le f 32 8 % 65536 == 0 && within 1 65535 (le f 40 4) && decide (64 + 64 * le f 40 4 ≤ f.length)

/-- The digest of a section (R282). -/
def Section.digestOk (x : Section) : Bool := x.stype == 0xF0 || (hashH x.data).take 32 == x.sdig

/-- Whether a section serves this device (R282). -/
def State.servesMe (s : State) (x : Section) : Bool :=
  let (cx, cy, cz) := s.coords
  let (rx, ry, rz) := s.relative cx cy cz
  (x.devX == 255 && x.devY == 255 && x.devZ == 255) || (x.devX == rx && x.devY == ry && x.devZ == rz)

/-- A crate with the sections that this device pulls (DEDUCED, log entry 67). -/
def crateOf (s : State) (f : List Byte) : Crate :=
  let n := 64 + 64 * le f 40 4
  { digest := hashH (f.take n), fpcmin := le f 9 1, mode := modeOf (le f 10 1), props := le f 11 1, features := le f 12 4,
    frameRounds := le f 16 2, nvar := le f 18 1, shapeWrap := le f 19 1, shapeX := le f 20 1, shapeY := le f 21 1, shapeZ := le f 22 1,
    timeErr := le f 24 2, nflows := le f 28 4, reserve := le f 32 8, nframes := le f 44 8,
    sections := (dirEntries f 64 (le f 40 4)).filter s.servesMe, signed := false }

/-- The sections of a type for a variant, in directory order. -/
def Crate.secs (c : Crate) (t v : Nat) : List Section := c.sections.filter (fun x => x.stype == t && (x.var == v || x.var == 255))

/-- The bytes of the sections of a type for a variant, joined. -/
def Crate.data (c : Crate) (t v : Nat) : List Byte := (c.secs t v).flatMap (·.data)

/-! ### Core records (R143, R287) -/

/-- An op of a core record (R287). -/
structure CrateOp where
  word : Nat
  xref : Nat
  olen : Nat
  earliest : Nat
  deriving DecidableEq, Repr

/-- A core record: the fields of R143 before `CODE`, ops, descriptors and segments (attic, offset, length, offset of the bytes). -/
structure CoreRecord where
  head : List Byte
  ops : List CrateOp
  descs : List (List Byte)
  segs : List (Bool × Nat × Nat × Nat)
  deriving DecidableEq, Repr

/-- The logical core of a record. -/
def coreOfHead (h : List Byte) : Nat := le h 4 4

/-- The entry addresses of a record. -/
def entriesOf (h : List Byte) : List Nat := (List.range (Nat.min 8 (le h 10 1))).map (fun i => le h (16 + 2 * i) 2 % 2048)

/-- The declared setters of a record (R143). -/
def settersOf (h : List Byte) : List (Nat × Setter) :=
  (List.range 64).foldl (fun m i =>
    let v := le h (32 + 4 * i) 4
    spSet {} m i { unit := bits v 2 0, other := bit v 3, core := bits v 20 4 }) []

/-- The landing buffers of the arrival flags of a record. -/
def afmapOf (h : List Byte) : List (Nat × Nat) :=
  (List.range 64).filterMap fun i => let n := le h (288 + 2 * i) 2; if n = 0xFFFF then none else some (i, n)

/-- The owned flows of a record, relative or absolute; a zero entry ends the list. -/
def flowsOf (h : List Byte) : List OwnFlow :=
  (((List.range 64).map (fun i => le h (576 + 4 * i) 4)).takeWhile (· != 0)).map fun v => { flow := bits v 19 0, count := bits v 31 20 }

/-- `n` words of a record from byte `a`. -/
def wordsOf (h : List Byte) (a n : Nat) : List Word := (List.range n).map (fun i => BitVec.ofNat 32 (le h (a + 4 * i) 4))

/-- An op at byte `a`. -/
def opAt (b : List Byte) (a : Nat) : CrateOp := { word := le b a 8, xref := le b (a + 8) 2, olen := le b (a + 10) 2, earliest := le b (a + 12) 4 }

/-- A segment at byte `a`: the spaces are shelf and attic slice. -/
def segAt (b : List Byte) (a : Nat) : Bool × Nat × Nat × Nat := (bit (le b a 1) 0, le b (a + 8) 4, le b (a + 12) 4, le b (a + 16) 8)

/-- The form of the fields before `CODE`: versions, core and entries. -/
def headOk (h : List Byte) : Bool :=
  le h 0 1 == 1 && le h 1 1 == 1 && decide (coreOfHead h < coreCount) && within 1 8 (le h 10 1)

/-- Whether a segment lies within its store (R59, R143). -/
def segOk (g : Bool × Nat × Nat × Nat) : Bool := decide (g.2.1 + g.2.2.1 ≤ if g.1 then 0x18000 else 0xC000)

/-- One core record at the front of bytes, and the rest. -/
def readCore (b : List Byte) : Option (CoreRecord × List Byte) :=
  let nops := le b 832 4
  let ndesc := le b 836 4
  let a := 840 + 16 * nops + 32 * ndesc
  let nseg := le b a 4
  let last := a + 4 + 24 * nseg
  let h := slice b 0 832
  let segs := (List.range nseg).map (fun i => segAt b (a + 4 + 24 * i))
  if b.length < last ∨ 1536 < nops ∨ 384 < ndesc then none
  else if !headOk h || !(entriesOf h).all (fun e => decide (e < nops)) || !segs.all segOk then none
  else some ({ head := h, ops := (List.range nops).map (fun i => opAt b (840 + 16 * i)),
               descs := (List.range ndesc).map (fun i => slice b (840 + 16 * nops + 32 * i) 32), segs }, b.drop last)

/-- The core records of bytes. -/
def readCores : Nat → List Byte → Option (List CoreRecord)
  | _, [] => some []
  | 0, _ => none
  | fuel + 1, b => match readCore b with
    | none => none
    | some (r, rest) => (readCores fuel rest).map (r :: ·)

/-- The core records of a variant. -/
def Crate.cores (c : Crate) (v : Nat) : Option (List CoreRecord) := let b := c.data 0x01 v; readCores b.length b

/-- Whether the cores of records ascend. -/
def coresAscend : List CoreRecord → Bool
  | a :: b :: t => decide (coreOfHead a.head < coreOfHead b.head) && coresAscend (b :: t)
  | _ => true

/-! ### The other sections (R275, R283, R289, R291, R292) -/

/-- The logical regions of compute die `d` that core records reach. -/
def regionsOf (l : List CoreRecord) (d : Nat) : Nat :=
  l.foldl (fun m r => let n := coreOfHead r.head; if n / 20480 = d then Nat.max m (n % 20480 / 1280 + 1) else m) 0

/-- The record of a variant of a crate without `VARIANTS`: its index as preference, and the regions that its cores need (DEDUCED, log entry 67). -/
def Crate.plainVariant (c : Crate) (v : Nat) : VariantRec :=
  let l := (c.cores v).getD []
  { index := v, pref := v, n0 := regionsOf l 0, n1 := regionsOf l 1, n2 := regionsOf l 2, n3 := regionsOf l 3, batch := 0 }

/-- The variant records (R292). -/
def Crate.variants (c : Crate) : List VariantRec :=
  if (c.data 0x50 255).isEmpty then (List.range c.nvar).map c.plainVariant else
  (pieces 16 (c.data 0x50 255)).map fun b =>
    { index := le b 0 1, pref := le b 1 1, n0 := le b 2 1, n1 := le b 3 1, n2 := le b 4 1, n3 := le b 5 1, batch := le b 6 2 }

/-- The regions that a variant needs on a compute die. -/
def VariantRec.need (v : VariantRec) (d : Nat) : Nat := [v.n0, v.n1, v.n2, v.n3].getD d 0

/-- The variant records of a crate have their form: one for each index, where there are any (DEDUCED, log entry 67). -/
def Crate.variantsOk (c : Crate) : Bool :=
  let l := c.variants
  (c.data 0x50 255).isEmpty || (c.data 0x50 255).length == 16 * c.nvar && (List.range c.nvar).all (fun i => l.any (fun v => v.index == i))
    && l.all (fun v => decide (v.n0 ≤ 16) && decide (v.n1 ≤ 16) && decide (v.n2 ≤ 16) && decide (v.n3 ≤ 16))

/-- One table set at the front of bytes, and the rest (DESIGN CHOICE, log entry 17): index, base set, links of the loss set, and the numbers of
entries; then links of four bytes, transmit entries of eight bytes behind eight bytes with their port, crossbar entries of eight, landing entries of
sixteen. -/
def readSet (b : List Byte) : Option (TableSet × List Byte) :=
  let nl := le b 2 1
  let nt := le b 4 4
  let nx := le b 8 4
  let nn := le b 12 4
  let t0 := 16 + 4 * nl
  let x0 := t0 + 16 * nt
  let l0 := x0 + 8 * nx
  let last := l0 + 16 * nn
  if b.length < last then none else
  match allSome ((List.range nt).map (fun i => decodeT (le b (t0 + 16 * i) 1) (le b (t0 + 16 * i + 8) 8))),
        allSome ((List.range nx).map (fun i => decodeX (le b (x0 + 8 * i) 8))),
        allSome ((List.range nn).map (fun i => decodeL (le b (l0 + 16 * i) 16))) with
  | some tx, some xbar, some landing =>
    some ({ index := le b 0 1, base := if le b 1 1 = 255 then none else some (le b 1 1), tx, xbar, landing,
            lossSet := (List.range nl).map (fun i =>
              { x := le b (16 + 4 * i) 1, y := le b (17 + 4 * i) 1, z := le b (18 + 4 * i) 1, port := le b (19 + 4 * i) 1 }) }, b.drop last)
  | _, _, _ => none

/-- The table sets of bytes. -/
def readSets : Nat → List Byte → Option (List TableSet)
  | _, [] => some []
  | 0, _ => none
  | fuel + 1, b => match readSet b with
    | none => none
    | some (t, rest) => (readSets fuel rest).map (t :: ·)

/-- The table sets of a variant, with relative flows. -/
def Crate.sets (c : Crate) (v : Nat) : Option (List TableSet) := let b := c.data 0x10 v; readSets b.length b

/-- The planned flips (R283). -/
def Crate.flips (c : Crate) (v : Nat) : List (Nat × Nat) := (pieces 16 (c.data 0x12 v)).map (fun b => (le b 0 8, le b 8 1))

/-- The Hatch areas (R283). -/
def readAreas (b : List Byte) : List Area := (pieces 16 b).map (fun a => { offset := le a 0 4, size := le a 4 4, kind := le a 8 1 })

/-- The seeds of the contexts (R283): 64 regions of 16 contexts. -/
def readSeeds (b : List Byte) : List (Nat × GenCtx) :=
  (List.range 1024).foldl (fun m i =>
    spSet {} m i { seed := BitVec.ofNat 128 (le b (24 * i) 16), step := BitVec.ofNat 64 (le b (24 * i + 16) 8) }) []

/-- The owners of the landing buffers' flows, and the sources, of a `SOURCES` section (R289) with `n` landing buffers. -/
def readSources (n : Nat) (b : List Byte) : List (Nat × Nat × Nat) × List SourceRec :=
  ((List.range n).map (fun i => (le b (4 * i) 1, le b (4 * i + 1) 1, le b (4 * i + 2) 1)),
   (pieces 16 (b.drop (4 * n))).map fun r =>
     { flow := le r 0 4 % 2 ^ 20, phase := le r 4 1 % 8, attic := le r 5 1 == 1, lcore := le r 8 4, base := le r 12 4 % 2 ^ 17 })

/-- The phases of one owned flow number 1, 2, 4 or 8, and each is listed once (R289). -/
def phasesOk (l : List SourceRec) : Bool :=
  l.all fun r =>
    let same := l.filter (fun x => x.flow == r.flow)
    let n := same.length
    (n == 1 || n == 2 || n == 4 || n == 8) && (List.range n).all (fun p => (same.filter (fun x => x.phase == p)).length == 1)

/-- The landing buffers of table set 0 of a variant. -/
def Crate.buffers (c : Crate) (v : Nat) : Nat :=
  match c.sets v with
  | some l => (l.find? (fun t => t.index == 0)).elim 0 (fun t => t.landing.length)
  | none => 0

/-- The tree-mode entries of the reductions (R291): entries stand before the first tree that one names. -/
def reductionEntries (b : List Byte) : List (List Byte) :=
  let l := pieces 16 b
  let first := l.foldl (fun m e => if le e 4 1 = 1 ∧ 0 < le e 6 2 then Nat.min m (le e 8 8) else m) b.length
  pieces 16 (b.take first)

/-- Whether a crate names a tree-mode reduction. -/
def Crate.hasTree (c : Crate) : Bool := (reductionEntries ((c.sections.filter (fun x => x.stype == 0x20)).flatMap (·.data))).any (fun e => le e 4 1 == 1)

/-- The contents of the sections of one variant have their form. -/
def Crate.variantForm (c : Crate) (v : Nat) : Bool :=
  let dat := c.data 0x02 v
  (match c.cores v with
    | some l => coresAscend l && l.all (fun r => r.segs.all (fun g => decide (g.2.2.2 + g.2.2.1 ≤ dat.length)))
    | none => false) &&
  (c.sets v).isSome && (c.data 0x12 v).length % 16 == 0 && (c.data 0x30 v).length % 16 == 0 &&
  ((c.data 0x40 v).isEmpty || (c.data 0x40 v).length == 24576) &&
  (let b := c.data 0x13 v
   b.isEmpty || (decide (4 * c.buffers v ≤ b.length) && (b.length - 4 * c.buffers v) % 16 == 0 && phasesOk (readSources (c.buffers v) b).2))

/-- The contents of the sections have their form (DEDUCED, log entry 67). -/
def Crate.contentsOk (c : Crate) : Bool := c.variantsOk && (List.range c.nvar).all c.variantForm

/-! ### Levels and features (R285, R286) -/

/-- The descriptor of 32 bytes. -/
def descOf (b : List Byte) : Desc := decodeDesc (le b 0 8) (le b 8 8) (le b 16 8) (le b 24 8)

/-- Whether code uses a feature: drawing and stochastic rounding (0), bin-relative transfers (4), overlays (6). -/
def descUses (n : Nat) (d : Desc) : Bool :=
  if n = 0 then d.cop == 0x24 || d.rnd == 4
  else if n = 4 then (d.cop == 0x34 || d.cop == 0x35) && d.fn == 1
  else d.cop == 0x38

/-- Whether the code of a crate uses a feature. -/
def Crate.codeUses (c : Crate) (n : Nat) : Bool :=
  (List.range c.nvar).any fun v => match c.cores v with
    | some l => l.any (fun r => r.descs.any (fun d => descUses n (descOf d)))
    | none => false

/-- The level checks of R286 on the header (DEDUCED, log entry 67). -/
def levelBad (s : State) (c : Crate) : Bool :=
  decide (s.mgmt.fpc < c.fpcmin) || decide (256 ≤ c.features) ||
    (decide (c.fpcmin < 2) && (bit c.features 2 || bit c.features 3 || bit c.features 4 || bit c.features 7))

/-- Whether the code uses a feature whose bit is clear (R286) (DEDUCED, log entry 67). -/
def featureBad (c : Crate) : Bool := [0, 4, 6].any (fun n => !bit c.features n && c.codeUses n)

/-! ### Signatures (R467) -/

/-- The enrolled Pagor key that a signature section names. -/
def State.pagorKey (s : State) (sig : List Byte) : Option Key :=
  s.settings.keys.find? (fun k => k.role == 1 && (hashH k.key).take 32 == slice sig 0 32)

/-- What a signature section says of a message: none is unsigned (unknown where it names no enrolled key); a failure; or the key's index. -/
inductive SigResult where
  | unsigned (unknown : Bool)
  | failed
  | signed (key : Nat)
  deriving DecidableEq, Repr

/-- The check of a signature section (DESIGN CHOICE, log entry 12). -/
def checkSignature (s : State) (l : List Section) (ctx : String) (msg : List Byte) : SigResult :=
  match l.find? (fun x => x.stype == 0xF0) with
  | none => .unsigned false
  | some x => match s.pagorKey x.data with
    | none => .unsigned true
    | some k => if Config.mldsaVerify k.key (ascii ctx) msg (slice x.data 32 3309) then .signed k.index else .failed

/-- A failed verification is counted (R467). -/
def countSigFail (s : State) : State := { s with sec := { s.sec with sigFails := s.sec.sigFails + 1 } }

/-! ### LOAD_CRATE -/

/-- The records of the pulls of a crate: header, directory, and the sections of this device in directory order (R282, R349). -/
def pullCrate (s : State) (addr : Nat) (f : List Byte) : State :=
  let n := le f 40 4
  let s1 := pullRecord s 0 addr (slice f 0 64)
  if !headerOk f then s1 else
  let s2 := pullRecord s1 0 (addr + 64) (slice f 64 (64 * n))
  if !dirOk f (64 + 64 * n) crateTypes (dirEntries f 64 n) then s2 else
  (crateOf s f).sections.foldl (fun m x => pullRecord m 0 (addr + x.offset) x.data) s2

/-- The reason for which a crate is refused, 0 for none (DEDUCED, log entry 67). -/
def crateReason (s : State) (f : List Byte) : Nat :=
  let n := le f 40 4
  let c := crateOf s f
  firstReason [
    reasonIf (!headerOk f || !dirOk f (64 + 64 * n) crateTypes (dirEntries f 64 n)) 0x0701,
    reasonIf (levelBad s c) 0x0702,
    reasonIf (!c.sections.all Section.digestOk) 0x0709,
    reasonIf (!c.contentsOk) 0x0701,
    reasonIf (featureBad c) 0x0702,
    reasonIf (bit c.props 0 && c.hasTree) 0x070D,
    reasonIf (decide (s.populated < c.reserve)) 0x0902,
    reasonIf (checkSignature s c.sections "D1-CRATE" c.digest == .failed) 0x0830]

/-- `SIGN_STATUS` after a crate has been loaded (R467, R474). -/
def signCrate (s : State) (r : SigResult) : State :=
  let z := { s.sec with crateSigned := false, crateKey := 0, crateUnknown := false, imageSigned := false, imageKey := 0 }
  { s with sec := match r with
    | .signed k => { z with crateSigned := true, crateKey := k }
    | .unsigned u => { z with crateUnknown := u }
    | .failed => z }

/-- The end of `LOAD_CRATE`. A crate that is refused leaves the earlier one in place; one that is kept ends the keeping of the final certificate
(R373). -/
def finishLoadCrate (k : Packet) (s : State) : State × Final :=
  let f := slice k.pulled 0 (k.par 24 8)
  let s1 := pullCrate s (k.par 16 8) f
  let r := crateReason s1 f
  if r ≠ 0 then
    let s2 := { s1 with inv := { s1.inv with linking := false, links := [] } }
    (if r = 0x0830 then countSigFail (signCrate s2 .failed) else signCrate s2 .failed, stRejected, r, [])
  else
    let c := crateOf s1 f
    let sg := checkSignature s1 c.sections "D1-CRATE" c.digest
    let c1 := { c with signed := match sg with | .signed _ => true | _ => false }
    let s2 := newSegment (signCrate s1 sg) c.digest
    let s3 := { s2 with mgmt := { s2.mgmt with
        crate := some c1, images := [], verified := false, placed := none, loadedImage := none }, inv := { s2.inv with cert := none } }
    (s3, stOk, 0, resAt 24 (c.digest ++ leBytes 1 c.fpcmin ++ leBytes 1 c.props))

/-- `LOAD_CRATE`. -/
def cLoadCrate : Cmd := { opcode := 0x20, allowed := [.idle], single := true, run := fun _ s => .long s id }

/-- LOAD_CRATE: it ends with LONG_COMMAND_DONE. -/
def execLoadCrate (k : Packet) (s : State) : Out := hostCommand cLoadCrate k s

end Sys2Proof.Machine
end

