-- ==== Sys2Proof/Machine/Place.lean ====
section
/-! DEFINITION. The Storekeeper (R71 to R73, R310 to R326): health, the choice of a variant, the region map, bins, the placement record, locks, and
PLACE. -/

namespace Sys2Proof.Machine

open Sys2Proof

/-! ### Health (R147, R311 to R313) -/

/-- The number of a physical core slot (R147): physical region `j`, physical row, physical column. -/
def slotNum (j row col : Nat) : Nat := j * 1353 + row * 41 + col

/-- Whether a physical core is defective. -/
def State.coreBad (s : State) (j row col : Nat) : Bool :=
  s.mgmt.defectCores.contains (slotNum j row col) || s.mgmt.retiredCores.contains (slotNum j row col)

/-- The defective cores of a physical row. -/
def State.badCols (s : State) (j row : Nat) : List Nat := (List.range 41).filter (s.coreBad j row)

/-- Whether a physical row is defective. -/
def State.rowBad (s : State) (j row : Nat) : Bool := decide (2 ≤ (s.badCols j row).length) || s.mgmt.defectRows.contains (j * 33 + row)

/-- The defective rows of a physical region. -/
def State.badRows (s : State) (j : Nat) : List Nat := (List.range 33).filter (s.rowBad j)

/-- Whether a physical region is usable. -/
def State.regionUsable (s : State) (j : Nat) : Bool := !s.mgmt.retiredRegions.contains j && decide ((s.badRows j).length ≤ 1)

/-- The usable regions of each compute die (R312). -/
def State.countUsable (s : State) : List Nat := (List.range 4).map fun d => ((List.range 16).filter (fun r => s.regionUsable (16 * d + r))).length

/-- The disabled row of a usable region and the disabled column of each of its rows (R313): 32 and 40, the spares, for none. -/
def State.rowcol (s : State) (j : Nat) : List Nat :=
  let dr := (s.badRows j).headD 32
  dr :: (List.range 33).map (fun row => if row = dr then 40 else (s.badCols j row).headD 40)

/-! ### Temperature, wear and the region map (R314, R315) -/

/-- The temperature of a physical region in whole degrees, limited to 0 to 255. -/
def State.regionT (s : State) (j : Nat) : Nat := Nat.min 255 (spGet 0 s.stats.regionTemp j).toNat

/-- The wear of a physical region. -/
def State.regionW (s : State) (j : Nat) : Nat := Nat.min 255 ((spGet 0 s.mgmt.wear j).toNat / 2 ^ 24)

/-- The key of a physical region under a policy. -/
def State.regionKey (s : State) (policy j : Nat) : Nat :=
  match policy with
  | 1 => s.regionT j
  | 2 => s.regionW j
  | 3 => s.regionT j + s.regionW j
  | _ => 0

/-- The physical regions that carry the `n` logical regions of die `d`: those with the largest keys idle, the larger index first. -/
def State.carried (s : State) (policy d n : Nat) : List Nat :=
  let l := (List.range 16).filterMap (fun r => if s.regionUsable (16 * d + r) then some (16 * d + r) else none)
  sortBy id ((sortBy (fun j => s.regionKey policy j * 64 + j) l).take n)

/-- The region map: logical region 16d + r and its physical region. -/
def State.regionMap (s : State) (policy : Nat) (v : VariantRec) : List (Nat × Nat) :=
  (List.range 4).flatMap fun d => (s.carried policy d (v.need d)).zipIdx.map (fun e => (16 * d + e.2, e.1))

/-! ### Bins (R317, R318, R338, R354, R480) -/

/-- The number of the zone of an address, counted from 0. -/
def zoneIndex : List Zone → Nat → Nat
  | [], _ => 0
  | z :: t, o => if o < zoneBytes z then 0 else zoneIndex t (o - zoneBytes z) + 1

/-- One bin from each list that is not empty, in turn. -/
def takeRound : List (List Nat) → List Nat
  | [] => []
  | l :: t => match l with
    | [] => takeRound t
    | b :: _ => b :: takeRound t

/-- Bins from each list in turn until every list is empty. -/
def dealBins : Nat → List (List Nat) → List Nat
  | 0, _ => []
  | fuel + 1, ls => if ls.all List.isEmpty then [] else takeRound ls ++ dealBins fuel (ls.map (·.drop 1))

/-- The free order of a bin area (R318). -/
def State.binOrder (s : State) (base n : Nat) : List Nat :=
  dealBins n ((List.range s.cellar.zones.length).map fun z =>
    (List.range n).filter (fun i => zoneIndex s.cellar.zones (base + binBytes * i) == z))

/-- Whether a crate runs streams (R285, R317). -/
def Crate.streams (c : Crate) : Bool := bit c.features 4

/-- Whether every class has an allocatable bin in the area (R338). -/
def State.classesMet (s : State) (base n : Nat) : Bool :=
  (List.range s.classCount).all fun q => (List.range n).any fun i =>
    !s.binRemapped (base + binBytes * i) && (match classIn s.cellar.zones 0 (base + binBytes * i) with | some (c, _) => c == q | none => false)

/-- The reason for which a bin area is refused, 0 for none (R317, R338, R354, R480). -/
def State.binReason (s : State) (c : Crate) (base n : Nat) : Nat :=
  if !c.streams then (if n = 0 then 0 else 0x0902)
  else if s.populated - c.reserve < base + binBytes * n ∨ base < s.ringSize + s.alarms.ovfGib * 2 ^ 30 then 0x0902
  else if !s.classesMet base n then 0x0909 else 0

/-! ### The choice of a variant (R319) -/

/-- The image of a variant. -/
def State.imageOf (s : State) (v : Nat) : Option Image := s.mgmt.images.find? (fun i => i.variant == v)

/-- The link of a port of this device. -/
def State.ownLink (s : State) (p : Nat) : Link := let (x, y, z) := s.coords; s.linkName x y z p

/-- The first port that set 0 uses and that is neither `UP` nor covered by a detour plan (R206) (DEDUCED, log entry 49). -/
def State.portMissing (s : State) (i : Image) : Option Nat :=
  (i.sets.find? (fun t => t.index == 0)).bind fun t => t.ports.find? fun p =>
    !((s.port p).state == .up || i.sets.any (fun q => q.base == some 0 && q.lossSet.contains (s.ownLink p)))

/-- The reason for which a fit variant cannot be placed, 0 for none (DEDUCED, log entry 68). -/
def State.placeReason (s : State) (c : Crate) (v : VariantRec) (base n : Nat) : Nat :=
  match s.imageOf v.index with
  | none => 0x0903
  | some i =>
    if (List.range 4).any (fun d => decide (s.mgmt.usable.getD d 0 < v.need d)) then 0x0901
    else if s.populated < c.reserve then 0x0902
    else if s.binReason c base n ≠ 0 then s.binReason c base n
    else if (s.portMissing i).isSome then 0x0514 else 0

/-- The stream load: entries that are not free. -/
def State.streamLoad (s : State) : Nat := (s.streams.entries.filter (fun e => e.2.state != .free)).length

/-- The choice among placeable variants (DEDUCED, log entry 68). -/
def chooseVariant (streams : Bool) (load : Nat) (l : List VariantRec) : Option VariantRec :=
  let pref := fun (v : VariantRec) => v.pref * 256 + v.index
  let enough := l.filter (fun v => decide (load ≤ v.batch))
  if !streams || load == 0 then leastBy pref l
  else if !enough.isEmpty then leastBy (fun v => v.batch * 65536 + pref v) enough
  else leastBy (fun v => (65535 - v.batch) * 65536 + pref v) l

/-! ### The placement record (R321, R322) -/

/-- A byte of the record for none. -/
def noneByte (none_ v : Nat) : List Byte := leBytes 1 (if v = none_ then 0xFF else v)

/-- The 34 bytes of `ROWCOL` for a physical region. -/
def rowcolBytes : Option (List Nat) → List Byte
  | none => List.replicate 34 0xFF
  | some l => noneByte 32 (l.headD 32) ++ (List.range 33).flatMap (fun i => noneByte 40 ((l.drop (1 + i)).headD 40))

/-- The bytes of a placement record. -/
def Placement.bytes (p : Placement) (usable : List Nat) : List Byte :=
  leBytes 1 1 ++ leBytes 1 p.variant ++ leBytes 1 p.flags ++ leBytes 1 p.policy
    ++ (List.range 4).flatMap (fun d => leBytes 1 (usable.getD d 0)) ++ leBytes 8 p.frame ++ slice p.ttDigest 0 64
    ++ (List.range 64).flatMap (fun g => leBytes 1 (match p.regionMap.find? (fun e => e.1 = g) with | some e => e.2 % 16 | none => 0xFF))
    ++ (List.range 64).flatMap (fun j => leBytes 1 (spGet 0 p.temps j)) ++ (List.range 64).flatMap (fun j => leBytes 1 (spGet 0 p.wears j))
    ++ leBytes 4 p.streamLoad ++ leBytes 4 p.binCount ++ leBytes 8 p.binBase
    ++ (List.range 64).flatMap (fun j => rowcolBytes ((p.rowcol.find? (fun e => e.1 = j)).map (·.2))) ++ p.binOrder.flatMap (leBytes 4)

/-- A placement with its record and the record's digest (R321). -/
def Placement.withRecord (p : Placement) (b : List Byte) : Placement := { p with record := b, digest := hashH b }

/-- A sparse list of the values of physical regions. -/
def regionValues (f : Nat → Nat) : List (Nat × Nat) := (List.range 64).foldl (fun m j => spSet 0 m j (f j)) []

/-- The placement of a variant by the Storekeeper's own choices. -/
def State.placementOf (s : State) (v : VariantRec) (i : Image) (flags frame base n : Nat) : Placement :=
  let pol := s.settings.rotatePolicy
  let p : Placement := {
    variant := v.index, flags, policy := pol, frame, regionMap := s.regionMap pol v, temps := regionValues s.regionT,
    wears := regionValues s.regionW, streamLoad := s.streamLoad, binBase := if n = 0 then 0 else base, binCount := n,
    rowcol := ((List.range 64).filter s.regionUsable).map (fun j => (j, s.rowcol j)), binOrder := s.binOrder base n, ttDigest := i.digest,
    digest := [] }
  p.withRecord (p.bytes s.mgmt.usable)

/-- A zone as numbers. -/
def Zone.nums (z : Zone) : List Nat := z.mio :: z.groups.length :: z.groups

/-- The zone table and the remaps as numbers. -/
def State.zoneNums (s : State) : List Nat :=
  s.cellar.zones.length :: s.cellar.zones.flatMap Zone.nums ++ s.cellar.remaps.length :: s.cellar.remaps.flatMap Remap.nums

/-- The content of a `PLACEMENT` record (R322): the record, then the zone table and the retirement list, which have no layout of their own in the spec
(DESIGN CHOICE, log entry 15). -/
def State.placementContent (s : State) (p : Placement) : List Byte :=
  p.record ++ Config.layout 0x152 s.zoneNums ++ Config.layout 0x40 s.retirement

/-- Put a placement in force, where its record set finds room (R352). -/
def putPlacement (s : State) (p : Placement) : Option State :=
  let body := s.placementContent p
  if !s.roomFor (s.recordSet 7 p.frame 0 0 body false false) then none
  else some (record { s with
    mgmt := { s.mgmt with placed := some p }, clock := { s.clock with storekeeperTemp := p.temps } } 7 p.frame 0 0 body)

/-! ### Locks (R323) -/

/-- The 34 bytes of a region obey R71 and R72 in form: a row, and a column of each row that is not disabled. -/
def rowcolOk (b : List Byte) : Bool :=
  b.all (· == 0xFF) || ((le b 0 1 == 0xFF || decide (le b 0 1 < 33)) &&
    (List.range 33).all (fun i => le b (1 + i) 1 == 0xFF || (decide (le b (1 + i) 1 < 41) && le b 0 1 != i)))

/-- The row and columns of 34 bytes, none for a retired region. -/
def rowcolOf (b : List Byte) : Option (List Nat) :=
  if b.all (· == 0xFF) then none
  else some ((if le b 0 1 = 0xFF then 32 else le b 0 1) :: (List.range 33).map (fun i => if le b (1 + i) 1 = 0xFF then 40 else le b (1 + i) 1))

/-- Whether the cores that a region carries under a row and columns are all healthy. -/
def State.regionHealthy (s : State) (j : Nat) (rc : List Nat) : Bool :=
  let dr := rc.headD 32
  !s.mgmt.retiredRegions.contains j && (List.range 33).all fun row =>
    row == dr || (List.range 41).all fun col => col == (rc.drop (1 + row)).headD 40 || !(s.coreBad j row col)

/-- The placement that a record holds (DEDUCED, log entry 69). -/
def placementIn (b : List Byte) : Placement :=
  let n := le b 276 4
  { variant := le b 1 1, flags := le b 2 1, policy := le b 3 1, frame := le b 8 8, ttDigest := slice b 16 64,
    regionMap := (List.range 64).filterMap (fun g => let r := le b (80 + g) 1; if r = 0xFF then none else some (g, g / 16 * 16 + r % 16)),
    temps := regionValues (fun j => le b (144 + j) 1), wears := regionValues (fun j => le b (208 + j) 1), streamLoad := le b 272 4,
    binCount := n, binBase := le b 280 8,
    rowcol := (List.range 64).filterMap (fun j => (rowcolOf (slice b (288 + 34 * j) 34)).map (fun l => (j, l))),
    binOrder := (List.range n).map (fun i => le b (2464 + 4 * i) 4), digest := [] }

/-- Whether a list holds each of 0 to n − 1 once. -/
def isPermutation (n : Nat) (l : List Nat) : Bool := l.length == n && (sortBy id l) == List.range n

/-- The first byte offset of a placement record that fails a check of a lock, none where it is accepted (DEDUCED, log entry 69). -/
def lockFails (s : State) (c : Crate) (vmask : Nat) (variant : Option Nat) (b : List Byte) : Option Nat :=
  let p := placementIn b
  let fit := match s.imageOf p.variant with | some i => i.fit && bit vmask p.variant | none => false
  let dig := match s.imageOf p.variant with | some i => i.digest == p.ttDigest | none => false
  let badMap := p.regionMap.find? fun e => match p.rowcol.find? (fun r => r.1 = e.2) with
    | some r => !s.regionHealthy e.2 r.2
    | none => true
  let badRow := (List.range 64).find? (fun j => !rowcolOk (slice b (288 + 34 * j) 34))
  if b.length < 2464 then some b.length
  else if le b 0 1 ≠ 1 then some 0
  else if !fit || (match variant with | some v => v != p.variant | none => false) then some 1
  else if !dig then some 16
  else match badMap, badRow with
    | some e, _ => some (80 + e.1)
    | none, some j => some (288 + 34 * j)
    | none, none =>
      if b.length ≠ 2464 + 4 * p.binCount then some 276
      else if p.binBase % binBytes ≠ 0 ∨ (c.streams && p.binCount == 0) ∨ s.binReason c p.binBase p.binCount ≠ 0 then some 276
      else if !isPermutation p.binCount p.binOrder then some 2464 else none

/-! ### The location of a refusal (R305) -/

/-- The location of R305: a field that does not apply is all ones. -/
structure Location where
  variant : Nat := 0xFF
  entry : Nat := 0xFF
  core : Nat := 0xFFFFFFFF
  op : Nat := 0xFFFF
  word : Nat := 0xFFFF
  cycle : Nat := 0xFFFFFFFF
  object : Nat := 0xFFFF
  port : Nat := 0xFFFF
  detail : Nat := 0xFFFFFFFF
  deriving DecidableEq, Repr

/-- The 32 bytes of a location. -/
def Location.bytes (l : Location) : List Byte :=
  leBytes 1 l.variant ++ leBytes 1 l.entry ++ zeros 2 ++ leBytes 4 l.core ++ leBytes 2 l.op ++ leBytes 2 l.word ++ leBytes 4 l.cycle
    ++ leBytes 2 l.object ++ leBytes 2 l.port ++ leBytes 4 l.detail ++ zeros 8

/-- A refusal with a location. -/
def rejectAt (r : Nat) (l : Location) : Final := (stRejected, r, resAt 24 l.bytes)

/-! ### PLACE -/

/-- Why a placement did not come about: a reason and a location, or no room for its record. -/
inductive PlaceFail where
  | reason (r : Nat) (l : Location)
  | noRoom

/-- Place by the Storekeeper's choice among variants (R319): the new state, the placement and the mask of placeable variants (DEDUCED, log entry 68).
-/
def placeChoice (s : State) (c : Crate) (vs : List VariantRec) (flags frame base n : Nat) : Except PlaceFail (State × Placement × Nat) :=
  let ok := vs.filter (fun v => s.placeReason c v base n == 0)
  let mask := (ok.map (fun v => 2 ^ v.index)).sum
  match chooseVariant c.streams s.streamLoad ok with
  | none => match vs with
    | [v] =>
      let l : Location := { variant := v.index }
      let port := (s.imageOf v.index).bind s.portMissing
      .error (.reason (s.placeReason c v base n) (if s.placeReason c v base n = 0x0514 then { l with port := port.getD l.port } else l))
    | _ => .error (.reason 0x0903 {})
  | some v => match s.imageOf v.index with
    | none => .error (.reason 0x0903 {})
    | some i =>
      let p := s.placementOf v i flags frame base n
      match putPlacement s p with
      | some s1 => .ok (s1, p, mask)
      | none => .error .noRoom

/-- Place under a lock: the record as it stands, but for its flags (R323) (DEDUCED, log entry 69). -/
def placeLocked (s : State) (c : Crate) (vmask : Nat) (variant : Option Nat) (flags : Nat) (b : List Byte) :
    Except PlaceFail (State × Placement × Nat) :=
  match lockFails s c vmask variant b with
  | some a => .error (.reason 0x0906 { detail := a })
  | none =>
    let p0 := placementIn b
    let f := p0.flags ||| (1 + flags)
    let p := Placement.withRecord { p0 with flags := f } (b.take 2 ++ leBytes 1 f ++ b.drop 3)
    match putPlacement s p with
    | some s1 => .ok (s1, p, 2 ^ p.variant)
    | none => .error .noRoom

/-- The fit variants of a mask. -/
def State.fitVariants (s : State) (c : Crate) (mask : Nat) : List VariantRec :=
  c.variants.filter (fun v => bit mask v.index && (match s.imageOf v.index with | some i => i.fit | none => false))

/-- The results of `PLACE` (R325). -/
def placeResults (s : State) (p : Placement) (mask : Nat) : List (Nat × Byte) :=
  resAt 24 (leBytes 1 p.variant ++ leBytes 1 mask ++ leBytes 1 p.flags ++ zeros 1
    ++ (List.range 4).flatMap (fun d => leBytes 1 (s.mgmt.usable.getD d 0)) ++ slice p.digest 0 64 ++ leBytes 4 p.binCount)

/-- The end of `PLACE` (R319, R322, R323, R325, R352) (DEDUCED, log entry 68). -/
def finishPlace (k : Packet) (s : State) : State × Final :=
  match s.mgmt.crate with
  | none => (s, stBadState, 0, [])
  | some c =>
    let s0 := { s with mgmt := { s.mgmt with placed := none } }
    let lock := bit (k.par 17 1) 0
    let prec := slice k.pulled 0 (k.par 48 4)
    let s1 := if lock then pullRecord s0 2 (k.par 40 8) prec else s0
    let r := if lock then placeLocked s1 c (k.par 16 1) none 0 prec
      else placeChoice s1 c (s1.fitVariants c (k.par 16 1)) 0 0 (k.par 24 8) (k.par 32 4)
    match r with
    | .ok (s2, p, m) => (s2, stOk, 0, placeResults s2 p m)
    | .error (.reason x l) => (s1, rejectAt x l)
    | .error .noRoom => (s1, stBusy, 0x0A30, [])

/-- `PLACE` (R325): it needs a crate that has been verified (DEDUCED, log entry 68). -/
def cPlace : Cmd := {
  opcode := 0x22, allowed := [.idle], single := true
  run := fun k s =>
    let lock := bit (k.par 17 1) 0
    let n := k.par 32 4
    match s.mgmt.crate with
    | none => refuse s stBadState 0
    | some c =>
      if !s.mgmt.verified then refuse s stBadState 0
      else if k.par 16 1 = 0 ∨ (!lock ∧ (k.par 24 8 % binBytes ≠ 0 ∨ 2 ^ 24 < n ∨ (c.streams ∧ n = 0))) then refuse s stBadParam 0
      else .long s id }

/-- PLACE: it ends with LONG_COMMAND_DONE. -/
def execPlace (k : Packet) (s : State) : Out := hostCommand cPlace k s

end Sys2Proof.Machine
end

