-- ==== Sys2Proof/Machine/Images.lean ====
section
/-! DEFINITION. Timetable images (R143, R158, R301, R302): their bytes, their digest, and the loader's structural checks of them (R199, R206, R208,
R214, R218, R222, R226, R231, R234, R259, R260). The layouts of the sections that R301 lists without one are those of log entry 17. -/

namespace Sys2Proof.Machine

open Sys2Proof

/-! ### Inputs (R301) -/

/-- `INPUT_DIGEST`: over `FLOW_BASE`, the widths and `FLIGHT_DECL` of the ports, and the zone table with its remaps (DESIGN CHOICE, log entry 15). -/
def State.inputDigest (s : State) : List Byte :=
  hashH (Config.layout 0x301 (s.fabric.flowBase :: (List.range 22).flatMap (fun p => [(s.port p).width, (s.port p).flightDecl]) ++ s.zoneNums))

/-! ### The bytes of an image -/

/-- The bytes of a core section before its segments (R143). -/
def CoreSect.head (c : CoreSect) : List Byte :=
  leBytes 1 1 ++ leBytes 1 1 ++ leBytes 2 (b2n c.owner) ++ leBytes 4 c.lcore ++ leBytes 2 c.group ++ leBytes 1 c.entries.length ++ zeros 5
    ++ (List.range 8).flatMap (fun i => leBytes 2 (c.entries.getD i 0))
    ++ (List.range 64).flatMap (fun i => let t := spGet {} c.setters i; leBytes 4 (t.unit + 8 * b2n t.other + 16 * t.core))
    ++ (List.range 64).flatMap (fun i => leBytes 2 (match c.afmap.find? (fun e => e.1 = i) with | some e => e.2 | none => 0xFFFF))
    ++ (List.range 4).flatMap (fun i => leBytes 4 (c.tileinit.getD i 0).toNat) ++ zeros 16
    ++ (List.range 32).flatMap (fun i => leBytes 4 (c.sinit.getD i 0).toNat)
    ++ slice (c.flows.flatMap (fun f => leBytes 4 (f.flow + f.count * 2 ^ 20))) 0 256
    ++ (List.range 1536).flatMap (fun i => leBytes 8 (spGet 0 c.code i).toNat) ++ leBytes 4 c.segs.length

/-- The segments of a core section that begins at byte `base` of the image: their table, then their bytes. -/
def segsBytes (base : Nat) (l : List Seg) : List Byte :=
  let first := base + 13124 + 24 * l.length
  let t := l.foldl (fun (acc : Nat × List Byte) g =>
    (acc.1 + g.bytes.length, acc.2 ++ leBytes 1 (b2n g.attic) ++ zeros 7 ++ leBytes 4 g.offset ++ leBytes 4 g.bytes.length ++ leBytes 8 acc.1))
    (first, [])
  t.2 ++ l.flatMap (·.bytes)

/-- A core section at byte `base` of the image. -/
def CoreSect.bytes (c : CoreSect) (base : Nat) : List Byte := c.head ++ segsBytes base c.segs

/-- A controller section (DESIGN CHOICE, log entry 17): version, controller, number of programs; each program behind its length. -/
def controllerBytes (e : Nat × List (List DWord)) : List Byte :=
  leBytes 2 1 ++ leBytes 2 e.1 ++ leBytes 4 e.2.length
    ++ e.2.flatMap (fun p => leBytes 8 p.length ++ p.flatMap (fun w => leBytes 8 w.toNat))

/-- A table set in the form of the crate's `TABLESETS` (DESIGN CHOICE, log entry 17). -/
def TableSet.bytes (t : TableSet) : List Byte :=
  leBytes 1 t.index ++ leBytes 1 (t.base.getD 255) ++ leBytes 1 t.lossSet.length ++ zeros 1 ++ leBytes 4 t.tx.length ++ leBytes 4 t.xbar.length
    ++ leBytes 4 t.landing.length
    ++ t.lossSet.flatMap (fun l => leBytes 1 l.x ++ leBytes 1 l.y ++ leBytes 1 l.z ++ leBytes 1 l.port)
    ++ t.tx.flatMap (fun e => leBytes 8 e.port ++ leBytes 8 (encodeT e)) ++ t.xbar.flatMap (fun e => leBytes 8 (encodeX e))
    ++ t.landing.flatMap (fun e => leBytes 16 (encodeL e))

/-- Owners and sources in the form of the crate's `SOURCES`, with absolute flows. -/
def sourcesBytes (d : List (Nat × Nat × Nat)) (l : List SourceRec) : List Byte :=
  d.flatMap (fun e => leBytes 1 e.1 ++ leBytes 1 e.2.1 ++ leBytes 1 e.2.2 ++ zeros 1)
    ++ l.flatMap (fun r => leBytes 4 r.flow ++ leBytes 1 r.phase ++ leBytes 1 (b2n r.attic) ++ zeros 2 ++ leBytes 4 r.lcore ++ leBytes 4 r.base)

/-- Areas in the form of the crate's `HATCH`. -/
def areasBytes (l : List Area) : List Byte := l.flatMap (fun a => leBytes 4 a.offset ++ leBytes 4 a.size ++ leBytes 1 a.kind ++ zeros 7)

/-- Seeds in the form of the crate's `SEEDS`. -/
def seedsBytes (l : List (Nat × GenCtx)) : List Byte :=
  (List.range 1024).flatMap (fun i => let g := spGet {} l i; leBytes 16 g.seed.toNat ++ leBytes 8 g.step.toNat)

/-- The sections of an image in the order of R301, each with its type and its bytes at a given place. -/
def Image.sections (i : Image) (reductions : List Byte) : List (Nat × (Nat → List Byte)) :=
  i.cores.map (fun c => (0x01, c.bytes)) ++ i.programs.map (fun e => (0x60, fun _ => controllerBytes e)) ++
    [(0x10, fun _ => i.sets.flatMap TableSet.bytes), (0x12, fun _ => i.flips.flatMap (fun f => leBytes 8 f.1 ++ leBytes 1 f.2 ++ zeros 7)),
     (0x13, fun _ => sourcesBytes i.sourceDevs i.sources), (0x30, fun _ => areasBytes i.areas), (0x40, fun _ => seedsBytes i.seeds),
     (0x20, fun _ => reductions)]

/-- The header of an image (R301). -/
def Image.header (i : Image) : List Byte :=
  ascii "FAELMTTI" ++ leBytes 1 1 ++ leBytes 1 (stepCode i.stepping) ++ leBytes 1 i.assy ++ leBytes 1 i.fpc ++ leBytes 1 i.variant
    ++ leBytes 1 i.origin ++ leBytes 1 (modeCode i.mode) ++ leBytes 1 i.guardPm ++ leBytes 2 i.frameRounds ++ leBytes 2 i.nent
    ++ leBytes 4 i.budget ++ leBytes 4 i.e ++ leBytes 4 i.cores.length ++ slice i.crateDigest 0 64 ++ slice i.sheetDigest 0 64
    ++ slice i.inputDigest 0 64 ++ leBytes 8 i.flowBase ++ leBytes 1 i.devX ++ leBytes 1 i.devY ++ leBytes 1 i.devZ ++ zeros 5
    ++ leBytes 8 i.nframes ++ zeros 8

/-- The directory and the sections of an image, from byte `at_`. -/
def Image.body (i : Image) (at_ : Nat) : List (Nat × (Nat → List Byte)) → List Byte × List Byte
  | [] => ([], [])
  | (t, f) :: rest =>
    let b := f at_
    let (d, x) := Image.body i (at_ + b.length) rest
    (leBytes 2 t ++ leBytes 1 i.variant ++ zeros 1 ++ leBytes 1 i.devX ++ leBytes 1 i.devY ++ leBytes 1 i.devZ ++ zeros 1 ++ leBytes 8 at_
      ++ leBytes 8 b.length ++ (hashH b).take 32 ++ zeros 8 ++ d, b ++ x)

/-- The bytes of an image. -/
def Image.bytes (i : Image) (reductions : List Byte) : List Byte :=
  let l := i.sections reductions
  let (d, x) := i.body (256 + 64 * l.length) l
  i.header ++ d ++ x

/-! ### Reading an image that the host supplies (R303) -/

/-- A core section of an image, whose segments name bytes of the image. -/
def readCoreSect (f : List Byte) (b : List Byte) : CoreSect :=
  { lcore := coreOfHead b, group := le b 8 2 % 32768, owner := bit (le b 2 2) 0, entries := entriesOf b, setters := settersOf b,
    afmap := afmapOf b, tileinit := wordsOf b 416 4, sinit := wordsOf b 448 32, flows := flowsOf b,
    code := (List.range 1536).foldl (fun m i => spSet 0 m i (BitVec.ofNat 64 (le b (832 + 8 * i) 8))) [],
    segs := (List.range (le b 13120 4)).map fun i =>
      let (a, o, n, w) := segAt b (13124 + 24 * i)
      { attic := a, offset := o, bytes := slice f w n } }

/-- Whether a core section has its form. -/
def coreSectOk (f b : List Byte) : Bool :=
  let n := le b 13120 4
  headOk b && decide (13124 + 24 * n ≤ b.length) && (List.range n).all fun i =>
    segOk (segAt b (13124 + 24 * i)) && (let (_, _, m, w) := segAt b (13124 + 24 * i); decide (w + m ≤ f.length))

/-- The programs of a controller section, `n` of them. -/
def readPrograms : Nat → List Byte → List (List DWord)
  | 0, _ => []
  | n + 1, b =>
    let m := le b 0 8
    (List.range m).map (fun i => BitVec.ofNat 64 (le b (8 + 8 * i) 8)) :: readPrograms n (b.drop (8 + 8 * m))

/-- The types of the sections of an image. -/
def imageTypes : List Nat := [0x01, 0x10, 0x12, 0x13, 0x20, 0x30, 0x40, 0x60, 0xF0]

/-- The directory of an image: it ends where its first section begins (DESIGN CHOICE, log entry 17). -/
def imageDir (f : List Byte) : List Section := let n := (le f 264 8 - 256) / 64; dirEntries f 256 n

/-- The joined bytes of the sections of a type. -/
def secData (l : List Section) (t : Nat) : List Byte := (l.filter (fun x => x.stype == t)).flatMap (·.data)

/-- Whether bytes have the form of an image: header, directory and sections. -/
def imageForm (f : List Byte) : Bool :=
  let l := imageDir f
  decide (256 ≤ f.length) && slice f 0 8 == ascii "FAELMTTI" && le f 8 1 == 1 && (le f 9 1 == 0xA0 || le f 9 1 == 0xB0) && decide (le f 14 1 ≤ 2)
    && within 16 4096 (le f 16 2) && within 1 8 (le f 18 2) && dirOk f (256 + 64 * l.length) imageTypes l
    && l.all (fun x => x.stype != 0x01 || coreSectOk f x.data) && (readSets (secData l 0x10).length (secData l 0x10)).isSome
    && (l.filter (fun x => x.stype == 0x01)).length == le f 28 4

/-- The image that bytes hold. -/
def imageIn (f : List Byte) : Image :=
  let l := imageDir f
  let sets := (readSets (secData l 0x10).length (secData l 0x10)).getD []
  let buf := (sets.find? (fun t => t.index == 0)).elim 0 (fun t => t.landing.length)
  let src := readSources buf (secData l 0x13)
  { variant := le f 12 1, fit := true, origin := 1, fpc := le f 11 1, assy := le f 10 1, crateDigest := slice f 32 64, sheetDigest := slice f 96 64,
    devX := le f 232 1, devY := le f 233 1, devZ := le f 234 1, digest := hashH f, e := le f 24 4, budget := le f 20 4, guardPm := le f 15 1,
    inputDigest := slice f 160 64, stepping := if le f 9 1 = 0xB0 then .b0 else .a0, mode := modeOf (le f 14 1), frameRounds := le f 16 2,
    nent := le f 18 2, nframes := le f 240 8, flowBase := le f 224 8,
    cores := (l.filter (fun x => x.stype == 0x01)).map (fun x => readCoreSect f x.data), sets,
    flips := (pieces 16 (secData l 0x12)).map (fun b => (le b 0 8, le b 8 1)), sources := src.2, sourceDevs := src.1,
    areas := readAreas (secData l 0x30), seeds := if (secData l 0x40).isEmpty then [] else readSeeds (secData l 0x40),
    programs := (l.filter (fun x => x.stype == 0x60)).map (fun x => (le x.data 2 2, readPrograms (le x.data 4 4) (x.data.drop 8))) }

/-! ### The loader's structural checks -/

/-- The width in lanes and the `FLIGHT_DECL` that the crate's `EXCHANGE` assumes of a port (R283), none without the section. -/
def Crate.exchange (c : Crate) (v p : Nat) : Option (Nat × Nat) :=
  let b := c.data 0x11 v
  if b.length < 88 then none else some (le b (4 * p) 1, le b (4 * p + 2) 2)

/-- The slots of a port that a crate's tables may use: those of the width that its `EXCHANGE` declares (R199, R222). -/
def Crate.slots (s : State) (c : Crate) (v p : Nat) : Nat :=
  match c.exchange v p with
  | some (16, _) => 1536
  | some (8, _) => 768
  | _ => s.tableSlots p

/-- The declared arrival of a landing buffer (R283). -/
def Crate.arrive (c : Crate) (v n : Nat) : Option Int :=
  let b := c.data 0x11 v
  if b.length < 92 + 4 * n then none else some (sext 32 (le b (88 + 4 * n) 4))

/-- Whether a flow lies in the device's range (R260). -/
def State.flowOwn (s : State) (f : Nat) : Bool := decide (s.fabric.flowBase ≤ f) && decide (f < s.fabric.flowBase + s.fabric.flowCount)

/-- Whether a table set keeps to capacities (R214). -/
def TableSet.fits (t : TableSet) : Bool :=
  (List.range 22).all (fun p => decide ((t.tx.filter (fun e => e.port == p)).length ≤ 16384)) && decide (t.xbar.length ≤ 65536)
    && decide (t.landing.length ≤ 8192)

/-- Whether the flows of a table set lie in the device's range. -/
def State.setFlows (s : State) (t : TableSet) : Bool :=
  t.tx.all (fun e => s.flowOwn e.flow) && t.xbar.all (fun e => s.flowOwn e.flow) && t.landing.all (fun e => s.flowOwn e.flow)

/-- The core, arrival flag and buffer of the first disagreement of arrival flags and landing entries (R226). -/
def Image.afmapFault (i : Image) (t : TableSet) : Option (Nat × Nat × Nat) :=
  let alone := fun (c : CoreSect) (e : Nat × Nat) => match t.landing[e.2]? with
    | some l => !(l.lcore == c.lcore && l.aflag == e.1)
    | none => true
  match i.cores.findSome? fun c => (c.afmap.find? (alone c)).map fun e => (c.lcore, e) with
  | some x => some x
  | none => (t.landing.zipIdx.find? fun e => !i.cores.any (fun c => c.lcore == e.1.lcore && c.afmap.contains (e.1.aflag, e.2))).map
      fun e => (e.1.lcore, e.1.aflag, e.2)

/-- Whether the flips of an image are possible (R231), the inactive version being writable from frame `start` on: a set named exists, and its
write ends before the round in front of the flip. The version is writable again two ticks after the flip. -/
def flipsOk (i : Image) : Nat → List (Nat × Nat) → Bool
  | _, [] => true
  | start, (f, n) :: rest =>
    (match i.sets.find? (fun t => t.index == n) with
      | some t => decide (start ≤ f) && decide (t.rounds + 1 ≤ (f - start) * i.frameRounds) && flipsOk i (f + 2) rest
      | none => false)

/-- Whether two links of a loss set lie on one ring: the same torus port on devices that differ on its axis alone (R276; log entry 90). -/
def sameRing (a b : Link) : Bool :=
  let axis := basePort a.port / 2
  a.port == b.port && decide (basePort a.port < 6) && (axis == 0 || a.x == b.x) && (axis == 1 || a.y == b.y) && (axis == 2 || a.z == b.z)

/-- Whether a loss set holds two links of one ring. -/
def ringTwice : List Link → Bool
  | [] => false
  | l :: t => t.any (sameRing l) || ringTwice t

/-- Whether a link lies on an axis that the slice leaves open (DEDUCED, log entry 90). -/
def State.onOpenAxis (s : State) (l : Link) : Bool :=
  let f := s.fabric
  match basePort l.port / 2 with
  | 0 => !f.wrapX
  | 1 => !f.wrapY
  | 2 => !f.wrapZ
  | _ => false

/-- Whether the loader refuses a table set as a detour plan (R275, R276). A set without a base set is none (DEDUCED, log entry 90). -/
def State.detourBad (s : State) (i : Image) (t : TableSet) : Bool :=
  match t.base with
  | none => !t.lossSet.isEmpty
  | some n =>
    t.lossSet.isEmpty || decide (8 < t.lossSet.length) ||
      (match i.sets.find? (fun u => u.index == n) with
        | some u => u.base.isSome || u.landing != t.landing
        | none => true) ||
      t.ports.any (fun p => !isIngest p && t.lossSet.contains (s.ownLink p)) || ringTwice t.lossSet || t.lossSet.any s.onOpenAxis

/-- A refusal with its location where a condition holds. -/
def faultIf (b : Bool) (r : Nat) (l : Location) : Option (Nat × Location) := if b then some (r, l) else none

/-- A refusal of the first element of a list that fails a check. -/
def faultAt {α : Type} (l : List α) (bad : α → Bool) (r : Nat) (place : α → Location) : Option (Nat × Location) :=
  (l.find? bad).map fun x => (r, place x)

/-- The first refusal of a list. -/
def firstFault (l : List (Option (Nat × Location))) : Option (Nat × Location) := l.findSome? id

/-- The refusal of a table set of an image with its location (R214, R218, R222, R226, R260, R275, R276). -/
def setFault (s : State) (c : Crate) (i : Image) (t : TableSet) : Option (Nat × Location) :=
  let v := s.activeVersion
  firstFault [
    faultIf (!t.fits) 0x0528 {},
    faultAt t.tx (fun e => !s.flowOwn e.flow) 0x0923 (fun e => { port := e.port, detail := e.flow }),
    faultAt t.xbar (fun e => !s.flowOwn e.flow) 0x0923 (fun e => { port := e.input, detail := e.flow }),
    faultAt t.landing (fun e => !s.flowOwn e.flow) 0x0923 (fun e => { core := e.lcore, detail := e.flow }),
    faultAt t.tx (fun e => e.transit) 0x0520 (fun e => { port := e.port, detail := e.flow }),
    faultAt t.xbar (fun e => e.transit) 0x0520 (fun e => { port := e.input, detail := e.flow }),
    (txFault s (c.slots s i.variant) i.frameRounds t.tx).map (fun e => (0x0520, { port := e.port, detail := e.flow })),
    (xbarFault s (t.xbar ++ v.txbar)).map (fun x => (x.1, { port := x.2.input, detail := x.2.flow })),
    (i.cores.findSome? fun c => faultAt c.flows (fun f => !(t.xbar.any fun e => e.input == 31 && e.flow == f.flow)) 0x052A
      (fun f => { core := c.lcore, detail := f.flow })),
    faultAt t.landing.zipIdx (fun e => !e.1.ok) 0x0522 (fun e => { core := e.1.lcore, detail := e.2 }),
    (i.afmapFault t).map (fun x => (0x0522, { core := x.1, object := obj 5 x.2.1, detail := x.2.2 })),
    faultIf (s.detourBad i t) 0x0925 { detail := t.index }]

/-- The refusal of the tables of an image at its load, with its location (R208, R231, R234, R305). -/
def tablesFault (s : State) (c : Crate) (i : Image) : Option (Nat × Location) :=
  let v := s.activeVersion
  firstFault [
    i.sets.findSome? (setFault s c i),
    i.sets.findSome? (fun t => faultAt t.tx (fun e => v.ttx.any e.meets) 0x0526 (fun e => { port := e.port, detail := e.flow })),
    i.sets.findSome? (fun t => faultAt t.ports (fun p => (s.port p).ethernet) 0x0519 (fun p => { port := p })),
    faultIf (!flipsOk i 0 i.flips) 0x0524 {}]

/-- The refusal of the ports of an image at its load, with its location (R199, R206). -/
def portsFault (s : State) (c : Crate) (i : Image) : Option (Nat × Location) :=
  let bad := fun (p : Nat) => match c.exchange i.variant p with
    | some (w, _) => (s.port p).width != 0 && w != 8 * (s.port p).width
    | none => false
  firstFault [
    i.sets.findSome? (fun t => faultAt t.ports bad 0x0513 (fun p => { port := p, detail := 8 * (s.port p).width })),
    (s.portMissing i).map (fun p => (0x0514, { port := p }))]

/-- Whether the shape of the slice is that which the crate requires (R259). -/
def shapeMet (s : State) (c : Crate) : Bool :=
  let f := s.fabric
  f.slice != 0 && f.sizeX == c.shapeX && f.sizeY == c.shapeY && f.sizeZ == c.shapeZ && f.wrapX == bit c.shapeWrap 0 && f.wrapY == bit c.shapeWrap 1
    && f.wrapZ == bit c.shapeWrap 2

/-- The reason of R302 for which an image does not belong to this device, 0 for none. -/
def bindingReason (s : State) (i : Image) : Nat :=
  reasonIf (i.stepping != s.stepping || i.assy != assyCode s.variant || slice i.sheetDigest 0 64 != slice s.sec.sheetDigest 0 64
    || i.inputDigest != s.inputDigest) 0x0708

end Sys2Proof.Machine
end

