-- ==== Sys2Proof/Machine/Keys.lean ====
section
/-! DEFINITION. Firmware (R457 to R462), the measurement log and ATTEST (R468, R469), the debug unlock (R471 to R473), and the commands that
change them. -/

namespace Sys2Proof.Machine

open Sys2Proof

/-! ### Firmware images (R458, R459, R461) -/

/-- The running firmware copy. -/
def Sec.running (x : Sec) : FwCopy := if x.runB then x.copyB else x.copyA

/-- The copy that is not running. -/
def Sec.other (x : Sec) : FwCopy := if x.runB then x.copyA else x.copyB

/-- Replace the copy that is not running. -/
def Sec.setOther (x : Sec) (c : FwCopy) : Sec := if x.runB then { x with copyA := c } else { x with copyB := c }

/-- Replace the running copy. -/
def Sec.setRunning (x : Sec) (c : FwCopy) : Sec := if x.runB then { x with copyB := c } else { x with copyA := c }

/-- Whether a firmware image has a well-formed header. -/
def fwFormed (f : List Byte) : Bool :=
  slice f 0 8 == ascii "FAELMFWI" && le f 8 1 == 1 && decide (1 ≤ le f 16 8) && decide (le f 16 8 ≤ 4184832) && decide (5376 + le f 16 8 ≤ f.length)

/-- Whether a firmware-signing key slot is fused and not revoked. -/
def Sec.slotLive (x : Sec) (i : Nat) : Bool := decide (i < 2) && !x.slotRevoked.contains i

/-- The checks of R459 but for the anti-rollback counter. -/
def fwAuthentic (x : Sec) (f : List Byte) : Bool :=
  let key := slice f 88 1952
  fwFormed f && x.slotLive (le f 9 1) && (hashH key).take 32 == slice ((x.signKeySlots.drop (le f 9 1)).headD []) 0 32 &&
    Config.mldsaVerify key (ascii "D1-FW") (slice f 0 88) (slice f 2040 3309) && slice f 24 64 == hashH (slice f 5376 (le f 16 8)) &&
    decide (le f 10 2 ≤ 64)

/-- The copy that an image becomes; it is not activated. -/
def fwCopyOf (x : Sec) (f : List Byte) : FwCopy :=
  if !fwFormed f then {} else
  { present := true, fwver := BitVec.ofNat 32 (le f 12 4), svn := le f 10 2, authOk := fwAuthentic x f,
    measurement := hashH (slice f 0 (5376 + le f 16 8)) }

/-- Write an image into the copy that is not running, and check it: the reason for which it is refused, 0 for none (R461) (DEDUCED, log entry 75). -/
def stageFirmware (s : State) (f : List Byte) : State × Nat :=
  let c := fwCopyOf s.sec f
  let r := if !c.authOk then 0x0832 else if c.svn < s.sec.arb then 0x0833 else 0
  let x := { s.sec.setOther c with fwStaged := r == 0, actPending := false, sigFails := if r = 0x0832 then s.sec.sigFails + 1 else s.sec.sigFails }
  ({ s with sec := x }, r)

/-- Write the activation word of the staged copy (R462). -/
def activateStaged (s : State) : State :=
  { s with sec := { s.sec.setOther { s.sec.other with activated := true } with actPending := true } }

/-- `FIRMWARE_STAGE` (R461). -/
def cFirmwareStage : Cmd := {
  opcode := 0xA0, allowed := anyState, single := true
  run := fun k s =>
    if 4190208 < k.par 24 8 then refuse s stBadParam 0
    else if s.sec.pldmUpdate then refuse s stBusy 0x0A02
    else .long s fun s => { s with sec := s.sec.setOther { s.sec.other with activated := false } } }

/-- The end of `FIRMWARE_STAGE` (DEDUCED, log entry 75). -/
def finishFirmwareStage (k : Packet) (s : State) : State × Final :=
  let f := slice k.pulled 0 (k.par 24 8)
  let (s1, r) := stageFirmware (pullOther s (k.par 16 8) f) f
  if r = 0 then (s1, stOk, 0, resAt 24 s1.sec.other.measurement) else (s1, stRejected, r, [])

/-- `FIRMWARE_ACTIVATE` (R462, R489) (DEDUCED, log entry 75). -/
def cFirmwareActivate : Cmd := {
  opcode := 0xA1, allowed := anyState, single := true
  run := fun k s =>
    if 1 < k.par 16 1 then refuse s stBadParam 0
    else if s.sec.pldmUpdate then refuse s stBusy 0x0A02
    else if !s.sec.fwStaged then refuse s stRejected 0x0834
    else .long s id }

/-! ### The measurement log and ATTEST (R468, R469) -/

/-- The entry of the measurement log. -/
def measEntry (i version : Nat) (value : List Byte) : List Byte := leBytes 1 i ++ zeros 3 ++ leBytes 4 version ++ zeros 8 ++ slice value 0 64

/-- The six entries (R468). -/
def State.measurements (s : State) : List Byte :=
  let x := s.sec
  measEntry 0 0 x.romDigest ++ measEntry 1 x.running.fwver.toNat x.running.measurement
    ++ measEntry 2 0 (leBytes 2 x.running.svn ++ leBytes 2 x.arb) ++ measEntry 3 0 x.sheetDigest
    ++ measEntry 4 0 (if s.settings.calRecordBad then zeros 64 else s.settings.factoryDigest) ++ measEntry 5 0 x.fuseDigest

/-- Report byte 11: the debug logic is open, `SETSIG` is blown. -/
def Sec.flagByte (x : Sec) : List Byte := leBytes 1 (b2n x.unlocked + 2 * b2n x.setsig)

/-- The four digests that a report and the SPDM measurements 16 to 19 give: settings, crate, timetable, placement. -/
def State.reportDigests (s : State) : List (List Byte) :=
  [slice s.settingsInForce.digest 0 64, digestOr Crate.digest s.mgmt.crate, digestOr Image.digest s.mgmt.loadedImage,
   digestOr Placement.digest s.mgmt.placed]

/-- The report before its signature (DESIGN CHOICE, log entry 12). -/
def State.report (s : State) (nonce : List Byte) : List Byte :=
  ascii "FAELMATT" ++ leBytes 1 1 ++ leBytes 1 6 ++ leBytes 1 (devCode s.dev) ++ s.sec.flagByte ++ leBytes 4 s.sec.unlockFuses
    ++ leBytes 8 s.serial.toNat ++ nonce ++ leBytes 8 s.now ++ leBytes 8 s.frameIndex ++ zeros 8 ++ s.reportDigests.flatten
    ++ hashH s.sec.idPublic ++ slice s.sec.measLog 0 480

/-- `ATTEST` (R469): the hedged signature is a free value (DESIGN CHOICE, log entry 12). -/
def cAttest : Cmd := {
  opcode := 0x60, allowed := anyState
  run := fun k s =>
    if k.par 56 4 < 4189 then refuse s stBadParam 0 else
    let r := s.report (k.bytes 16 32) ++ s.freeBytes 3309
    okWith (hostWrite (s.useFree 3309) (k.par 48 8) r) (leBytes 4 r.length ++ hashH r) }

/-! ### The debug unlock (R471 to R473) -/

/-- Whether a response is good: a live challenge, the serial, the key, the signature. -/
def unlockGood (s : State) (k : Packet) : Bool :=
  let key := k.bytes 64 1952
  let named :=
    if k.par 17 1 = 0 then (hashH key).take 32 == slice s.sec.debugKeyDigest 0 32
    else k.par 17 1 == 1 && (match s.keyOf 3 0 with | some e => e.key == key | none => false)
  s.sec.challenge == some (k.bytes 32 32) && k.par 24 8 == s.serial.toNat && named

/-- Judge a response (R472, R473): whether the fuse is programmed is a free value (DESIGN CHOICE, log entry 1; DEDUCED, log entry 75). -/
def judgeUnlock (s : State) (k : Packet) : Verdict :=
  let s0 := { s with sec := { s.sec with challenge := none } }
  if !unlockGood s k then refuse s0 stNotAuth 0x0835
  else if !Config.mldsaVerify (k.bytes 64 1952) (ascii "D1-DEBUG") (k.bytes 16 48) (k.bytes 2016 3309) then
    refuse { s0 with sec := { s0.sec with sigFails := s0.sec.sigFails + 1 } } stNotAuth 0x0835
  else if 64 ≤ s.sec.unlockFuses then refuse s0 stRejected 0x0836
  else
    let failed := Config.freeBool s0.freeCtr
    let s1 := s0.useFree 1
    if failed then refuse s1 stRejected 0x0836
    else .final { s1 with sec := { s1.sec with unlockFuses := s1.sec.unlockFuses + 1, unlocked := true } } stOk 0 []

/-- `DEBUG_UNLOCK`: a challenge from the random source (a free value), or a response. -/
def cDebugUnlock : Cmd := {
  opcode := 0x61, allowed := [.idle, .faulted]
  run := fun k s =>
    match k.par 16 1 with
    | 0 =>
      let c := s.freeBytes 32
      okWith { s.useFree 32 with sec := { s.sec with challenge := some c, challengeAt := s.now } } c
    | 1 => if !k.pblk ∨ k.plen ≠ 5309 then refuse s stBadParam 0 else judgeUnlock s k
    | _ => refuse s stBadParam 0 }

/-! ### The rows -/

/-- ATTEST. -/
def execAttest (k : Packet) (s : State) : Out := hostCommand cAttest k s

/-- DEBUG_UNLOCK_CHALLENGE: `DEBUG_UNLOCK` with phase 0. -/
def execDebugUnlockChallenge (k : Packet) (s : State) : Out := hostCommand cDebugUnlock (k.withByte 16 0) s

/-- DEBUG_UNLOCK_RESPONSE: `DEBUG_UNLOCK` with phase 1. -/
def execDebugUnlockResponse (k : Packet) (s : State) : Out := hostCommand cDebugUnlock (k.withByte 16 1) s

/-- CHALLENGE_LAPSE: a challenge lapses 60 s after it was given (R471). -/
def execChallengeLapse (s : State) : Out :=
  if s.sec.challenge.isNone then .next s else
  let s1 := s.advanceTo (s.sec.challengeAt + 60000000000)
  .next { s1 with sec := { s1.sec with challenge := none } }

/-- FIRMWARE_STAGE: it ends with LONG_COMMAND_DONE. -/
def execFirmwareStage (k : Packet) (s : State) : Out := hostCommand cFirmwareStage k s

/-- FIRMWARE_ACTIVATE_MARK: `FIRMWARE_ACTIVATE` with byte 16 equal to 0. -/
def execFirmwareActivateMark (k : Packet) (s : State) : Out := hostCommand cFirmwareActivate (k.withByte 16 0) s

/-- FIRMWARE_ACTIVATE_NOW: `FIRMWARE_ACTIVATE` with byte 16 equal to 1; the reset follows its final reply (DEDUCED, log entry 75). -/
def execFirmwareActivateNow (k : Packet) (s : State) : Out := hostCommand cFirmwareActivate (k.withByte 16 1) s

/-- CERT_SIGNED: the signature of a sealed certificate is complete (R464) (DESIGN CHOICE, log entry 12). -/
def execCertSigned (s : State) : Out := .next (signCertificates s)

end Sys2Proof.Machine
end

