-- ==== Sys2Proof/Machine/Resets.lean ====
section
/-! DEFINITION. The reset levels (R435 to R438, R442, R443, R506): sources, what each level clears and keeps, and the command `RESET` (R428). -/

namespace Sys2Proof.Machine

open Sys2Proof

/-! ### What a level keeps (R435) -/

/-- The contents that a reset leaves undefined, in a memory of `size` bytes: free values (DESIGN CHOICE, log entry 8). -/
def State.undefinedBytes (s : State) (size : Nat) : List (Nat × Byte) :=
  (Config.undefinedMemory s.freeCtr).foldl (fun m e => spSet 0 m (e.1 % size) e.2) []

/-- The bytes of the cellars of a variant. -/
def cellarBytes (v : Variant) : Nat := 160 * mioCount v * sectorsPerPc * 32

/-- Cellar and Hatch contents are undefined (DESIGN CHOICE, log entry 8). -/
def loseMemory (s : State) : State :=
  let s1 := State.useFree { s with cellar := { s.cellar with bytes := s.undefinedBytes (cellarBytes s.variant), errors := [] } } 1
  State.useFree { s1 with hatch := { s1.hatch with bytes := s1.undefinedBytes (64 * 2 ^ 20) } } 1

/-- The FABRIC block after a core reset: the settings, the slice and the active version stay; counters, epochs and frame are cleared (DEDUCED, log
entry 72). -/
def Fabric.coreCleared (f : Fabric) : Fabric :=
  { holdLead := f.holdLead, guardPm := f.guardPm, freezeAllow := f.freezeAllow, arrivalLimit := f.arrivalLimit, resendWait := f.resendWait,
    slice := f.slice, sizeX := f.sizeX, sizeY := f.sizeY, sizeZ := f.sizeZ, x0 := f.x0, y0 := f.y0, z0 := f.z0, wrapX := f.wrapX,
    wrapY := f.wrapY, wrapZ := f.wrapZ, flowBase := f.flowBase, flowCount := f.flowCount, active := f.active }

/-- The Storekeeper and loader after any reset: health, wear and retirement stay; the FPC level is 1 again (R286). -/
def Mgmt.jobCleared (m : Mgmt) : Mgmt :=
  { defectCores := m.defectCores, defectRows := m.defectRows, retiredCores := m.retiredCores, retiredRegions := m.retiredRegions,
    usable := m.usable, wear := m.wear, refRegion := m.refRegion }

/-- The Hatch without the areas and the queues of a timetable. -/
def Hatch.unloaded (h : Hatch) : Hatch := { bytes := h.bytes, reqDropped := h.reqDropped }

/-- A controller without the programs of a timetable. -/
def Ctl.halt (x : Ctl) : Ctl := { x with entries := [], ended := false, requests := [], returns := [], windowsDone := 0, programs := [] }

/-- What a core reset clears (R435, R442): all that a job can have touched. -/
def coreCleared (s : State) : State :=
  { s with
    cores := [], contexts := [], pathUses := [], freeze := {}, frame := { stopped := s.frame.stopped }, fabric := s.fabric.coreCleared,
    verA := s.verA.clearJob, verB := s.verB.clearJob, land := [], landQueue := [], capture := false, hatch := s.hatch.unloaded,
    streams := {}, mgmt := s.mgmt.jobCleared, requests := [], heldRequests := [], resendQueue := [], resendPosted := 0,
    cellar := { s.cellar with ctls := spMap {} Ctl.halt s.cellar.ctls },
    inv := { s.inv with linking := false, links := [], replay := none, replayNext := false, portCheck := [] },
    stats := { s.stats with faults := 0, windowOvf := 0 },
    sec := { s.sec with crateSigned := false, crateKey := 0, crateUnknown := false, imageSigned := false, imageKey := 0, challenge := none } }

/-- A port after a system reset: its counters are kept. -/
def Port.systemCleared (q : Port) : Port :=
  { fecCorr := q.fecCorr, fecUncorr := q.fecUncorr, crcErr := q.crcErr, markerErr := q.markerErr, naksSent := q.naksSent, retries := q.retries,
    losses := q.losses, hbMisses := q.hbMisses, downs := q.downs, retrains := q.retrains, ethAccept := q.ethAccept, ethDrops := q.ethDrops,
    dropSlice := q.dropSlice, dropHdr := q.dropHdr, dropHops := q.dropHops, dropStale := q.dropStale, depFull := q.depFull,
    stragglers := q.stragglers, slotEmpty := q.slotEmpty, notesSent := q.notesSent, notesReceived := q.notesReceived,
    xoffRounds := q.xoffRounds, samples := q.samples, ethCause := q.ethCause }

/-- The cellars after a system reset: geometry, repair list and counters are kept. -/
def Cellar.systemCleared (c : Cellar) : Cellar :=
  { bytes := c.bytes, retired := c.retired, remaps := c.remaps, sparesUsed := c.sparesUsed, pprUsed := c.pprUsed, repair := c.repair,
    rowCe := c.rowCe, ueBanks := c.ueBanks, ueCount := c.ueCount, scrubUe := c.scrubUe, retRefreshes := c.retRefreshes,
    retHolds := c.retHolds, pagesRetired := c.pagesRetired, pcsRetired := c.pcsRetired, winDenied := c.winDenied, lastUeDa := c.lastUeDa,
    scrubPasses := c.scrubPasses, ceCount := c.ceCount }

/-- The command window after a system reset. -/
def CmdWin.systemCleared (c : CmdWin) : CmdWin :=
  { intakes := c.intakes, commands := c.commands, repliesLost := c.repliesLost, authFails := c.authFails }

/-- The inventory after a system reset: the larder and the counters are kept; the ring and the buffer are emptied (R354, R358). -/
def Inventory.systemCleared (i : Inventory) : Inventory :=
  { sizeGib := i.sizeGib, nextSeq := i.nextSeq, larder := i.larder, chain := i.chain, throttles := i.throttles, holds := i.holds,
    sealMismatch := i.sealMismatch, cert := i.cert }

/-- The TIME block after a system reset: its counters and the state of the reference clocks are kept (DEDUCED, log entry 72). -/
def Time.systemCleared (t : Time) : Time :=
  { syncRx := t.syncRx, jumpsRefused := t.jumpsRefused, holdovers := t.holdovers, ptpDiscards := t.ptpDiscards, refTime := t.refTime,
    refSys := t.refSys }

/-- The CLOCK block after a system reset (DEDUCED, log entry 10). -/
def Clock.systemCleared (c : Clock) : Clock :=
  { stretchEvents := c.stretchEvents, marginWarns := c.marginWarns, govSteps := c.govSteps, autoThrottles := c.autoThrottles }

/-- The STATS block after a system reset. -/
def Stats.systemCleared (t : Stats) : Stats := { energy := t.energy, energyFrac := t.energyFrac }

/-- Alarms and box room after a system reset: the heads count since power-on reset, the crash log and the last fault lie in the larder (DEDUCED, log
entry 73). -/
def Alarms.systemCleared (a : Alarms) : Alarms :=
  { larderFault := a.larderFault, box := a.box, headSeal := a.headSeal, headEvent := a.headEvent, headSample := a.headSample,
    crashLog := a.crashLog }

/-- The settings store through any reset: its copies, the factory record and the fuses (DESIGN CHOICE, log entry 5; DEDUCED, log entry 73). -/
def Settings.kept (t : Settings) : Settings :=
  { copyA := t.copyA, copyB := t.copyB, factory := t.factory, fusedCal := t.fusedCal, factoryDigest := t.factoryDigest }

/-- Keys, fuses and firmware copies, which no reset clears (DESIGN CHOICE, log entry 5). -/
def Sec.kept (x : Sec) : Sec :=
  { copyA := x.copyA, copyB := x.copyB, runB := x.runB, actPending := x.actPending, arb := x.arb, unlockFuses := x.unlockFuses,
    setsig := x.setsig, romDigest := x.romDigest, rootDigest := x.rootDigest, fuseDigest := x.fuseDigest, signKeySlots := x.signKeySlots,
    slotRevoked := x.slotRevoked, debugKeyDigest := x.debugKeyDigest, idPublic := x.idPublic, chain := x.chain, sheetDigest := x.sheetDigest }

/-- The security block after a system reset: the debug logic and the larder's counters stay too (R430, R473). -/
def Sec.systemCleared (x : Sec) : Sec :=
  { x.kept with unlocked := x.unlocked, sigFails := x.sigFails, foCounters := x.foCounters, tapIr := x.tapIr }

/-- The reset block after a system reset (DEDUCED, log entry 73). -/
def Resets.systemCleared (r : Resets) : Resets :=
  { cause := r.cause, firstLevel := r.firstLevel, firstSrc := r.firstSrc, sysResets := r.sysResets, coreResets := r.coreResets,
    backup := r.backup, asserted := r.asserted, level := r.level, first := r.first, bootCount := r.bootCount, tripped := r.tripped,
    larderFrame := r.larderFrame, larderState := r.larderState }

/-- The outputs during a reset (R440): electrical idle, ACTIVE low, ALERT_N asserted; the HBM enables and THERMTRIP_N stay. -/
def Pins.held (p : Pins) : Pins := { thermtripN := p.thermtripN, hbmVpp := p.hbmVpp, hbmVdd := p.hbmVdd, hbmVddq := p.hbmVddq, railsGood := p.railsGood }

/-- What a system reset clears and keeps (R435) (DEDUCED, log entry 72). -/
def systemCleared (s : State) : State :=
  loseMemory
    { variant := s.variant, stepping := s.stepping, serial := s.serial, boardPos := s.boardPos, dev := .boot,
      ports := spMap {} Port.systemCleared s.ports, cellar := s.cellar.systemCleared, hatch := { bytes := s.hatch.bytes },
      cmd := s.cmd.systemCleared, mgmt := s.mgmt.jobCleared, inv := s.inv.systemCleared, time := s.time.systemCleared,
      clock := s.clock.systemCleared, stats := s.stats.systemCleared, alarms := s.alarms.systemCleared, settings := s.settings.kept,
      sec := s.sec.systemCleared,
      resets := { s.resets.systemCleared with larderFrame := s.frameIndex, larderState := devCode s.dev },
      pins := s.pins.held, hostOut := s.hostOut, freeCtr := s.freeCtr, pending := s.pending }

/-- What a power-on reset clears and keeps (R435): identity, fuses, flash, and the repairs that lie in the cellars themselves (DESIGN CHOICE, log
entry 5). -/
def powerCleared (s : State) : State :=
  loseMemory
    { variant := s.variant, stepping := s.stepping, serial := s.serial, boardPos := s.boardPos, dev := .off,
      cellar := { pprUsed := s.cellar.pprUsed }, mgmt := { defectCores := s.mgmt.defectCores, defectRows := s.mgmt.defectRows },
      time := { refTime := s.time.refTime, refSys := s.time.refSys }, settings := s.settings.kept, sec := s.sec.kept,
      resets := { cause := 0, asserted := s.resets.asserted, level := s.resets.level, first := s.resets.first, tripped := s.resets.tripped },
      pins := s.pins.held, hostOut := s.hostOut, freeCtr := s.freeCtr, pending := s.pending }

/-! ### Sources and levels (R436, R437, R506) -/

/-- The core reset as it is asserted (R442): a run stops, outstanding commands but `RESET` end, intake is suspended, and the job is cleared (DEDUCED,
log entry 72). -/
def beginCore (s : State) : State :=
  let s1 := failAll (stopNow s 0x0C01) 0x0C01 0x80
  let s2 := coreCleared s1
  { s2 with cmd := { s2.cmd with suspended := true } }

/-- A system reset that the host asked for stops a run before it begins (R443); every other source sends nothing (DEDUCED, log entries 72 and 77). -/
def stopForHost (source : Nat) (s : State) : State := if source = 7 ∨ source = 11 then stopNow s 0x0C01 else s

/-- The `RST_CAUSE` bits of the sources asserted. -/
def causeBits (l : List Nat) : BitVec 12 := l.foldl (fun v i => v ||| BitVec.ofNat 12 (2 ^ i)) 0

/-- Begin a level: power-on clears `RST_CAUSE` before its sources are recorded (R445) (DEDUCED, log entry 72). -/
def beginLevel (level source : Nat) (s : State) : State :=
  match level with
  | 0 =>
    let s1 := powerCleared s
    { s1 with resets := { s1.resets with cause := causeBits s1.resets.asserted, firstSrc := s1.resets.first.getD source } }
  | 1 => systemCleared (stopForHost source s)
  | _ => beginCore s

/-- A source of a level asserts: it is recorded, and a wider level than the one in force begins at once (R437) (DEDUCED, log entry 72). -/
def assertReset (source level : Nat) (s : State) : State :=
  let r := s.resets
  let first := r.first.getD source
  let wider := match r.level with
    | some l => decide (level < l)
    | none => true
  let s1 := { s with resets := { r with
    cause := r.cause ||| BitVec.ofNat 12 (2 ^ source), asserted := insertNat source r.asserted, first := some first,
    firstSrc := first, level := if wider then some level else r.level, firstLevel := if wider then level else r.firstLevel,
    pendingReset := if level ≤ 1 then none else r.pendingReset } }
  if wider then beginLevel level source s1 else s1

/-- A pin source is released. -/
def releaseSource (source : Nat) (s : State) : State :=
  { s with resets := { s.resets with asserted := s.resets.asserted.filter (fun i => i != source) } }

/-! ### RESET (R428, R433) -/

/-- A system reset waits until the replies now queued are visible, and 10 µs more (R428, R436); without a reply to wait for it begins at once
(DEDUCED, log entry 72). -/
def resetAfterReply (source : Nat) (s : State) : State :=
  if !s.cmd.en || s.cmd.queue.isEmpty then assertReset source 1 (s.advanceTo (s.now + 10000))
  else { s with resets := { s.resets with pendingReset := some (source, s.cmd.queue.length) } }

/-- One more reply has become visible. -/
def replyVisible (s : State) : State :=
  match s.resets.pendingReset with
  | some (source, n) =>
    if n ≤ 1 then assertReset source 1 (s.advanceTo (s.now + 10000))
    else { s with resets := { s.resets with pendingReset := some (source, n - 1) } }
  | none => s

/-- `RESET`: level 1 is answered before it begins, level 2 when it is done. A level 2 of a fabric owner's message has a source of its own; a
message carries no level 1 (R433). -/
def cReset : Cmd := {
  opcode := 0x80, allowed := anyState
  run := fun k s =>
    match k.par 16 1 with
    | 1 => if k.seq = 0 then refuse s stBadParam 0 else .silent (resetAfterReply 7 (postReply s k.seq stOk 0 []))
    | 2 => .long s (assertReset (if k.seq = 0 then 9 else 8) 2)
    | _ => refuse s stBadParam 0 }

/-! ### Rows -/

/-- RESET_SYSTEM: `RESET` with level 1. -/
def execResetSystem (k : Packet) (s : State) : Out := hostCommand cReset (k.withByte 16 1) s

/-- RESET_CORE: `RESET` with level 2. -/
def execResetCore (k : Packet) (s : State) : Out := hostCommand cReset (k.withByte 16 2) s

/-- PORST: the pin, once recognised, asserts power-on reset (R436, R439) (DESIGN CHOICE, log entry 87). -/
def execPorst (asserted : Bool) (s : State) : Out := .next (if asserted then assertReset 1 0 s else releaseSource 1 s)

/-- SYSRST: the pin, once recognised, asserts system reset (R436, R439) (DESIGN CHOICE, log entry 87). -/
def execSysrst (asserted : Bool) (s : State) : Out := .next (if asserted then assertReset 2 1 s else releaseSource 2 s)

/-- DEBUG_RESET: on an unlocked device the input asserts core reset, as an event (R436, R473) (DESIGN CHOICE, log entry 87). -/
def execDebugReset (asserted : Bool) (s : State) : Out := .next (if asserted && s.sec.unlocked then assertReset 10 2 s else s)

/-- The crash log keeps the last stubs of 64 bytes that its 36 KiB hold (R447) (DESIGN CHOICE, log entry 15). -/
def logCrash (s : State) (stub : List Byte) : State :=
  let l := s.alarms.crashLog ++ [slice stub 0 64]
  { s with alarms := { s.alarms with crashLog := l.drop (l.length - 576) } }

/-- Whether the management firmware runs: from step 3 of bring-up on. -/
def State.firmwareRuns (s : State) : Bool := s.dev != .off && decide (3 < s.resets.bootStep) && !s.resets.tripped

/-- WDOG: the watchdog expires; the crash stub is written, then the system reset begins (R438). The stub has no given layout (DESIGN CHOICE, log entry
15) (DEDUCED, log entry 74). -/
def execWdog (pc sp : DWord) (s : State) : Out :=
  if !s.firmwareRuns then .next s else
  .next (assertReset 3 1 (logCrash s (Config.layout 0x438 [pc.toNat, sp.toNat, s.resets.bootStep, s.frameIndex, s.now])))

/-- CXL_HOT: a hot reset of the host's link, of the level that `HOT_CORE` sets (R436, R445). -/
def execCxlHot (s : State) : Out :=
  if s.dev = .off ∨ s.dev = .boot then .next s else .next (assertReset 5 (if s.resets.hotCore then 2 else 1) s)

/-- CXL_LDN: the link goes down after L0 was reached, with the level that `LDN_CORE` sets (R436, R445). -/
def execCxlLdn (s : State) : Out :=
  if s.dev = .off ∨ s.dev = .boot ∨ s.resets.bootFail = 8 then .next s else .next (assertReset 6 (if s.resets.ldnCore then 2 else 1) s)

end Sys2Proof.Machine
end

