-- ==== Sys2Proof/Machine/BringUp.lean ====
section
/-! DEFINITION. The release of a reset and bring-up (R437, R442, R446): firmware, settings, calibration, self-test, ports, time; and the rails, the
HBM enables, ACTIVE and the TAP (R440, R512 to R514, R524). -/

namespace Sys2Proof.Machine

open Sys2Proof

/-! ### Step 3: firmware (R459) -/

/-- Whether a copy passes authentication now. -/
def Sec.passes (x : Sec) (c : FwCopy) : Bool := c.authOk && decide (x.arb ≤ c.svn)

/-- The candidates in the order in which the ROM tries them, `true` for copy B. -/
def Sec.candidates (x : Sec) : List Bool :=
  let l := [(false, x.copyA), (true, x.copyB)].filter (fun e => e.2.activated)
  if x.copyA.activated && x.copyB.activated && decide (x.copyA.fwver.toNat < x.copyB.fwver.toNat) then [true, false] else l.map (·.1)

/-- A copy by its letter. -/
def Sec.copy (x : Sec) (b : Bool) : FwCopy := if b then x.copyB else x.copyA

/-- The copies that fail before one passes, and the one that passes. -/
def Sec.tryCopies (x : Sec) : List Bool → Nat × Option Bool
  | [] => (0, none)
  | b :: t => if x.passes (x.copy b) then (0, some b) else let (n, r) := x.tryCopies t; (n + 1, r)

/-! ### Step 4: settings and calibration (R449, R450, R454, R455) -/

/-- Whether a TLV type is one of R451. -/
def knownType (t : Nat) : Bool :=
  [0x01, 0x02, 0x03, 0x04, 0x05, 0x06, 0x07, 0x10, 0x11, 0x12, 0x13, 0x14, 0x20, 0x30, 0x40, 0x41, 0x42].contains t

/-- Whether a copy is valid at step 4. -/
def copyValid (x : Sec) (c : SetCopy) : Bool :=
  let keys := match c.entry 0x30 with | some v => keysOf v | none => []
  c.present && c.valid && c.entries.all (fun e => knownType (entryType e) || !bit e.1 15) &&
    (!(x.setsig || keys.any (fun k => k.role == 2)) || c.signedBy keys)

/-- A copy that is present and invalid is marked, with alarm 0x0C11. -/
def markTorn (s : State) : State :=
  let a := s.settings.copyA.present && !copyValid s.sec s.settings.copyA
  let b := s.settings.copyB.present && !copyValid s.sec s.settings.copyB
  let s1 := { s with settings := { s.settings with badA := a, badB := b } }
  let s2 := if a then raiseAlarm s1 0x0C11 0 else s1
  if b then raiseAlarm s2 0x0C11 0 else s2

/-- What the device-owned entries of the copy in force give: the retirement list, and, after a power-on reset, wear and counters (R315, R430)
(DEDUCED, log entry 73). -/
def loadDevice (s : State) (powerOn : Bool) : State :=
  let c := s.settingsInForce
  let s1 := { s with
    mgmt := { s.mgmt with retiredCores := c.retCores, retiredRegions := c.retRegions },
    cellar := { s.cellar with retired := c.retPcs, remaps := c.remaps,
                              sparesUsed := c.remaps.foldl (fun m r => spModify 0 m r.ctl (· + 1)) [] } }
  if powerOn then { s1 with mgmt := { s1.mgmt with wear := c.wear }, sec := { s1.sec with foCounters := c.counters } } else s1

/-- The settings copy is chosen and put in force; with none, every setting has its default and the retirement list is empty (DEDUCED, log entry 65).
-/
def chooseSettings (s : State) (powerOn : Bool) : State :=
  let s1 := markTorn s
  let okA := copyValid s.sec s.settings.copyA
  let okB := copyValid s.sec s.settings.copyB
  if !okA && !okB then
    raiseAlarm (loadDevice { s1 with settings := { s1.settings with defaults := true, inForceB := false } } powerOn) 0x0C12 0
  else
    let b := okB && (!okA || decide (s.settings.copyA.seq.toNat < s.settings.copyB.seq.toNat))
    loadDevice { s1 with settings := { s1.settings with inForceB := b, defaults := false } } powerOn

/-- The user calibration of the copy in force (R454). -/
def State.userCalibration (s : State) : List (Nat × Nat × Int) :=
  match s.settingsInForce.entry 0x20 with
  | some v => (pieces 8 v).map fun b => (le b 0 2, le b 2 2, sext 32 (le b 4 4))
  | none => []

/-- The number of a calibration item and index. -/
def calKey (item index : Nat) : Nat := item * 65536 + index

/-- Apply one item of the factory record; a clamp raises its alarm (R454). -/
def applyCal (s : State) (c : CalItem) : State :=
  let off : Int := match s.settings.userCal.find? (fun u => u.1 == c.item && u.2.1 == c.index) with | some u => u.2.2 | none => 0
  let v := c.factory + off
  let w := if v < c.lower then c.lower else if c.upper < v then c.upper else v
  let s1 := { s with settings := { s.settings with applied := spSet 0 s.settings.applied (calKey c.item c.index) w } }
  if v = w then s1
  else raiseAlarm { s1 with settings := { s1.settings with calClamped := true } } 0x0C14 (calKey c.item c.index)

/-- The transmit and receive delays of a port for its mode (R211, R454) (DEDUCED, log entry 74). -/
def applyPhy (s : State) (p : Nat) : State :=
  let i := 4 * p + 2 * b2n (s.port p).ethernet
  s.modPort p fun q => { q with
    phyTx := BitVec.ofInt 32 (spGet 0 s.settings.applied (calKey 6 i)), phyRx := BitVec.ofInt 32 (spGet 0 s.settings.applied (calKey 6 (i + 1))) }

/-- Calibration is applied; a record that fails is not used (R455). -/
def calibrate (s : State) (bad : Bool) : State :=
  let s1 := { s with settings := { s.settings with calRecordBad := bad, userCal := if bad then [] else s.userCalibration, applied := [] } }
  let s2 :=
    if bad then raiseAlarm { s1 with settings := { s1.settings with applied := s1.settings.fusedCal } } 0x0C13 0
    else s1.settings.factory.foldl applyCal s1
  s2.portList.foldl applyPhy s2

/-! ### Step 5: health (R310 to R312, R36, R175) -/

/-- Enter what failed self-test, and the regions that health retires, in the retirement map (DEDUCED, log entries 34 and 74). -/
def enterRetired (s : State) (cores regions : List Nat) : State :=
  let m := s.mgmt
  let s1 := { s with mgmt := { m with retiredCores := cores.foldl (fun (l : List Nat) c => insertNat c l) m.retiredCores,
                                      retiredRegions := regions.foldl (fun (l : List Nat) j => insertNat j l) m.retiredRegions } }
  let more := (List.range 64).filter (fun j => !s1.regionUsable j)
  let s2 := { s1 with mgmt := { s1.mgmt with retiredRegions := more.foldl (fun (l : List Nat) j => insertNat j l) s1.mgmt.retiredRegions } }
  if s2.mgmt.retiredCores == m.retiredCores && s2.mgmt.retiredRegions == m.retiredRegions then s2 else deviceCommit s2

/-- Health and the grade; the reference region is fixed for as long as it stays usable. -/
def judgeHealth (s : State) : State :=
  let ref := if s.resets.bootCount = 0 ∨ !s.regionUsable s.mgmt.refRegion then ((List.range 64).find? s.regionUsable).getD 0 else s.mgmt.refRegion
  { s with mgmt := { s.mgmt with usable := s.countUsable, refRegion := ref } }

/-- Self-test, training of the cellars, the repair list, health and the zone table. -/
def selfTest (s : State) (f : BootFindings) : State :=
  let pcs := f.badPcs.filter (fun k => decide (k < 160 * mioCount s.variant))
  let s1 := repairCellars (pcs.foldl retirePc (computeZones s))
  let cores := f.badCores.filter (fun c => decide (c < 86592))
  judgeHealth (enterRetired s1 cores (f.badRegions.filter (fun j => decide (j < 64))))

/-! ### Steps 6 to 9 -/

/-- Training of the enabled ports (R197): the lanes that pass, 0 for a port that fails. -/
def trainPorts (s : State) (lanes : List (Nat × Nat)) : State :=
  (s.portList.filter (fun p => (s.port p).enable)).foldl (fun m p =>
    let good := match lanes.find? (fun e => e.1 == p) with | some e => e.2 | none => 0
    trainPort m p { failStep := if good = 0 then 1 else 0, lanesGood := good, partnerWidth := 16 }) { s with pins := { s.pins with txIdle := false } }

/-- The headers that the host had not acknowledged return to the buffer (R358). -/
def recoverHeaders (s : State) : State :=
  let l := (s.inv.larder.filter (fun r => !r.read)).map fun r => { r with flags := r.flags / 2 * 2 ||| 4, content := [] }
  { s with inv := { s.inv with buffer := l, bufBytes := setBytes l, recovered := !l.isEmpty } }

/-- The anti-rollback counter follows the copy that was activated and runs for the first time (R460). -/
def raiseCounter (s : State) (first : Bool) : State :=
  if first then { s with sec := { s.sec with arb := Nat.max s.sec.arb (Nat.min 64 s.sec.running.svn), actPending := false } } else s

/-- What the firmware keeps in `BACKUP8` to `BACKUP15` (R445); the registers' own layout is not given (DESIGN CHOICE, log entry 15). -/
def keepBackup (s : State) : State :=
  let b := Config.layout 0x445 [s.resets.bootCount, b2n s.sec.runB, s.sec.arb, s.settingsInForce.seq.toNat]
  { s with resets := { s.resets with backup := (List.range 8).foldl (fun m i => spSet 0 m (8 + i) (BitVec.ofNat 64 (le b (8 * i) 8))) s.resets.backup } }

/-- Bring-up ends in `BOOT` at a step with its failure code (R446) (DEDUCED, log entry 74). -/
def bootFails (s : State) (step : Nat) : State := { s with resets := { s.resets with bootFail := step, bootStep := step } }

/-- Steps 6 to 9 (DEDUCED, log entry 74). -/
def finishBoot (s : State) (f : BootFindings) (failed : Nat) (first : Bool) : State :=
  let s1 := acquireMt (trainPorts s f.lanes)
  let s2 := if s1.time.ptpEn || s1.time.ppsInDisc then setLtState s1 .acquire else s1
  let s3 := recoverHeaders (raiseCounter s2 first)
  let s4 := { s3 with
    resets := { s3.resets with bootStep := 9, bootMs := Nat.min f.ms (2 ^ 20 - 1), bootFail := if f.failStep = 8 then 8 else 0,
                               bootCount := s3.resets.bootCount + 1 },
    alarms := { s3.alarms with alertOn := true } }
  let s5 := keepBackup (enterIdle s4)
  let s6 := (List.range failed).foldl (fun m _ => raiseAlarm m 0x0838 0) s5
  State.alertLine (if bit s6.resets.cause.toNat 4 then raiseAlarm s6 0x0C27 0 else s6)

/-- Bring-up from step 1 (R446) (DEDUCED, log entry 74). -/
def bringUp (s : State) (f : BootFindings) (powerOn : Bool) : State :=
  let s0 := { s with dev := .boot }
  if f.failStep = 1 ∨ f.failStep = 2 then bootFails s0 f.failStep
  else
    let (failed, ran) := s0.sec.tryCopies s0.sec.candidates
    match if f.failStep = 3 then none else ran with
    | none => bootFails s0 3
    | some b =>
      let first := s0.sec.actPending && b != s0.sec.runB
      let bad := ((s0.sec.candidates.take failed).filter (fun c => !(s0.sec.copy c).authOk)).length
      let s1 := { s0 with sec := { s0.sec with
        runB := b, fallback := decide (0 < failed), sigFails := s0.sec.sigFails + BitVec.ofNat 32 bad } }
      let s2 := calibrate (applySettings (chooseSettings s1 powerOn)) f.calRecordBad
      let s3 := { s2 with sec := { s2.sec with measLog := s2.measurements } }
      if f.avsFail ∨ f.failStep = 4 then bootFails s3 4
      else
        let s4 := selfTest s3 f
        if s4.cellar.zones.isEmpty ∨ s4.mgmt.usable.all (· == 0) then bootFails s4 5
        else finishBoot (s4.advanceTo (s4.now + f.ms * 1000000)) f failed first

/-! ### Release (R437, R442, R506) -/

/-- The release step of a core reset: `IDLE`, intake, and `OK` for the `RESET` that asked for it. -/
def releaseCore (s : State) : State :=
  let s1 := { s with frame := {}, cmd := { s.cmd with suspended := false }, resets := { s.resets with coreResets := s.resets.coreResets + 1 } }
  finishCommand (enterIdle s1) 0x80 stOk 0 []

/-- RESET_RELEASE: no source is asserted any more; the pulses of event sources have ended (R436, R437) (DESIGN CHOICE, log entry 88) (DESIGN CHOICE,
log entry 4). -/
def execResetRelease (f : BootFindings) (s : State) : Out :=
  let r := s.resets
  if r.asserted.any (fun i => decide (i ≤ 2)) || r.tripped then .next s else
  let s1 := { s with resets := { r with asserted := [], level := none, first := none } }
  match r.level with
  | none => .next s
  | some 0 => .next (bringUp s1 f true)
  | some 1 => .next (bringUp { s1 with resets := { s1.resets with sysResets := r.sysResets + 1 } } f false)
  | some _ => .next (releaseCore s1)

/-! ### Rails and enables (R511 to R514) -/

/-- Lower the HBM enables (R514). -/
def lowerHbm (s : State) : State := { s with pins := { s.pins with hbmVpp := false, hbmVdd := false, hbmVddq := false } }

/-- Whether a rail is good. -/
def State.railGood (s : State) (rail : Nat) : Bool := bit s.pins.railsGood.toNat rail

/-- RAIL_FAIL: the detector asserts power-on reset; a rail of order 3, or one on which the enables depend, lowers the HBM enables (DESIGN CHOICE, log
entry 4). -/
def execRailFail (rail : Nat) (s : State) : Out :=
  if 16 ≤ rail then .fault .noSuchUnit else
  let s1 := { s with pins := { s.pins with railsGood := s.pins.railsGood &&& ~~~(BitVec.ofNat 16 (2 ^ rail)) } }
  let s2 := if [0, 1, 2, 3, 4, 5, 6, 7, 11, 12, 13, 14].contains rail then lowerHbm s1 else s1
  .next (assertReset 0 0 s2)

/-- POWER_ON_RELEASE: every rail is good again, and the detector releases its request 1 ms later (DESIGN CHOICE, log entries 4 and 88). -/
def execPowerOnRelease (s : State) : Out :=
  .next (releaseSource 0 { s with pins := { s.pins with railsGood := BitVec.allOnes 16 } })

/-- HBM_EN_SEQUENCE: the next enable rises: `HBM_EN_VPP` once rails 13 and 14 are good, each other once the rail before it is good (R514). None rises
in a thermal shutdown (R520). -/
def execHbmEnSequence (s : State) : Out :=
  let p := s.pins
  .next (if s.resets.tripped || !s.railGood 13 || !s.railGood 14 then s
    else if !p.hbmVpp then { s with pins := { p with hbmVpp := true } }
    else if !p.hbmVdd then (if s.railGood 10 then { s with pins := { p with hbmVdd := true } } else s)
    else if !p.hbmVddq then (if s.railGood 8 then { s with pins := { p with hbmVddq := true } } else s)
    else s)

/-! ### ACTIVE and the TAP (R440, R524) -/

/-- ACTIVE_TOGGLE: from step 3 on the output toggles every 500 µs of tick time (DEDUCED, log entry 74). -/
def execActiveToggle (s : State) : Out :=
  if !s.firmwareRuns then .next s else
  let s1 := s.advanceTo (s.now + 500000)
  .next { s1 with pins := { s1.pins with active := !s1.pins.active } }

/-- TAP_INSTRUCTION: an instruction by its number here, 0 BYPASS, 1 IDCODE; others are honoured once the debug logic is open (R473, R524) (DEDUCED,
log entry 77). -/
def execTapInstruction (code : Nat) (s : State) : Out :=
  .next (if code ≤ 1 ∨ s.sec.unlocked then { s with sec := { s.sec with tapIr := code } } else s)

end Sys2Proof.Machine
end

