-- ==== Sys2Proof/Machine/Board.lean ====
section
/-! DEFINITION. Board management over I3C (R487 to R489) and security over DOE (R470): what the spec says they read, change and answer. The formats of
the answers are those of the standards named: a free value over the content (DESIGN CHOICE, log entry 13). -/

namespace Sys2Proof.Machine

open Sys2Proof

/-- Answer a request of a standard protocol with this content (DESIGN CHOICE, log entry 13). -/
def answer (s : State) (content : List Byte) : State :=
  State.useFree { s with sec := { s.sec with lastResponse := Config.standardResponse s.freeCtr content } } 1

/-! ### MCTP and PLDM (R487 to R489) -/

/-- Whether MCTP is served: from step 2 of bring-up on. -/
def State.servesMctp (s : State) : Bool :=
  s.dev != .off && !s.resets.tripped && (s.dev != .boot || decide (3 ≤ s.resets.bootStep))

/-- SET_ENDPOINT_ID. -/
def execSetEndpointId (eid : Byte) (s : State) : Out :=
  .next (if s.servesMctp then answer { s with sec := { s.sec with eid } } [eid] else s)

/-- SET_EVENT_RECEIVER (R488). -/
def execSetEventReceiver (eid : Byte) (s : State) : Out :=
  .next (if s.servesMctp then answer { s with sec := { s.sec with eventReceiver := some eid } } [eid] else s)

/-- The readings of the sensors of R488, in the order of their numbers. -/
def State.sensorReadings (s : State) : List Byte :=
  leBytes 2 s.clock.power ++ leBytes 1 s.stats.tmax ++ (List.range 6).flatMap (fun i => leBytes 1 (wrap 8 (spGet 0 s.stats.siteTemp i)))
    ++ (List.range 20).flatMap (fun i => leBytes 1 (wrap 8 (spGet 0 s.stats.cellarTemp i))) ++ leBytes 1 (devCode s.dev) ++ leBytes 1 s.stats.tstate

/-- PLDM_REQUEST: types 0, 2 and 5 are served, and no other (DESIGN CHOICE, log entry 13). -/
def execPldmRequest (ptype command : Nat) (data : List Byte) (s : State) : Out :=
  .next (if s.servesMctp && (ptype == 0 || ptype == 2 || ptype == 5) then
    answer s ([BitVec.ofNat 8 ptype, BitVec.ofNat 8 command] ++ data ++ (if ptype = 2 then s.sensorReadings else []))
  else s)

/-- Whether a firmware command of the host is outstanding (DEDUCED, log entry 78). -/
def State.hostUpdates (s : State) : Bool := s.cmd.out.any (fun o => o.opcode == 0xA0 || o.opcode == 0xA1)

/-- The content of the answer ALREADY_IN_UPDATE_MODE. -/
def alreadyUpdating : List Byte := ascii "ALREADY_IN_UPDATE_MODE"

/-- REQUEST_UPDATE: an update of the copy that is not running begins, unless one is in progress or a firmware command of the host is outstanding. Its
activation word is cleared first, as by `FIRMWARE_STAGE` (DEDUCED, log entry 78). -/
def execRequestUpdate (s : State) : Out :=
  .next (if !s.servesMctp then s
    else if s.sec.pldmUpdate || s.hostUpdates then answer s alreadyUpdating
    else answer { s with sec := { s.sec.setOther { s.sec.other with activated := false } with pldmUpdate := true, pldmData := [] } } [])

/-- PLDM_FIRMWARE_DATA: a piece of the image; with the last one the copy is written and checked under R461. A failed check ends the update (DEDUCED,
log entry 78). -/
def execPldmFirmwareData (data : List Byte) (last : Bool) (s : State) : Out :=
  if !s.sec.pldmUpdate then .next s else
  let f := s.sec.pldmData ++ data
  if !last then .next { s with sec := { s.sec with pldmData := f } } else
  let (s1, r) := stageFirmware { s with sec := { s.sec with pldmData := [] } } (f.take 4190208)
  .next (answer { s1 with sec := { s1.sec with pldmUpdate := r == 0 } } (leBytes 2 r))

/-- ACTIVATE_FIRMWARE: the activation word is written, without a reset, and the update ends (DEDUCED, log entry 78). -/
def execActivateFirmware (s : State) : Out :=
  .next (if !s.sec.pldmUpdate || !s.sec.fwStaged then s
    else
      let s1 := activateStaged s
      answer { s1 with sec := { s1.sec with pldmUpdate := false } } [])

/-! ### SPDM (R470) -/

/-- Whether the DOE mailbox answers: the CXL link is up. -/
def State.servesDoe (s : State) : Bool := s.dev != .off && s.dev != .boot && s.resets.bootFail != 8

/-- A request to the responder. -/
def onDoe (s : State) (f : State → State) : Out := .next (if s.servesDoe then f s else s)

/-- The content of an error answer. -/
def spdmError (s : State) (code : String) : State := answer s (ascii code)

/-- SPDM_GET_VERSION. -/
def execSpdmGetVersion (s : State) : Out := onDoe s fun s => answer s (ascii "SPDM 1.3")

/-- SPDM_GET_CAPABILITIES. -/
def execSpdmGetCapabilities (s : State) : Out := onDoe s fun s =>
  answer s (ascii "CERT_CAP CHAL_CAP MEAS_CAP MEAS_FRESH_CAP KEY_EX_CAP ENCRYPT_CAP MAC_CAP KEY_UPD_CAP HBEAT_CAP")

/-- SPDM_NEGOTIATE_ALGORITHMS. -/
def execSpdmNegotiateAlgorithms (s : State) : Out := onDoe s fun s =>
  answer s (ascii "SHA3-512 ML-DSA-65 ML-KEM-768 AES-256-GCM" ++ leBytes 2 0x1F4C ++ leBytes 2 1 ++ leBytes 2 2)

/-- SPDM_GET_CERTIFICATE: the chain of slot 0; no other slot is served. -/
def execSpdmGetCertificate (slot off len : Nat) (s : State) : Out := onDoe s fun s =>
  if slot ≠ 0 then spdmError s "InvalidRequest" else answer s ((s.sec.chain.drop off).take len)

/-- SPDM_CHALLENGE: signed over the chain of slot 0. -/
def execSpdmChallenge (slot : Nat) (nonce : List Byte) (s : State) : Out := onDoe s fun s =>
  if slot ≠ 0 then spdmError s "InvalidRequest" else answer (s.useFree 3309) (hashH s.sec.chain ++ nonce ++ s.freeBytes 3309)

/-- A measurement by its index. -/
def State.measurement (s : State) (i : Nat) : List Byte :=
  if 1 ≤ i ∧ i ≤ 6 then slice s.sec.measLog (80 * (i - 1)) 80
  else if 16 ≤ i ∧ i ≤ 19 then s.reportDigests.getD (i - 16) []
  else if i = 20 then s.sec.flagByte ++ leBytes 4 s.sec.unlockFuses
  else []

/-- The indices of the measurements. -/
def measIndices : List Nat := [1, 2, 3, 4, 5, 6, 16, 17, 18, 19, 20]

/-- SPDM_GET_MEASUREMENTS: one measurement, or all for 0xFF, with a signature (DESIGN CHOICE, log entry 13). -/
def execSpdmGetMeasurements (index : Nat) (nonce : List Byte) (s : State) : Out := onDoe s fun s =>
  if index = 0xFF then answer (s.useFree 3309) (measIndices.flatMap s.measurement ++ nonce ++ s.freeBytes 3309)
  else if measIndices.contains index then answer (s.useFree 3309) (s.measurement index ++ nonce ++ s.freeBytes 3309)
  else spdmError s "InvalidRequest"

/-- SPDM_KEY_EXCHANGE: a session opens, the first or the second; a third is answered Busy (DESIGN CHOICE, log entry 13). -/
def execSpdmKeyExchange (s : State) : Out := onDoe s fun s =>
  match [1, 2].find? (fun n => !s.sec.sessions.contains n) with
  | none => spdmError s "Busy"
  | some n => answer { s.useFree 3309 with sec := { s.sec with sessions := insertNat n s.sec.sessions } } (leBytes 1 n ++ s.freeBytes 3309)

/-- A request inside an open session. -/
def inSession (session : Nat) (s : State) (f : State → State) : Out := onDoe s fun s =>
  if s.sec.sessions.contains session then f s else spdmError s "InvalidRequest"

/-- SPDM_FINISH. -/
def execSpdmFinish (session : Nat) (s : State) : Out := inSession session s fun s => answer s (ascii "FINISH")

/-- SPDM_KEY_UPDATE. -/
def execSpdmKeyUpdate (session : Nat) (s : State) : Out := inSession session s fun s => answer s (ascii "KEY_UPDATE")

/-- SPDM_HEARTBEAT. -/
def execSpdmHeartbeat (session : Nat) (s : State) : Out := inSession session s fun s => answer s (ascii "HEARTBEAT")

/-- SPDM_END_SESSION. -/
def execSpdmEndSession (session : Nat) (s : State) : Out := inSession session s fun s =>
  answer { s with sec := { s.sec with sessions := s.sec.sessions.filter (fun n => n != session) } } (ascii "END_SESSION")

/-- IDE_KM: inside a session, the IDE stream of a protocol is established: 0 CXL.io, 1 CXL.cache, 2 CXL.mem (R404, R408) (DESIGN CHOICE, log entry
13). -/
def execIdeKm (session protocol : Nat) (s : State) : Out := inSession session s fun s =>
  if 2 < protocol then spdmError s "InvalidRequest"
  else answer { s with sec := { s.sec with ideStreams := insertNat protocol s.sec.ideStreams } } (ascii "IDE_KM")

end Sys2Proof.Machine
end

