-- ==== Sys2Proof/Machine/CellarRows.lean ====
section
/-! DEFINITION. The commands of the slot memory controllers and of the host windows (R154 to R164, R176 to R180). -/

namespace Sys2Proof.Machine

open Sys2Proof

/-- SECTOR_RETURN: a read sector leaves the corrector and is released onto the bridge 76 cycles after its RD (R159, R170). -/
def execSectorReturn (k : Nat) (s : State) : Out := onCtl k s fun s => releaseSector s k

/-- ACT: a program entry opens a row (R155, R158). -/
def execAct (k delta bank row : Nat) (s : State) : Out := onCtl k s fun s => ctlEntry s k { kind := 1, delta, bank, row }

/-- PRE: a program entry precharges a bank (R155, R158). -/
def execPre (k delta bank : Nat) (s : State) : Out := onCtl k s fun s => ctlEntry s k { kind := 2, delta, bank }

/-- RD: a program entry reads a sector (R158, R159) (DEDUCED, log entry 46). -/
def execRd (k delta bank row col tag : Nat) (s : State) : Out := onCtl k s fun s => ctlEntry s k { kind := 3, delta, bank, row, col, tag }

/-- WR: a program entry writes a sector (R158, R159); the data is that of the transfer it serves (R138) (DEDUCED, log entry 46). -/
def execWr (k delta bank row col tag : Nat) (s : State) : Out := onCtl k s fun s => ctlEntry s k { kind := 4, delta, bank, row, col, tag }

/-- BACT: a program entry opens the row of a bin-relative request (R340). -/
def execBact (k delta bank tag : Nat) (s : State) : Out := onCtl k s fun s => ctlEntry s k { kind := 7, delta, bank, tag }

/-- REPEAT: the preceding entries execute again with increments (R158) (DEDUCED, log entry 46). -/
def execRepeat (k n m colInc rowInc : Nat) (s : State) : Out := onCtl k s fun s => ctlRepeat s k n m colInc rowInc

/-- GAP: a further delay (R158). -/
def execGap (k delay : Nat) (s : State) : Out := onCtl k s fun s => ctlEntry s k { kind := 6, delta := delay }

/-- PROG_END: the program of the frame ends (R158). -/
def execProgEnd (k : Nat) (s : State) : Out :=
  onCtl k s fun s => if s.cycling then s.setCtl k { s.ctl k with ended := true } else s

/-- PINNED_REFRESH: REFpb at its fixed cycle (R160). -/
def execPinnedRefresh (k : Nat) (s : State) : Out := onCtl k s fun s => pinnedRefresh s k

/-- SCRUB_WINDOW: one row of a bank is read, corrected and written back (R161, R171). -/
def execScrubWindow (k : Nat) (s : State) : Out := onCtl k s fun s => scrubWindow s k

/-- RETENTION_REFRESH: the retention unit of a halted controller refreshes a bank (R162 to R164). -/
def execRetentionRefresh (k bank : Nat) (s : State) : Out := onCtl k s fun s => if bank < 32 then retentionRefresh s k bank else s

/-- HOST_HATCH_WRITE (R176, R177); while IDE is awaited no CXL.mem request completes (R408), here and in the three rows after. -/
def execHostHatchWrite (off : Nat) (data : List Byte) (s : State) : Out := .next (if s.ideWaits then s else hostHatchWrite s off data)

/-- HOST_HATCH_READ (R176, R178). -/
def execHostHatchRead (off len : Nat) (s : State) : Out := .next (if s.ideWaits then s else hostHatchRead s off len)

/-- CELLAR_WINDOW_READ (R179, R180). -/
def execCellarWindowRead (off : Nat) (s : State) : Out := .next (if s.ideWaits then s else windowRead s off)

/-- CELLAR_WINDOW_WRITE (R179, R180). -/
def execCellarWindowWrite (off : Nat) (data : List Byte) (s : State) : Out := .next (if s.ideWaits then s else windowWrite s off data)

end Sys2Proof.Machine
end

