-- ==== Sys2Proof/Machine/Formats.lean ====
section
/-! DEFINITION. The element formats (R89 to R92), rounding (R105 to R107) and IEEE arithmetic (R109). An exact value is a
dyadic number: sign, magnitude and exponent, with a mark where the true magnitude lies strictly above it and below the next. -/

namespace Sys2Proof.Machine

/-- An exact value: `fin neg m e sticky` has magnitude m × 2^e, or lies strictly between that and (m + 1) × 2^e. -/
inductive Val where
  | fin (neg : Bool) (m : Nat) (e : Int) (sticky : Bool)
  | inf (neg : Bool)
  | nan
  deriving DecidableEq, Repr

/-- A floating-point format: fraction bits, bias, code of the largest finite magnitude, bits in all. -/
structure FloatSpec where
  f : Nat
  bias : Nat
  maxCode : Nat
  total : Nat
  deriving DecidableEq, Repr

/-- The floating-point formats of R89. -/
def floatSpec (fmt : Nat) : Option FloatSpec :=
  match fmt with
  | 1 => some ⟨3, 7, 0x7E, 8⟩
  | 2 => some ⟨2, 15, 0x7B, 8⟩
  | 3 => some ⟨3, 1, 0x1F, 6⟩
  | 4 => some ⟨2, 3, 0x1F, 6⟩
  | 5 => some ⟨1, 1, 0x7, 4⟩
  | 8 => some ⟨7, 127, 0x7F7F, 16⟩
  | 9 => some ⟨10, 15, 0x7BFF, 16⟩
  | 0xA => some ⟨23, 127, 0x7F7FFFFF, 32⟩
  | _ => none

/-- A format whose codes above the largest finite are infinity and NaN as IEEE 754 has them (R89). -/
def ieeeLike (fmt : Nat) : Bool := fmt == 2 || fmt == 8 || fmt == 9 || fmt == 0xA

/-- The weight of an integer format's unit: 2^0 for INT8, 2^-6 for MXINT8 (R90). -/
def intWeight (fmt : Nat) : Int := if fmt = 6 then -6 else 0

/-- The exact value of an encoding (R90). -/
def decodeVal (fmt code : Nat) : Val :=
  match floatSpec fmt with
  | none =>
    let v := sext 8 code
    .fin (decide (v < 0)) v.natAbs (intWeight fmt) false
  | some p =>
    let c := code % 2 ^ p.total
    let neg := bit c (p.total - 1)
    let u := c % 2 ^ (p.total - 1)
    if p.maxCode < u then
      if ieeeLike fmt && u % 2 ^ p.f == 0 then .inf neg else .nan
    else
      let ex := u / 2 ^ p.f
      let m := u % 2 ^ p.f
      if ex = 0 then .fin neg m (1 - (p.bias : Int) - p.f) false
      else .fin neg (2 ^ p.f + m) ((ex : Int) - p.bias - p.f) false

/-- Whether a value is an exact zero. -/
def Val.isZero : Val → Bool
  | .fin _ m _ st => m == 0 && !st
  | _ => false

/-- The sign of a value. -/
def Val.neg : Val → Bool
  | .fin n _ _ _ => n
  | .inf n => n
  | .nan => false

/-- e(x) of R99: floor(log2 |x|) + 1 of a nonzero magnitude m × 2^e. -/
def expo (m : Nat) (e : Int) : Int := (m.log2 : Int) + 1 + e

/-- m × 2^e as a quotient and remainder by 2^q: the integer part, the rest and the denominator's exponent. -/
def splitAt (m : Nat) (e q : Int) : Nat × Nat × Nat :=
  if q ≤ e then (m * 2 ^ (e - q).toNat, 0, 0)
  else
    let sh := (q - e).toNat
    (m / 2 ^ sh, m % 2 ^ sh, sh)

/-- Whether the magnitude rounds away from zero (R105, R107): integer part `n`, rest `r` of 2^sh, mark, mode, sign, draw (DEDUCED, log entry 25). -/
def roundUpMag (n r sh : Nat) (sticky : Bool) (rnd : Nat) (neg : Bool) (w : Nat) : Bool :=
  let inexact := r != 0 || sticky
  match rnd with
  | 0 =>
    if sh = 0 then false
    else
      let half := 2 ^ (sh - 1)
      decide (half < r) || (r == half && (sticky || n % 2 == 1))
  | 1 => false
  | 2 => inexact && !neg
  | 3 => inexact && neg
  | _ => inexact && decide (w < 2 ^ 32 * r / 2 ^ sh)

/-- What a magnitude beyond the largest finite becomes (R106): the code without the sign, and whether it keeps the sign (DEDUCED, log entry 25). -/
def overflowCode (fmt : Nat) (p : FloatSpec) (rnd : Nat) (neg sat : Bool) : Nat :=
  if ieeeLike fmt && !sat then
    let inf := rnd == 0 || 4 ≤ rnd || (rnd == 2 && !neg) || (rnd == 3 && neg)
    if inf then (2 ^ (p.total - 1 - p.f) - 1) * 2 ^ p.f else p.maxCode
  else if fmt == 1 && !sat then 0x7F
  else p.maxCode

/-- The canonical NaN of a target (R106). -/
def nanCode (fmt : Nat) : Nat :=
  match fmt with
  | 1 => 0x7F
  | 2 => 0x7E
  | 8 => 0x7FC0
  | 9 => 0x7E00
  | 0xA => 0x7FC00000
  | _ => 0

/-- The code of an infinite value (R106). -/
def infCode (fmt : Nat) (neg sat : Bool) : Nat :=
  match floatSpec fmt with
  | none => if neg then 0x80 else 0x7F
  | some p =>
    let sign := if neg then 2 ^ (p.total - 1) else 0
    if ieeeLike fmt && !sat then sign + (2 ^ (p.total - 1 - p.f) - 1) * 2 ^ p.f
    else if fmt == 1 && !sat then sign + 0x7F
    else sign + p.maxCode

/-- Round a nonzero magnitude to a floating-point target (R105 to R107). The neighbours beyond the largest finite value are that
value and the one a unit above it. -/
def roundFloat (fmt : Nat) (p : FloatSpec) (rnd : Nat) (sat neg : Bool) (m : Nat) (e : Int) (sticky : Bool) (w : Nat) : Nat :=
  let sign := if neg then 2 ^ (p.total - 1) else 0
  let qMin := 1 - (p.bias : Int) - p.f
  let qMax := ((p.maxCode / 2 ^ p.f : Nat) : Int) - p.bias - p.f
  let nMax := 2 ^ p.f + p.maxCode % 2 ^ p.f
  let q := min (max (expo m e - 1 - p.f) qMin) qMax
  let (n, r, sh) := splitAt m e q
  if q = qMax ∧ nMax < n then
    if rnd = 1 ∨ (rnd = 2 ∧ neg) ∨ (rnd = 3 ∧ !neg) then sign + p.maxCode
    else sign + overflowCode fmt p rnd neg sat
  else
    let n' := if roundUpMag n r sh sticky rnd neg w then n + 1 else n
    if q = qMax ∧ nMax < n' then sign + overflowCode fmt p rnd neg sat
    else
      let field := (q + p.f + p.bias).toNat
      if n' < 2 ^ p.f then sign + n' else sign + field * 2 ^ p.f + (n' - 2 ^ p.f)

/-- Round a magnitude to an integer target and saturate (R106). -/
def roundInt (fmt : Nat) (rnd : Nat) (neg : Bool) (m : Nat) (e : Int) (sticky : Bool) (w : Nat) : Nat :=
  let (n, r, sh) := splitAt m e (intWeight fmt)
  let n' := if roundUpMag n r sh sticky rnd neg w then n + 1 else n
  if neg then wrap 8 (-(Nat.min n' 128 : Int)) else Nat.min n' 127

/-- The encoding of a value in a target format (R104 to R107). An exact zero takes the sign `zneg` in a floating-point target. -/
def encodeVal (fmt rnd : Nat) (sat : Bool) (w : Nat) (zneg : Bool) (v : Val) : Nat :=
  match v with
  | .nan => nanCode fmt
  | .inf n => infCode fmt n sat
  | .fin n m e st =>
    match floatSpec fmt with
    | none => roundInt fmt rnd n m e st w
    | some p =>
      if m = 0 ∧ st = false then (if zneg then 2 ^ (p.total - 1) else 0)
      else roundFloat fmt p rnd sat n m e st w

/-- A signed dyadic number as an integer at exponent `q ≤ e`. -/
def atExp (n : Bool) (m : Nat) (e q : Int) : Int :=
  let u : Int := ((m * 2 ^ (e - q).toNat : Nat) : Int)
  if n then -u else u

/-- The exact product of two values; a zero times an infinity is NaN (R94, R109). -/
def mulVal (a b : Val) : Val :=
  match a, b with
  | .nan, _ => .nan
  | _, .nan => .nan
  | .inf x, .inf y => .inf (x != y)
  | .inf x, .fin y m _ _ => if m = 0 then .nan else .inf (x != y)
  | .fin x m _ _, .inf y => if m = 0 then .nan else .inf (x != y)
  | .fin x m e _, .fin y n f _ => .fin (x != y) (m * n) (e + f) false

/-- The exact sum of two values. The sign of an exact zero is that of IEEE 754: the common sign of two zeros or of opposite
values under RDN minus, otherwise plus. -/
def addVal (rnd : Nat) (a b : Val) : Val :=
  match a, b with
  | .nan, _ => .nan
  | _, .nan => .nan
  | .inf x, .inf y => if x = y then .inf x else .nan
  | .inf x, _ => .inf x
  | _, .inf y => .inf y
  | .fin x m e _, .fin y n f _ =>
    let q := min e f
    let v := atExp x m e q + atExp y n f q
    if v = 0 then .fin (if m = 0 ∧ n = 0 ∧ x = y then x else rnd == 3) 0 q false
    else .fin (decide (v < 0)) v.natAbs q false

/-- The negation of a value. -/
def negVal : Val → Val
  | .fin n m e st => .fin (!n) m e st
  | .inf n => .inf (!n)
  | .nan => .nan

/-- The quotient, with 80 bits beyond the point of the divisor and a mark for the rest (R109, R112). -/
def divVal (a b : Val) : Val :=
  match a, b with
  | .nan, _ => .nan
  | _, .nan => .nan
  | .inf _, .inf _ => .nan
  | .inf x, .fin y _ _ _ => .inf (x != y)
  | .fin x _ _ _, .inf y => .fin (x != y) 0 0 false
  | .fin x m e _, .fin y n f _ =>
    if n = 0 then (if m = 0 then .nan else .inf (x != y))
    else if m = 0 then .fin (x != y) 0 0 false
    else
      let u := m * 2 ^ 80
      .fin (x != y) (u / n) (e - f - 80) (u % n != 0)

/-- The order of two values: `some` of less, equal or greater; none where a NaN takes part (R109). -/
def cmpVal (a b : Val) : Option Ordering :=
  match a, b with
  | .nan, _ => none
  | _, .nan => none
  | .inf x, .inf y => some (if x = y then .eq else if x then .lt else .gt)
  | .inf x, _ => some (if x then .lt else .gt)
  | _, .inf y => some (if y then .gt else .lt)
  | .fin x m e _, .fin y n f _ =>
    let q := min e f
    some (compare (atExp x m e q) (atExp y n f q))

/-- The IEEE 754-2019 minimum (R109): −0 below +0. -/
def minVal (a b : Val) : Val :=
  match cmpVal a b with
  | none => .nan
  | some .lt => a
  | some .gt => b
  | some .eq => if a.neg then a else b

/-- The IEEE 754-2019 maximum (R109). -/
def maxVal (a b : Val) : Val :=
  match cmpVal a b with
  | none => .nan
  | some .lt => b
  | some .gt => a
  | some .eq => if a.neg then b else a

/-- The sign that an exact zero takes in an encoding: the value's own. -/
def encodeIeee (fmt rnd : Nat) (sat : Bool) (w : Nat) (v : Val) : Nat := encodeVal fmt rnd sat w v.neg v

/-! ### Packing (R92) -/

/-- The bytes of `n` elements of a format. -/
def packedBytes (bitsPer n : Nat) : Nat := ceilDiv (n * bitsPer) 8

/-- Element `i` of packed bytes as one little-endian number. -/
def elemOf (v bitsPer i : Nat) : Nat := v / 2 ^ (bitsPer * i) % 2 ^ bitsPer

/-- Elements packed into one little-endian number. -/
def packNat (bitsPer : Nat) : List Nat → Nat
  | [] => 0
  | x :: t => x % 2 ^ bitsPer + 2 ^ bitsPer * packNat bitsPer t

/-- Elements packed into bytes. -/
def packBytes (bitsPer : Nat) (xs : List Nat) : List Byte := leBytes (packedBytes bitsPer xs.length) (packNat bitsPer xs)

end Sys2Proof.Machine
end

