-- ==== Sys2Proof/Machine/Mx.lean ====
section
/-! DEFINITION. The MX commands (R93 to R108, R132, R135) and the counter-based generator (R115 to R117). -/

namespace Sys2Proof.Machine

open Sys2Proof

/-! ### Tiles (R94 to R97) -/

/-- The window exponent of a tile. -/
def Tile.wexpInt (t : Tile) : Int := t.wexp.toInt

/-- The 128-bit content of an entry. -/
def Tile.entry (t : Tile) (i : Nat) : BitVec 128 := spGet 0 t.acc i

/-- The special tag of an entry: 0 none, 1 +Inf, 2 −Inf, 3 NaN. -/
def Tile.tagOf (t : Tile) (i : Nat) : BitVec 2 := spGet 0 t.tags i

/-- The join of two special tags (R94). -/
def joinTag (a b : BitVec 2) : BitVec 2 := if a = b ∨ b = 0 then a else if a = 0 then b else 3

/-- A tile with values, tags and `OVF` cleared (R97). -/
def Tile.clear (t : Tile) : Tile := { t with acc := [], tags := [], ovf := false }

/-- A tile after its control word is written (R97): a new WEXP or H clears it. -/
def Tile.setControl (t : Tile) (w : Word) : Tile :=
  let wexp : BitVec 16 := w.setWidth 16
  let h : BitVec 6 := BitVec.ofNat 6 (bits w.toNat 21 16)
  let t1 := if wexp = t.wexp ∧ h = t.h then t else t.clear
  { t1 with wexp, h, ovfEn := bit w.toNat 22 }

/-- floor (p × 2^-wexp) of a signed dyadic number (R95). -/
def anchorFloor (neg : Bool) (m : Nat) (e wexp : Int) : Int :=
  let v : Int := if neg then -(m : Int) else m
  let sh := e - wexp
  if 0 ≤ sh then v * ((2 ^ sh.toNat : Nat) : Int) else v / ((2 ^ (-sh).toNat : Nat) : Int)

/-- Whether a finite value breaches the window (R96). -/
def breaches (wexp : Int) (h m : Nat) (e : Int) : Bool := m != 0 && decide (wexp + 127 - h ≤ expo m e - 1)

/-- A sum of exact products for one entry: the integer to add, the joined tag and whether a product breached. -/
structure Partial where
  sum : Int := 0
  tag : BitVec 2 := 0
  breach : Bool := false
  deriving DecidableEq, Repr

/-- One product into a partial sum (R93 to R96). -/
def Partial.add (p : Partial) (wexp : Int) (h : Nat) (v : Val) : Partial :=
  match v with
  | .nan => { p with tag := joinTag p.tag 3 }
  | .inf n => { p with tag := joinTag p.tag (if n then 2 else 1) }
  | .fin n m e _ =>
    if m = 0 then p
    else { p with sum := p.sum + anchorFloor n m e wexp, breach := p.breach || breaches wexp h m e }

/-- A partial sum added into an entry of a tile. -/
def Tile.addPartial (t : Tile) (i : Nat) (p : Partial) : Tile :=
  { t with acc := spSet 0 t.acc i (t.entry i + BitVec.ofInt 128 p.sum), tags := spSet 0 t.tags i (joinTag (t.tagOf i) p.tag),
           ovf := t.ovf || p.breach }

/-! ### Operands of a step sequence (R92, R132) -/

/-- The bytes of an operand and its uses of banks, unit by unit: each is read in the cycle that `cyc` gives for its first byte (R135) (DEDUCED, log
entry 27). -/
def fetchUnits (k : Core) (unit pc : Nat) (sp : Space) (a n : Nat) (cyc : Nat → Nat) : List Byte × List (BankUse × Nat) :=
  let w := if sp = .attic then 64 else 32
  let parts := (List.range (ceilDiv n w)).map fun j =>
    let len := Nat.min w (n - j * w)
    (k.load sp (a + j * w) len (cyc (j * w)), usesOf unit pc sp (a + j * w) len (cyc (j * w)))
  ((parts.map (·.1)).flatten, (parts.map (·.2)).flatten)

/-- Whether a block scale applies to an operand: its field names a store and its format is an MX element (R91, R132). -/
def scaled (f : BitVec 32) (fmt : Nat) : Bool := (opSpace f).isSome && decide (1 ≤ fmt) && decide (fmt ≤ 6)

/-- The operands of `MMA` and `MAXEXP`, read: elements of A and B as exact values, scales as bytes (none where an operand has
none), depth times steps, and the uses of banks. -/
structure MxOperands where
  a : Array Val
  b : Array Val
  sa : Option (Array Byte)
  sb : Option (Array Byte)
  len : Nat
  uses : List (BankUse × Nat)

/-- Read the operands of a step sequence (R132, R135). -/
def readMx (k : Core) (fl : InFlight) : CRes MxOperands := do
  let d := fl.q.desc
  let (depth, c) := mxStep d.fmta d.fmtb
  let len := d.count * depth
  let t0 := fl.d + mxQ d
  let nS := 8 * ceilDiv len 32
  let nA := packedBytes (fmtBits d.fmta) (8 * len)
  let nB := packedBytes (fmtBits d.fmtb) (8 * len)
  let useA := scaled d.opnd2 d.fmta
  let useB := scaled d.opnd3 d.fmtb
  let (spA, aA) ← operand fl d.opnd0 fl.q.base0 nA
  let (spB, aB) ← operand fl d.opnd1 fl.q.base1 nB
  let (spC, aC) ← if useA then operand fl d.opnd2 fl.q.base2 nS else pure (.shelf, 0)
  let (spD, aD) ← if useB then operand fl d.opnd3 fl.q.base3 nS else pure (.shelf, 0)
  let lead := fun (sp : Space) => if sp = .attic then 3 else 1
  let elemCyc := fun (sp : Space) (bitsPer off : Nat) => t0 + off * 8 / bitsPer / 8 / depth * c - lead sp
  let scaleCyc := fun (sp : Space) (off : Nat) => t0 + 32 * (off / 8) / depth * c - lead sp
  let (bA, uA) := fetchUnits k 1 fl.q.pc spA aA nA (elemCyc spA (fmtBits d.fmta))
  let (bB, uB) := fetchUnits k 1 fl.q.pc spB aB nB (elemCyc spB (fmtBits d.fmtb))
  let (bC, uC) := if useA then fetchUnits k 1 fl.q.pc spC aC nS (scaleCyc spC) else ([], [])
  let (bD, uD) := if useB then fetchUnits k 1 fl.q.pc spD aD nS (scaleCyc spD) else ([], [])
  let elems := fun (fmt : Nat) (bs : List Byte) =>
    let v := ofLe bs
    ((List.range (8 * len)).map (fun i => decodeVal fmt (elemOf v (fmtBits fmt) i))).toArray
  return { a := elems d.fmta bA, b := elems d.fmtb bB, sa := if useA then some bC.toArray else none,
           sb := if useB then some bD.toArray else none, len, uses := uA ++ uB ++ uC ++ uD }

/-- The block scale of row (or column) `i` at index `k`: an exponent, none for NaN (R91). -/
def scaleAt (s : Option (Array Byte)) (k i : Nat) : Option Int :=
  match s with
  | none => some 0
  | some a =>
    let x := (a.getD (8 * (k / 32) + i) 0).toNat
    if x = 0xFF then none else some ((x : Int) - 127)

/-- The exact product of element (row `i`, `k`) and element (`k`, column `j`) with their scales (R93, R94). -/
def MxOperands.product (o : MxOperands) (i j k : Nat) : Val :=
  match scaleAt o.sa k i, scaleAt o.sb k j with
  | some x, some y =>
    match mulVal (o.a.getD (8 * k + i) .nan) (o.b.getD (8 * k + j) .nan) with
    | .fin n m e st => .fin n m (e + x + y) st
    | v => v
  | _, _ => .nan

/-- The sum of the products of entry 8 × `i` + `j`. -/
def MxOperands.entrySum (o : MxOperands) (wexp : Int) (h i j : Nat) : Partial :=
  (List.range o.len).foldl (fun p k => p.add wexp h (o.product i j k)) {}

/-- MMA: `COUNT` steps of exact products into the tile (R93 to R96) (DEDUCED, log entry 26). -/
def execMma (c : Nat) (s : State) : Out :=
  onEngine c .mx 0x01 s fun s k fl => do
    let d := fl.q.desc
    let o ← readMx k fl
    let ready := (timing s c fl.q fl.d).last
    let t ← atCycle (ready - 1) (k.readT d.tile (ready - 1))
    let sums := (List.range 64).map (fun e => (e, o.entrySum t.wexpInt t.h.toNat (e / 8) (e % 8)))
    if t.ovfEn && sums.any (·.2.breach) then throw (ready - 1, { reason := 0x0601, object := obj 3 d.tile })
    return { core := k.setTile d.tile (sums.foldl (fun t e => t.addPartial e.1 e.2) t), uses := o.uses }

/-- e of R99 of an exact nonzero element value. -/
def valExpo : Val → Option Int
  | .fin _ m e _ => if m = 0 then none else some (expo m e)
  | _ => none

/-- The exponent that `MAXEXP` takes from a product (R100): that of a finite nonzero one. -/
def MxOperands.expoAt (o : MxOperands) (i j k : Nat) : Option Int :=
  match scaleAt o.sa k i, scaleAt o.sb k j, valExpo (o.a.getD (8 * k + i) .nan), valExpo (o.b.getD (8 * k + j) .nan) with
  | some x, some y, some p, some q => some (p + q + x + y)
  | _, _, _, _ => none

/-- The larger of an exponent and one that may be absent. -/
def maxOpt (a : Int) : Option Int → Int
  | some b => max a b
  | none => a

/-- A signed 16-bit value in a scalar register. -/
def clamp16 (v : Int) : Word := BitVec.ofInt 32 (max (-32768) (min 32767 v))

/-- MAXEXP: the largest exponent of the products of a step sequence into s(`SA`) (R100). -/
def execMaxexp (c : Nat) (s : State) : Out :=
  onEngine c .mx 0x02 s fun _ k fl => do
    let o ← readMx k fl
    let best := (List.range (64 * o.len)).foldl (fun b e => maxOpt b (o.expoAt (e % 64 / 8) (e % 8) (e / 64))) (-32768)
    return { core := k.setSreg fl.q.desc.sa (clamp16 best), uses := o.uses }

/-- TCLR: clears values, tags and `OVF` (R97). -/
def execTclr (c : Nat) (s : State) : Out :=
  onEngine c .mx 0x03 s fun _ k fl => .ok { core := k.setTile fl.q.desc.tile (k.tile fl.q.desc.tile).clear }

/-- TSET: writes the tile control word from s(`SA`), whose `OVF` bit is ignored (R97). -/
def execTset (c : Nat) (s : State) : Out :=
  onEngine c .mx 0x04 s fun _ k fl => .ok { core := k.setTile fl.q.desc.tile ((k.tile fl.q.desc.tile).setControl fl.q.sa) }

/-! ### The generator (R115 to R117) -/

/-- Word `j` of the sequence (context, stream, logical core) (R115, R117). -/
def drawWord (g : GenCtx) (core stream j : Nat) : Nat :=
  let input := ascii "D1-DRAW" ++ leBytes 16 g.seed.toNat ++ leBytes 8 g.step.toNat ++ leBytes 4 core ++ leBytes 4 stream
    ++ leBytes 8 (j / 42)
  le (shake128 input 168) (4 * (j % 42)) 4

/-- `n` words from word offset `w`, modulo 2^64; words of one block are taken from one evaluation. -/
def drawWords (g : GenCtx) (core stream w n : Nat) : List Nat :=
  let first := w / 42
  let blocks := (List.range (drawBlocks w n)).map fun i =>
    shake128 (ascii "D1-DRAW" ++ leBytes 16 g.seed.toNat ++ leBytes 8 g.step.toNat ++ leBytes 4 core ++ leBytes 4 stream
      ++ leBytes 8 ((first + i) % 2 ^ 64)) 168
  (List.range n).map fun i =>
    if w + i < 2 ^ 64 then le (blocks.getD ((w + i) / 42 - first) []) (4 * ((w + i) % 42)) 4
    else drawWord g core stream ((w + i) % 2 ^ 64)

/-- The context of a command (R116), checked against its ready cycle at the cycle of the read (R125). -/
def useContext (s : State) (c : Nat) (fl : InFlight) : CRes GenCtx :=
  let g := spGet {} s.contexts (c / 1280 * 16 + fl.q.desc.ctx)
  if fl.d + 1 < g.ready then
    .error (fl.d + 1, { reason := 0x0101, object := obj 11 fl.q.desc.ctx, shortfall := g.ready - (fl.d + 1) })
  else .ok g

/-- The cycles in which a request occupies the region's generator (R117): 24 for each block from D + 1. -/
def generatorUse (c : Nat) (fl : InFlight) : List (Nat × Nat) :=
  (List.range (24 * genBlocks fl.q)).map (fun i => (fl.d + 1 + i, 0xB40 + c / 1280))

/-! ### Export (R104 to R108) -/

/-- The value of an entry: ACC × 2^WEXP, or that of its tag (R94, R95). -/
def Tile.value (t : Tile) (i : Nat) : Val :=
  let g := t.tagOf i
  if g = 3 then .nan else if g = 1 then .inf false else if g = 2 then .inf true
  else
    let v := (t.entry i).toInt
    .fin (decide (v < 0)) v.natAbs t.wexpInt false

/-- The exported value before rounding (R104): the product with both scales. A zero scale of an infinite entry, an infinite scale
of an exact zero and a NaN give NaN. -/
def exportVal (v s1 s2 : Val) : Val := mulVal (mulVal v s1) s2

/-- The scale that a scalar register holds; s0 stands for 1.0 (R104). -/
def scaleVal (reg : Nat) (w : Word) : Val := if reg = 0 then .fin false 1 0 false else decodeVal 0xA w.toNat

/-- The export's product in the order that keeps 0 × Inf of the two scales a NaN (R104). -/
def exportEntry (t : Tile) (q : QEntry) (i : Nat) : Val :=
  exportVal (t.value i) (scaleVal q.desc.sa q.sa) (scaleVal q.desc.sb q.sb)

/-- The elements of a register: 16-bit lanes, or 32-bit lanes for binary32 (R533) (DEDUCED, log entry 26). -/
def packLanes (fmt : Nat) (xs : List Nat) : BitVec 256 := BitVec.ofNat 256 (packNat (if fmt = 0xA then 32 else 16) xs)

/-- The stochastic words of an export, none in another mode (R107). -/
def exportWords (s : State) (c : Nat) (fl : InFlight) (n : Nat) : CRes (List Nat) :=
  if fl.q.desc.rnd = 4 then do
    let g ← useContext s c fl
    return drawWords g c fl.q.base2.toNat (pair64 fl.q.base3 fl.q.base3n) n
  else return []

/-- A store of bytes at an address in cycle `t`, readable in the next cycle from the shelf and three later from the attic. -/
def storeAt (c unit pc : Nat) (sp : Space) (a : Nat) (bs : List Byte) (t : Nat) : Pending × List (BankUse × Nat) :=
  ({ unit, pc, ready := if sp = .attic then t + 3 else t + 1, writes := [{ space := sp, core := c, addr := a, bytes := bs }] },
   usesOf unit pc sp a bs.length t)

/-- The exports of tiles with `OVF` set are counted (R96). -/
def countOvf (n : Nat) (s : State) : State :=
  { s with stats := { s.stats with windowOvf := s.stats.windowOvf + BitVec.ofNat 32 n } }

/-- TEXP: the 64 entries of a tile with one rounding each (R104 to R107), to memory or to eight registers (DEDUCED, log entry 26). -/
def execTexp (c : Nat) (s : State) : Out :=
  onEngine c .mx 0x08 s fun s k fl => do
    let d := fl.q.desc
    let size := packedBytes (fmtBits d.fmtd) 8
    let (sp, a) ← operand fl d.opnd0 fl.q.base0 (8 * size)
    let t ← atCycle (fl.d + 1) (k.readT d.tile (fl.d + 1))
    let ws ← exportWords s c fl 64
    let codes := (List.range 64).map fun i => encodeVal d.fmtd d.rnd d.sat (ws.getD i 0) false (exportEntry t fl.q i)
    let row := fun i => (codes.drop (8 * i)).take 8
    let ready := fun i => (timing s c fl.q fl.d).last - 7 + i
    let regs := (opSpace d.opnd0).isNone
    let k' := if regs then (List.range 8).foldl (fun m i => m.setVreg (d.vd + i) (packLanes d.fmtd (row i))) k else k
    let stores := if regs then [] else
      (List.range 8).map fun i => storeAt c 1 fl.q.pc sp (a + i * size) (packBytes (fmtBits d.fmtd) (row i)) (ready i - 1)
    return { core := k', pends := stores.map (·.1), uses := (stores.map (·.2)).flatten, paths := generatorUse c fl,
             post := countOvf (b2n t.ovf) }

/-- The largest normal exponent of an MX element target (R108). -/
def targetExpo (fmt : Nat) : Int :=
  match fmt with
  | 1 => 8
  | 2 => 15
  | 3 => 2
  | 4 => 4
  | 5 => 2
  | _ => 0

/-- One MX block (R108): its scale byte and its element codes. -/
def mxBlock (fmt rnd : Nat) (sat : Bool) (ws : List Nat) (vs : List Val) : Nat × List Nat :=
  if vs.any (fun v => v == .nan) then (0xFF, vs.map (fun _ => 0))
  else
    let es := vs.filterMap valExpo
    let x := match es with
      | [] => -127
      | e :: t => max (-127) (min 127 (t.foldl max e - 1 - targetExpo fmt))
    let enc := fun (p : Val × Nat) => match p.1 with
      | .fin n m e st => encodeVal fmt rnd sat (ws.getD p.2 0) false (.fin n m (e - x) st)
      | v => encodeVal fmt rnd sat (ws.getD p.2 0) false v
    ((x + 127).toNat, vs.zipIdx.map enc)

/-- TEXPMX: tiles a0 to a3 as eight MX blocks of 32 elements with their scales (R108) (DEDUCED, log entry 26). -/
def execTexpmx (c : Nat) (s : State) : Out :=
  onEngine c .mx 0x09 s fun s k fl => do
    let d := fl.q.desc
    let size := packedBytes (fmtBits d.fmtd) 32
    let (sp, a) ← operand fl d.opnd0 fl.q.base0 (8 * size)
    let (spS, aS) ← operand fl d.opnd1 fl.q.base1 8
    let t0 ← atCycle (fl.d + 1) (k.readT 0 (fl.d + 1))
    let t1 ← atCycle (fl.d + 2) (k.readT 1 (fl.d + 2))
    let t2 ← atCycle (fl.d + 3) (k.readT 2 (fl.d + 3))
    let t3 ← atCycle (fl.d + 4) (k.readT 3 (fl.d + 4))
    let ts := [t0, t1, t2, t3]
    let ws ← exportWords s c fl 256
    let entries := fun blk => ts.flatMap fun t =>
      (List.range 8).map fun i => exportEntry t fl.q (if d.fn % 2 = 1 then blk + 8 * i else 8 * blk + i)
    let blocks := (List.range 8).map fun b => mxBlock d.fmtd d.rnd d.sat (ws.drop (32 * b)) (entries b)
    let rows := blocks.map fun b => packBytes (fmtBits d.fmtd) b.2
    let ready := (timing s c fl.q fl.d).last
    let regs := (opSpace d.opnd0).isNone
    let k' := if regs then (List.range 8).foldl (fun m i => m.setVreg (d.vd + i) (BitVec.ofNat 256 (ofLe (rows.getD i [])))) k else k
    let stores := if regs then [] else
      (List.range 8).map fun i => storeAt c 1 fl.q.pc sp (a + i * size) (rows.getD i []) (ready - 9 + i)
    let scales := storeAt c 1 fl.q.pc spS aS (blocks.map (fun b => BitVec.ofNat 8 b.1)) (ready - 1)
    return { core := k', pends := stores.map (·.1) ++ [scales.1], uses := (stores.map (·.2)).flatten ++ scales.2,
             paths := generatorUse c fl, post := countOvf ((ts.map (fun t => b2n t.ovf)).sum) }

/-! ### Partials (R101, R102) -/

/-- The 1,024 value bytes of a tile's partial (R101). -/
def Tile.partialBytes (t : Tile) : List Byte := (List.range 64).flatMap (fun i => leBytes 16 (t.entry i).toNat)

/-- The 32-byte trailer of a tile's partial (R101). -/
def Tile.trailer (t : Tile) : List Byte :=
  [1, BitVec.ofNat 8 (b2n t.ovf)] ++ leBytes 2 t.wexp.toNat ++ leBytes 1 t.h.toNat ++ zeros 11
    ++ leBytes 16 (packNat 2 ((List.range 64).map (fun i => (t.tagOf i).toNat)))

/-- TOUTP: a tile as an anchored partial (R101) (DEDUCED, log entry 27). -/
def execToutp (c : Nat) (s : State) : Out :=
  onEngine c .mx 0x0A s fun s k fl => do
    let d := fl.q.desc
    let (sp, a) ← operand fl d.opnd0 fl.q.base0 1024
    let (spT, aT) ← operand fl d.opnd1 fl.q.base1 32
    let t ← atCycle (fl.d + 1) (k.readT d.tile (fl.d + 1))
    let ready := (timing s c fl.q fl.d).last
    let w := if sp = .attic then 64 else 32
    let stores := (chunks w t.partialBytes).zipIdx.map fun p => storeAt c 1 fl.q.pc sp (a + p.2 * w) p.1 (fl.d + 3 + p.2)
    let tr := storeAt c 1 fl.q.pc spT aT t.trailer (ready - 1)
    return { core := k, pends := stores.map (·.1) ++ [tr.1], uses := (stores.map (·.2)).flatten ++ tr.2 }

/-- A partial added into a tile of the same window (R102). -/
def Tile.addPart (t : Tile) (vals trailer : List Byte) : Tile :=
  (List.range 64).foldl (fun t i =>
    { t with acc := spSet 0 t.acc i (t.entry i + BitVec.ofNat 128 (le vals (16 * i) 16)),
             tags := spSet 0 t.tags i (joinTag (t.tagOf i) (BitVec.ofNat 2 (le trailer 16 16 / 4 ^ i))) })
    { t with ovf := t.ovf || bit (le trailer 1 1) 0 }

/-- TADDP: adds an anchored partial into the tile (R102) (DEDUCED, log entry 27). -/
def execTaddp (c : Nat) (s : State) : Out :=
  onEngine c .mx 0x0B s fun s k fl => do
    let d := fl.q.desc
    let (sp, a) ← operand fl d.opnd0 fl.q.base0 1024
    let (spT, aT) ← operand fl d.opnd1 fl.q.base1 32
    let tm := timing s c fl.q fl.d
    let w := if sp = .attic then 64 else 32
    let (vals, u1) := fetchUnits k 1 fl.q.pc sp a 1024 (fun o => fl.d + 1 + o / w)
    let (tr, u2) := fetchUnits k 1 fl.q.pc spT aT 32 (fun _ => fl.d + tm.occ)
    let t ← atCycle (tm.last - 2) (k.readT d.tile (tm.last - 2))
    if le tr 0 1 ≠ 1 then throw (tm.last - 2, { reason := 0x0305, detail := le tr 0 1 })
    if le tr 2 2 ≠ t.wexp.toNat ∨ le tr 4 1 ≠ t.h.toNat then throw (tm.last - 2, { reason := 0x0602, object := obj 3 d.tile })
    return { core := k.setTile d.tile (t.addPart vals tr), uses := u1 ++ u2 }

end Sys2Proof.Machine
end

