-- ==== Sys2Proof/Machine/RunCmds.lean ====
section
/-! DEFINITION. Host commands that report and that control a run: PING, IDENTIFY, NEGOTIATE, SET_MODE (R386, R419, R420), START, HOLD, RESUME,
ABORT, RUN_TO_FRAME (R421, R422, R497), streams (R331 to R334), time (R398, R419), the inventory and certificates (R357, R367, R368, R373). -/

namespace Sys2Proof.Machine

open Sys2Proof

/-! ### PING, IDENTIFY, NEGOTIATE, SET_MODE -/

/-- `PING` returns its 16 bytes. -/
def cPing : Cmd := { opcode := 1, allowed := anyState, run := fun k s => okWith s (k.bytes 16 16) }

/-- The firmware copy that runs (R458). -/
def State.fwActive (s : State) : FwCopy := if s.sec.runB then s.sec.copyB else s.sec.copyA

/-- Result bytes 24 to 127 of `IDENTIFY` (R420). -/
def State.identity (s : State) : List Byte :=
  leBytes 1 (assyCode s.variant) ++ leBytes 1 0xD1 ++ leBytes 1 (stepCode s.stepping) ++ leBytes 1 s.grade
    ++ (List.range 4).map (fun i => BitVec.ofNat 8 (s.mgmt.usable.getD i 0)) ++ leBytes 8 s.serial.toNat ++ leBytes 1 3 ++ leBytes 1 s.mgmt.fpc
    ++ leBytes 1 1 ++ leBytes 1 (devCode s.dev) ++ leBytes 4 s.fwActive.fwver.toNat ++ zeros 8 ++ slice s.sec.sheetDigest 0 64 ++ zeros 8

/-- `IDENTIFY` (R420). -/
def cIdentify : Cmd := { opcode := 2, allowed := anyState, run := fun _ s => okWith s s.identity }

/-- `NEGOTIATE` (R286): the highest of the levels 1 and 2 that the host supports. -/
def cNegotiate : Cmd := {
  opcode := 3, allowed := [.idle]
  run := fun k s =>
    let m := k.par 16 1
    if m % 4 = 0 then refuse s stBadParam 0
    else
      let l := if bit m 1 then 2 else 1
      okWith { s with mgmt := { s.mgmt with fpc := l } } (leBytes 1 l) }

/-- `SET_MODE` (R386): refused above the timetable's ceiling; applied at once before a run, staged otherwise (DEDUCED, log entry 56). -/
def cSetMode : Cmd := {
  opcode := 0x10, allowed := [.idle, .loaded, .running, .held, .replay]
  run := fun k s =>
    let n := k.par 16 1
    let above := match s.mgmt.loadedImage with | some i => decide (ceilKhz i.mode < ceilKhz (modeOf n)) | none => false
    if 2 < n then refuse s stBadParam 0
    else if above then refuse s stRejected 0x0B07
    else if s.dev == .idle || (s.dev == .loaded && !s.frame.ranOnce) then okWith (applyMode s (modeOf n) false) []
    else .final (stageMode s (modeOf n) false) stAccepted 0 [] }

/-! ### ABORT (R422, R497) -/

/-- A stop of frame *j* by `ABORT`: the alarm and the stop note at once; the frame executes to its end and no tick follows it (DEDUCED, log entry 95).
-/
def abortFrame (unload : Bool) (s : State) : State :=
  let s1 := sendStop (latchFault s (s.deviceRec 0x0A10 0) 0) 0x0A10
  { s1 with frame := { s1.frame with abortAt := some s1.frameIndex, abortUnload := unload } }

/-- `ABORT` of a run that is not executing frames: of a pause it ends the run; a stopped run keeps its certificate (DEDUCED, log entries 55 and 95).
-/
def abortHeld (s : State) : State :=
  let last := s.frame.lastClean
  let s1 := if s.frame.stopped then s else closeRun s 2
  let s2 := setDev { s1 with frame := { s1.frame with stopped := false } } .loaded
  failRunControl (finishCommand s2 0x30 stFaulted 0x0A10 (resFrame last)) 0x0A10 false

/-- Unload where asked. -/
def unloadIf (b : Bool) (s : State) : State := if b then unloadJob s else s

/-- `ABORT` (DEDUCED, log entry 55). -/
def cAbort : Cmd := {
  opcode := 0x33, allowed := [.loaded, .running, .held, .faulted]
  run := fun k s =>
    let u := bit (k.par 16 1) 0
    let last := resFrame s.frame.lastClean
    match s.dev with
    | .running | .replay => .long s (abortFrame u)
    | .held => .final (unloadIf u (abortHeld s)) stOk 0 last
    | .loaded =>
      if s.frame.ranOnce then .final (unloadIf u s) stComplete 0 last
      else if u then .final (unloadJob s) stOk 0 last
      else refuse s stBadState 0
    | _ => if u then .final (unloadJob s) stOk 0 last else refuse s stBadState 0 }

/-! ### Streams (R331 to R334) -/

/-- Whether a word is a temperature: not negative, infinite or NaN (R331). -/
def tempOk (w : Nat) : Bool := decide (w < 0x7F800000)

/-- Whether a word is a nucleus mass: above zero and not a NaN. -/
def toppOk (w : Nat) : Bool := decide (0 < w) && decide (w ≤ 0x7F800000)

/-- Whether a prompt lies within one area of kind 0. -/
def State.promptOk (s : State) (off plen : Nat) : Bool :=
  s.hatch.areas.any fun a => a.kind == 0 && decide (a.offset ≤ off) && decide (off + 4 * plen ≤ a.offset + a.size)

/-- Whether the loaded timetable runs streams: its crate has feature bit 4 (R285). -/
def State.runsStreams (s : State) : Bool :=
  s.ttLoaded && (match s.mgmt.crate with | some c => bit c.features 4 | none => false)

/-- The fields of an admitted stream (R331). -/
def Packet.toStream (k : Packet) (atFrame : Nat) : Stream :=
  { state := .pending, sid := k.par 20 4, step := BitVec.ofNat 64 (k.par 48 8), atFrame, plen := k.par 56 4, maxtok := k.par 60 4,
    promptOff := k.par 64 4, temp := BitVec.ofNat 32 (k.par 68 4), topp := BitVec.ofNat 32 (k.par 72 4), topk := k.par 76 2,
    nstop := k.par 78 1, tpblog := k.par 79 1, stops := (List.range 8).map (fun i => BitVec.ofNat 32 (k.par (80 + 4 * i) 4)),
    seed := BitVec.ofNat 128 (k.par 32 16), step0 := BitVec.ofNat 64 (k.par 48 8) }

/-- Whether the fields of `ADMIT_STREAM` lie in their ranges (R331) (DEDUCED, log entry 55). -/
def admitOk (s : State) (k : Packet) : Bool :=
  let n := k.par 16 4
  let plen := k.par 56 4
  let maxtok := k.par 60 4
  let tpb := k.par 79 1
  decide (n < 16384) && decide (1 ≤ plen) && decide (plen ≤ 2 ^ 24) && decide (1 ≤ maxtok) && decide (maxtok ≤ 2 ^ 24)
    && decide (k.par 78 1 ≤ 8) && decide (tpb ≤ 12) && tempOk (k.par 68 4) && toppOk (k.par 72 4) && s.promptOk (k.par 64 4) plen
    && decide (ceilDiv (plen + maxtok - 1) (2 ^ tpb) ≤ s.dirMax)

/-- The frame of a stream command, or none where it comes too late (R332) (DEDUCED, log entry 55). -/
def State.takenFrame (s : State) (at_ : Nat) : Option Nat :=
  if at_ = ones64 then some s.streamFrame else if at_ < s.streamFrame then none else some at_

/-- `ADMIT_STREAM` (R331, R332). -/
def cAdmit : Cmd := {
  opcode := 0x40, allowed := [.loaded, .running, .held]
  run := fun k s =>
    let n := k.par 16 4
    if !s.runsStreams then refuse s stBadState 0
    else if !admitOk s k then refuse s stBadParam 0
    else match s.takenFrame (k.par 24 8) with
      | none => refuse s stRejected 0x0A21
      | some f =>
        if (s.stream n).state != .free || s.streams.entries.any (fun e => e.2.state != .free && e.2.sid == k.par 20 4)
        then refuse s stRejected 0x0A20
        else .final (s.setStream n (Packet.toStream k f)) stAccepted 0 [] }

/-- `RETIRE_STREAM` (R332, R333). -/
def cRetire : Cmd := {
  opcode := 0x41, allowed := [.loaded, .running, .held]
  run := fun k s =>
    let n := k.par 16 4
    let e := s.stream n
    if !s.runsStreams then refuse s stBadState 0
    else if 16384 ≤ n ∨ e.state = .free then refuse s stBadParam 0
    else match s.takenFrame (k.par 24 8) with
      | none => refuse s stRejected 0x0A21
      | some f =>
        if e.state = .done then .final (s.setStream n {}) stComplete 0 (resAt 24 (leBytes 8 e.endFrame))
        else .final (s.setStream n { e with retireAt := some f }) stAccepted 0 [] }

/-- `STREAM_STATUS` (R334). -/
def cStreamStatus : Cmd := {
  opcode := 0x42, allowed := anyState
  run := fun k s => if 16384 ≤ k.par 16 4 then refuse s stBadParam 0 else okWith s (slice (s.stream (k.par 16 4)).bytes 0 104) }

/-! ### START (R349, R359, R362, R367 to R370, R373, R421, R477, R485) -/

/-- The packet in the content of a replayed `COMMAND` record (R349, R410). -/
def packetOf (content : List Byte) : Packet :=
  let pblk := bit (le content 6 1) 2
  let block := content.drop 256
  { seq := le content 0 4, role := le content 6 1 % 4, pver := le content 7 1, pblk, plen := le content 8 4, readOk := !block.isEmpty,
    paddr := le content 16 8, params := if pblk then block else slice content 16 240 }

/-- The opcode in the content of a `COMMAND` record. -/
def opcodeOf (content : List Byte) : Nat := le content 4 2

/-- The commands that a replay applies (R368) (DEDUCED, log entry 53). -/
def replayed (op : Nat) : Option Cmd :=
  if op = 0x33 then some cAbort else if op = 0x40 then some cAdmit else if op = 0x41 then some cRetire else none

/-- Apply one `COMMAND` record of the replay stream: it is inventoried again, and an earliest-frame stream command has its `FRAME` as
`AT_FRAME` (R368). No reply is written. -/
def applyCommandRec (s : State) (r : InvRec) : State :=
  if !s.runOn && s.dev != .loaded then s else
  match replayFault r with
  | some x => stopNow s x
  | none =>
    let op := opcodeOf r.content
    match replayed op with
    | none => s
    | some c =>
      let k := packetOf r.content
      if !s.roomFor (s.recordSet 1 r.frame 0 r.src r.content true k.pblk) then stopNow s 0x0A30 else
      let s1 := record s 1 r.frame 0 r.src r.content true k.pblk
      let early := k.earliest op
      let s2 := if early || op == 0x33 then addChoices s1 1 else s1
      let k2 := if early then { k with params := putAt (slice k.params 0 (Nat.max k.params.length 16)) 8 (leBytes 8 r.frame) } else k
      match verdict s2 op (some c) .replay k2 with
      | .final m _ _ _ => m
      | .silent m => m
      | .long m act => act m

/-- The records of a replay stream before its `HATCH_BASE`: those read before the `START` that it repeats (DEDUCED, log entry 54). -/
def State.recsBefore (s : State) : List InvRec := (s.inv.replay.getD []).takeWhile (fun r => r.kind != 9)

/-- The records of a replay stream from its `HATCH_BASE` on. -/
def State.recsAfter (s : State) : List InvRec := (s.inv.replay.getD []).dropWhile (fun r => r.kind != 9)

/-- Whether a record is a `COMMAND` of a kind that a replay applies. -/
def InvRec.applies (r : InvRec) : Bool := r.kind == 1 && (replayed (r.src / 2 ^ 32)).isSome

/-- The frame at whose tick a record is applied: one earlier for an earliest-frame stream command (R368). -/
def InvRec.tickFrame (r : InvRec) : Nat :=
  if (packetOf r.content).earliest (opcodeOf r.content) then r.frame - 1 else r.frame

/-- The replayed commands of the tick at which `FRAME_INDEX` becomes `k` (DEDUCED, log entry 54). -/
def replayCommands (s : State) (k : Nat) : State :=
  (s.recsAfter.filter (fun r => r.applies && r.tickFrame == k && r.frame != ones64)).foldl applyCommandRec s

/-- The replayed commands of `START`: those of `FRAME` all ones and those read before it (DEDUCED, log entry 54). -/
def replayAtStart (s : State) : State :=
  (s.recsBefore.filter InvRec.applies ++ s.recsAfter.filter (fun r => r.applies && r.frame == ones64)).foldl applyCommandRec s

/-- The digests of the 64 KiB units of the Hatch (R349). -/
def State.hatchDigests (s : State) : List Byte := (List.range 1024).flatMap fun i => hashH (readBytes s.hatch.bytes (65536 * i) 65536)

/-- The counters of FABRIC that `START` and a core reset clear (R50, R247, R279). -/
def Fabric.clearCounters (f : Fabric) : Fabric :=
  { f with
    freezes := 0, frozenCycles := 0, frameFrozen := 0, holdsSent := 0, holdsJoined := 0, framesDeferred := 0, deferRounds := 0,
    freezeOver := 0, flips := 0, landDups := 0, landStale := 0, noteDups := 0, noteGaps := 0, noteDrops := 0, hubXoff := 0,
    resendReq := 0, resendServed := 0, resendStale := 0, detours := 0, noteReversals := 0 }

/-- The counters of STREAMS and STATS that `START` and a core reset clear (R347, R477). -/
def clearRunCounters (s : State) : State :=
  { s with
    fabric := s.fabric.clearCounters,
    streams := { s.streams with admitted := 0, completed := 0, drainSteps := 0, outMismatch := 0 },
    stats := { s.stats with faults := 0, windowOvf := 0 } }

/-- The frame that a `START` begins with (R30, R365). -/
def State.startFrame (s : State) : Nat := if s.frame.ranOnce then 0 else s.frameIndex

/-- The chains, the choices and the certificate of a run from frame 0 (R359, R362, R373). -/
def freshChains (s : State) : State :=
  let c := digestOr Crate.digest s.mgmt.crate
  let (x, y, z) := s.coords
  let (rx, ry, rz) := s.relative x y z
  { s with inv := { s.inv with
      choices := 0, cert := none, interim := none, frameHead := hashH (ascii "D1-FRAMES" ++ c ++ leBytes 1 rx ++ leBytes 1 ry ++ leBytes 1 rz),
      outputHead := hashH (ascii "D1-OUTPUTS" ++ c) } }

/-- `START` is accepted: counters and the latch are cleared, the Hatch is recorded, the run waits for its first tick, and the table of frame 0 is
built (DEDUCED, log entry 44). -/
def startRun (tick : Nat) (s : State) : State :=
  let f := s.startFrame
  let s1 := clearRunCounters (if f = 0 then freshChains s else s)
  let s2 := { s1 with
    hatch := { s1.hatch with reqDropped := 0 }, alarms := { s1.alarms with latch := none },
    inv := { s1.inv with records := 0, wasHoldover := s1.time.ltState == .holdover, utcStart := 0, utcEnd := 0, ueBase := s1.cellar.ueCount,
                         portCheck := [] },
    fabric := { s1.fabric with frameIndex := BitVec.ofNat 64 f },
    frame := { s1.frame with
      nextTick := tick, tickWait := true, waitStart := true, ranOnce := true, firstFrame := f, framesRun := 0, lastClean := none,
      stopped := false, completedAt := none, tickTaken := false } }
  let s3 := record s2 9 f 0 0 s2.hatchDigests
  let s4 := setDev (replayAtStart s3) (if s3.inv.replayNext then .replay else .running)
  if f = 0 then buildTable s4 0 else s4

/-- Whether a tick may be that of `START` or `RESUME` (R29, R349, R421). -/
def State.tickOk (s : State) (t : Nat) : Bool := t % 1024 == 0 && decide (s.now + 80 * 1024 ≤ t)

/-- Whether the `HATCH_BASE` of a replay compares with the device's own (R368, R369). -/
def State.hatchBaseOk (s : State) : Bool :=
  match (s.inv.replay.getD []).find? (fun r => r.kind == 9) with
  | some r => r.content == s.hatchDigests
  | none => true

/-- `START`. -/
def cStart : Cmd := {
  opcode := 0x30, allowed := [.loaded]
  run := fun k s =>
    let t := k.par 16 8
    if !s.tickOk t then refuse s stBadParam 0x0A11
    else if s.time.mtState != .locked then refuse s stRejected 0x0B08
    else if s.inv.replayNext && !s.hatchBaseOk then refuse s stRejected 0x0A31
    else .long s (startRun t) }

/-! ### HOLD, RUN_TO_FRAME, RESUME (R421) -/

/-- A pause after frame `f` is asked for; where it is the current frame, the pause hold goes at once. -/
def pauseAfter (f : Nat) (s : State) : State := if f = s.frameIndex then sendHold s 4 true else s

/-- `HOLD`. -/
def cHold : Cmd := {
  opcode := 0x31, allowed := [.running, .replay]
  run := fun k s =>
    let f := if k.par 16 8 = ones64 then s.frameIndex else k.par 16 8
    if f < s.frameIndex then refuse s stBadParam 0x0A12
    else .long s fun m => pauseAfter f { m with frame := { m.frame with pauseAt := some f } } }

/-- `RUN_TO_FRAME`: in `LOADED` and `HELD` it only records the frame. -/
def cRunToFrame : Cmd := {
  opcode := 0x34, allowed := [.loaded, .running, .held, .replay]
  run := fun k s =>
    let f := k.par 16 8
    if f < s.frameIndex then refuse s stBadParam 0x0A12
    else .long s fun m =>
      let m1 := { m with frame := { m.frame with runTo := some f } }
      if m1.inFrame then pauseAfter f m1 else m1 }

/-- `RESUME`: the ready note with the tick; the common tick follows R43. -/
def cResume : Cmd := {
  opcode := 0x32, allowed := [.held]
  run := fun k s =>
    let t := k.par 16 8
    if !s.tickOk t then refuse s stBadParam 0x0A11
    else if s.time.mtState != .locked then refuse s stRejected 0x0B08
    else .long s fun m =>
      checkLate (sendNote { m with frame := { m.frame with ownReady := some t } } 0x11 none (leBytes 8 m.holdFrame ++ leBytes 8 t)) }

/-! ### Time (R398, R419) -/

/-- `TIME_SET_UTC` (R398) (DEDUCED, log entries 56 and 94). -/
def cTimeSetUtc : Cmd := {
  opcode := 0x90, allowed := anyState
  run := fun k s =>
    let utc := k.par 16 8
    let off := k.par 24 2
    let atEdge := bit (k.par 26 1) 0
    if s.time.ptpEn then refuse s stBadState 0
    else if s.time.ppsWait.isSome then refuse s stBusy 0x0A04
    else if atEdge && utc % 1000000000 != 0 then refuse s stBadParam 0
    else if atEdge then .silent { s with time := { s.time with ppsWait := some (utc, off, k.seq) } }
    else
      let (m, r) := applyUtc s utc off
      if r = 0 then okWith m [] else refuse m stRejected r }

/-- The `TIME_STATUS` register (R401). -/
def State.timeStatusReg (s : State) : Nat :=
  s.reportedDepth * 2 ^ 24 + b2n s.time.utcOffsetValid * 512 + b2n s.time.root * 256 + timeCode s.time.ltState * 16 + timeCode s.time.mtState

/-- `TIME_STATUS` (R419). -/
def cTimeStatus : Cmd := {
  opcode := 0x91, allowed := anyState
  run := fun _ s =>
    okWith s (leBytes 4 s.timeStatusReg ++ leBytes 4 s.errNow ++ leBytes 8 s.now
      ++ leBytes 8 (if s.ltValid then wrap 64 s.localTime else 0) ++ leBytes 4 s.time.utcOffset ++ leBytes 4 (wrap 32 (s.time.lastTheta / 256))
      ++ leBytes 4 s.time.holdovers.toNat ++ leBytes 4 s.time.jumpsRefused.toNat) }

/-! ### The inventory, the certificate and replay (R357, R367, R373) -/

/-- The records held, oldest first: the ring's, then the buffer's. -/
def Inventory.held (i : Inventory) : List InvRec := i.ring ++ i.buffer

/-- The `SEQNO` of the oldest record held (R357). -/
def Inventory.oldest (i : Inventory) : Nat := match i.held with | r :: _ => r.seqno | [] => i.nextSeq.toNat

/-- Free the records below a number that were returned before. -/
def Inventory.free (i : Inventory) (ack : Nat) : Inventory :=
  let gone := fun (r : InvRec) => decide (r.seqno < ack) && r.read
  let ring := i.ring.filter (fun r => !gone r)
  let buffer := i.buffer.filter (fun r => !gone r)
  let acked := (i.held.filter gone).map (·.seqno)
  { i with
    ring, buffer, ringBytes := setBytes ring, bufBytes := setBytes buffer,
    larder := i.larder.map (fun r => if acked.contains r.seqno then { r with read := true } else r),
    recovered := i.recovered && (ring ++ buffer).any (fun r => bit r.flags 2) }

/-- Whole records up to a byte limit. -/
def fitRecords : Nat → List InvRec → List InvRec
  | _, [] => []
  | n, r :: t => if n < r.recLen then [] else r :: fitRecords (n - r.recLen) t

/-- Mark records as returned. -/
def markRead (seqs : List Nat) (l : List InvRec) : List InvRec := l.map (fun r => if seqs.contains r.seqno then { r with read := true } else r)

/-- `READ_INVENTORY` (R357). -/
def cReadInventory : Cmd := {
  opcode := 0x50, allowed := anyState
  run := fun k s =>
    let addr := k.par 16 8
    let lim := k.par 24 4
    let ack := k.par 32 8
    if addr % 64 ≠ 0 ∨ lim % 64 ≠ 0 ∨ lim < 64 ∨ 2 ^ 24 < lim ∨ s.inv.nextSeq.toNat < ack then refuse s stBadParam 0
    else
      let i := s.inv.free ack
      let from_ := Nat.max ack i.oldest
      let out := fitRecords lim (i.held.filter (fun r => decide (from_ ≤ r.seqno)))
      let seqs := out.map (·.seqno)
      let i2 := { i with ring := markRead seqs i.ring, buffer := markRead seqs i.buffer }
      let s1 := { s with inv := i2 }
      let s2 := if out.isEmpty then s1 else hostWrite s1 addr (out.flatMap InvRec.bytes)
      okWith s2 (leBytes 8 from_ ++ leBytes 4 out.length ++ leBytes 4 (setBytes out) ++ leBytes 8 i.nextSeq.toNat ++ s.chainVal
        ++ leBytes 8 i.oldest) }

/-- The bytes of a certificate. -/
def Cert.bytes (c : Cert) : List Byte := slice c.body 0 1024 ++ slice (c.signature.getD []) 0 3309

/-- Give a certificate to the host (DEDUCED, log entry 45). -/
def giveCertificate (s : State) (addr : Nat) : Option Cert → Verdict
  | some c => okWith (hostWrite s addr c.bytes) (hashH c.bytes ++ leBytes 1 c.ckind)
  | none => refuse s stBadState 0

/-- `GET_CERTIFICATE` (R373): the final certificate kept, or an interim one of a run. It is written when its signature is complete (R464). -/
def cGetCertificate : Cmd := {
  opcode := 0x52, allowed := anyState
  run := fun k s =>
    let kind := k.par 24 1
    if 1 < kind then refuse s stBadParam 0
    else if kind = 0 then
      let s1 := if s.inv.cert.isSome then signCertificates s else s
      giveCertificate s1 (k.par 16 8) s1.inv.cert
    else if s.dev = .running ∨ s.dev = .held ∨ s.dev = .replay then
      let s1 := signCertificates (interimCertificate s)
      giveCertificate s1 (k.par 16 8) s1.inv.interim
    else refuse s stBadState 0 }

/-! ### The rows -/

/-- PING. -/
def execPing (k : Packet) (s : State) : Out := hostCommand cPing k s
/-- IDENTIFY. -/
def execIdentify (k : Packet) (s : State) : Out := hostCommand cIdentify k s
/-- NEGOTIATE. -/
def execNegotiate (k : Packet) (s : State) : Out := hostCommand cNegotiate k s
/-- SET_MODE. -/
def execSetMode (k : Packet) (s : State) : Out := hostCommand cSetMode k s
/-- START. -/
def execStart (k : Packet) (s : State) : Out := hostCommand cStart k s
/-- HOLD. -/
def execHold (k : Packet) (s : State) : Out := hostCommand cHold k s
/-- RESUME. -/
def execResume (k : Packet) (s : State) : Out := hostCommand cResume k s
/-- ABORT. -/
def execAbort (k : Packet) (s : State) : Out := hostCommand cAbort k s
/-- RUN_TO_FRAME. -/
def execRunToFrame (k : Packet) (s : State) : Out := hostCommand cRunToFrame k s
/-- ADMIT_STREAM. -/
def execAdmitStream (k : Packet) (s : State) : Out := hostCommand cAdmit k s
/-- RETIRE_STREAM. -/
def execRetireStream (k : Packet) (s : State) : Out := hostCommand cRetire k s
/-- STREAM_STATUS. -/
def execStreamStatus (k : Packet) (s : State) : Out := hostCommand cStreamStatus k s
/-- READ_INVENTORY. -/
def execReadInventory (k : Packet) (s : State) : Out := hostCommand cReadInventory k s
/-- GET_CERTIFICATE. -/
def execGetCertificate (k : Packet) (s : State) : Out := hostCommand cGetCertificate k s
/-- TIME_SET_UTC. -/
def execTimeSetUtc (k : Packet) (s : State) : Out := hostCommand cTimeSetUtc k s
/-- TIME_STATUS. -/
def execTimeStatus (k : Packet) (s : State) : Out := hostCommand cTimeStatus k s

end Sys2Proof.Machine
end

