-- ==== Sys2Proof/Machine/LoadRows.lean ====
section
/-! DEFINITION. LOAD_TIMETABLE (R23, R143, R179, R229, R302, R306, R349). -/

namespace Sys2Proof.Machine

open Sys2Proof

/-! ### Zone digests (R349) -/

/-- H of the 64 KiB unit at a device address. -/
def State.unitDigest (s : State) (da : Nat) : List Byte := hashH (s.cellarRead da binBytes)

/-- The digest of a zone that begins at an address: over its units, without those of the ring and of the reservation. -/
def State.zoneDigest (s : State) (base n reserve : Nat) : List Byte :=
  hashH ((List.range (n / binBytes)).flatMap fun i =>
    let da := base + binBytes * i
    if da < s.ringSize ∨ s.populated - reserve ≤ da then [] else s.unitDigest da)

/-- The zones with their first addresses. -/
def zoneBases : Nat → List Zone → List (Nat × Zone)
  | _, [] => []
  | b, z :: t => (b, z) :: zoneBases (b + zoneBytes z) t

/-- The digests of the zones in ascending order. -/
def State.zoneDigests (s : State) (reserve : Nat) : List (List Byte) :=
  (zoneBases 0 s.cellar.zones).map (fun e => s.zoneDigest e.1 (zoneBytes e.2) reserve)

/-- The content of a `CELLAR_BASE` record. -/
def State.cellarBase (s : State) (reserve : Nat) : List Byte :=
  (s.zoneDigests reserve).zipIdx.flatMap (fun e => leBytes 4 e.2 ++ zeros 4 ++ e.1)

/-! ### Writing the timetable -/

/-- A core of the image: every field of its section, and zero elsewhere (R97, R143). -/
def CoreSect.core (c : CoreSect) : Core :=
  let shelf := (c.segs.filter (fun g => !g.attic)).foldl (fun m g => writeBytes m g.offset g.bytes) []
  let attic := (c.segs.filter (fun g => g.attic)).foldl (fun m g => writeBytes m g.offset g.bytes) []
  { section_ := true, group := BitVec.ofNat 15 c.group, owner := c.owner, entries := c.entries, setters := c.setters, afmap := c.afmap,
    flows := c.flows, shelf, attic, code := c.code,
    sregs := (List.range 31).foldl (fun m i => spSet 0 m (i + 1) (c.sinit.getD (i + 1) 0)) [],
    tiles := (List.range 4).foldl (fun m i => spSet {} m i (({} : Tile).setControl (c.tileinit.getD i 0))) [] }

/-- The seeds of the regions that a variant uses (R283). -/
def seedsOf (v : VariantRec) (l : List (Nat × GenCtx)) : List (Nat × GenCtx) :=
  l.filter (fun e => decide (e.1 / 16 % 16 < v.need (e.1 / 16 / 16)))

/-- The job entries of a version from table set 0, beside the transit entries. -/
def Image.version0 (i : Image) (ttx : List TEntry) (txbar : List XEntry) : TableVersion :=
  match i.sets.find? (fun t => t.index == 0) with
  | some t => { tx := t.tx, ttx, xbar := t.xbar, txbar, landing := t.landing, set := some 0 }
  | none => { ttx, txbar, set := some 0 }

/-- The epoch of a load names every port that is `UP` (R201, R271; log entry 91). -/
def nameUp (s : State) : State :=
  s.portList.foldl (fun m p => m.modPort p fun q => { q with named := q.named || q.state == .up }) s

/-- The tables: set 0 in version A, which becomes active; any transit plan in both versions (R229) (DEDUCED, log entry 44). -/
def loadTables (s : State) (i : Image) : State :=
  let v := s.activeVersion
  nameUp { s with
    verA := i.version0 v.ttx v.txbar, verB := { ttx := v.ttx, txbar := v.txbar }, land := [], landQueue := [],
    fabric := { s.fabric with
      frameRounds := i.frameRounds, budget := i.budget, frameIndex := 0, curCycle := 0, active := false, writable := true, writing := none,
      staged := none, ticksSinceFlip := 0, flipRound := none, union := [], announced := [], detourSet := none, flippedUnion := none } }

/-- Load an image: cores, contexts, tables, areas, programs, streams (R143, R229, R330, R337). -/
def loadImage (s : State) (c : Crate) (v : VariantRec) (p : Placement) (i : Image) : State :=
  let s1 := clearStreams (loadTables s i)
  let s2 := { s1 with
    cores := i.cores.foldl (fun m (x : CoreSect) => spSet {} m x.lcore x.core) [], contexts := seedsOf v i.seeds, pathUses := [],
    freeze := {}, frame := { e := i.e },
    hatch := { s1.hatch with areas := i.areas, journal := [], journalBytes := 0, withheld := [], requests := [], dirtyPages := [] },
    cellar := { s1.cellar with
      windowOpen := false,
      ctls := i.programs.foldl (fun m (e : Nat × List (List DWord)) => spModify {} m e.1 (fun x => { x with programs := e.2 }))
        (spMap {} (fun x => { x with programs := [] }) s1.cellar.ctls) },
    mgmt := { s1.mgmt with loadedImage := some i } }
  { s2 with streams := { s2.streams with
      positions := if c.streams then v.batch else 0, nclass := if c.streams then s2.classCount else 0, freeOrder := p.binOrder } }

/-! ### LOAD_TIMETABLE -/

/-- The refusal of `LOAD_TIMETABLE` with its location, none where it is accepted (R23, R199, R206, R259, R302, R305, R306) (DEDUCED, log entries 60
and 70). -/
def loadFault (s : State) (c : Crate) (i : Image) : Option (Nat × Location) :=
  firstFault [
    faultIf (!i.fit || s.mgmt.verifiedSettings != s.settingsInForce.digest || i.inputDigest != s.inputDigest
      || i.guardPm != s.fabric.guardPm || i.crateDigest != c.digest) 0x070A {},
    faultIf (s.clock.mode != i.mode) 0x070C {},
    faultIf (!shapeMet s c) 0x0922 { detail := s.fabric.slice },
    (let r := bindingReason s i; faultIf (r != 0) r {}),
    tablesFault s c i,
    portsFault s c i]

/-- The crate, the placement, and its variant and image, where all are there (R23). -/
def State.toLoad (s : State) : Option (Crate × Placement × VariantRec × Image) :=
  match s.mgmt.crate, s.mgmt.placed with
  | some c, some p => match c.variants.find? (fun v => v.index == p.variant), s.imageOf p.variant with
    | some v, some i => if s.mgmt.verified then some (c, p, v, i) else none
    | _, _ => none
  | _, _ => none

/-- The end of `LOAD_TIMETABLE` (DEDUCED, log entry 70). -/
def finishLoad (s : State) : State × Final :=
  match s.toLoad with
  | none => (s, rejectAt 0x070A {})
  | some (c, p, v, i) =>
    match loadFault s c i with
    | some (r, l) => (s, rejectAt r { l with variant := p.variant })
    | none =>
      let s1 := record s 8 ones64 0 s.cellar.zones.length (s.cellarBase c.reserve)
      (setDev (loadImage s1 c v p i) .loaded, stOk, 0, resAt 24 (slice i.digest 0 64 ++ leBytes 1 i.variant))

/-- `LOAD_TIMETABLE`. -/
def cLoadTimetable : Cmd := { opcode := 0x23, allowed := [.idle], single := true, run := fun _ s => .long s id }

/-- LOAD_TIMETABLE: it ends with LONG_COMMAND_DONE. -/
def execLoadTimetable (k : Packet) (s : State) : Out := hostCommand cLoadTimetable k s

end Sys2Proof.Machine
end

