-- ==== Sys2Proof/Machine/Sequencer.lean ====
section
/-! DEFINITION. The sequencer's instructions (R121 to R125, R134): control, scalar arithmetic, the shelf, flags,
predicates and generator contexts. -/

namespace Sys2Proof.Machine

open Sys2Proof

/-! ### Control (R74 to R77, R122, R124) -/

/-- NOP: nothing for one cycle (R122). -/
def execNop (c : Nat) (s : State) : Out := onCore c s fun s => seqRun c s noForm fun _ k => .ok { core := k }

/-- FRAME_END: the sequencer issues nothing more in the frame (R53). -/
def execFrameEnd (c : Nat) (s : State) : Out :=
  onCore c s fun s => seqRun c s noForm fun _ k => .ok { core := { k with ended := true } }

/-- The opcode of a code-shelf word (R121). -/
def Core.opcodeAt (k : Core) (a : Nat) : Nat := (spGet 0 k.code a).toNat / 2 ^ 56

/-- The checks of a LOOP (R77, R122, R124). -/
def loopForm (len cnt : Nat) (k : Core) (skipped : Bool) : Res Unit := do
  if 4 ≤ k.loops.length && !skipped then throw { reason := 0x0302 }
  if lastWord < k.pc + len then throw { reason := 0x0306, detail := k.pc + len }
  if len = 0 ∨ 1535 < len then throw { reason := 0x0307, detail := len }
  if cnt = 0 ∨ 65535 < cnt then throw { reason := 0x0307, detail := cnt }
  let o := k.opcodeAt (k.pc + len)
  if 1 ≤ o ∧ o ≤ 7 then throw { reason := 0x0309, detail := k.pc + len }

/-- LOOP: the `len` words that follow execute `cnt` times (R74) (DEDUCED, log entry 23). -/
def execLoop (c len cnt : Nat) (s : State) : Out :=
  onCore c s fun s => seqRun c s (loopForm len cnt) fun _ k =>
    .ok { core := { k with loops := { first := k.pc + 1, last := k.pc + len, left := cnt - 1 } :: k.loops } }

/-- The checks of a BRB (R122, R126) (DEDUCED, log entry 23). -/
def brbForm (len tgt cnt : Nat) (k : Core) (_ : Bool) : Res Unit := do
  if lastWord < k.pc + len then throw { reason := 0x0306, detail := k.pc + len }
  if lastWord + 1 < tgt + cnt ∨ lastWord < tgt then throw { reason := 0x0306, detail := tgt + cnt - 1 }
  if len = 0 ∨ 1024 < len then throw { reason := 0x0307, detail := len }
  if cnt = 0 ∨ 1024 < cnt then throw { reason := 0x0307, detail := cnt }

/-- BRB: the first arm if the condition is zero, otherwise the second (R75). The new arm opens after the checks of the arms
that enclose the BRB, so it is put in front by the issue of its first word. -/
def execBrb (c : Nat) (cond : Fin 32) (len tgt cnt : Nat) (s : State) : Out :=
  onCore c s fun s => seqRun c s (brbForm len tgt cnt) fun _ k => do
    let v ← k.readS cond k.cyc
    let rejoin := k.pc + len + 1
    let depth := k.rets.length
    if v = 0 then
      let outer ← leaveArms k.pc (k.pc + 1) .other false depth k.arms
      return { core := { k with arms := { second := false, first := k.pc + 1, last := k.pc + len, rejoin, depth } :: outer } }
    else
      let outer ← leaveArms k.pc tgt .other false depth k.arms
      return { core := { k with arms := { second := true, first := tgt, last := tgt + cnt - 1, rejoin, depth } :: outer },
               next := some tgt, exit := .other }

/-- The check of a target (R126). -/
def targetForm (tgt : Nat) (_ : Core) (_ : Bool) : Res Unit :=
  if lastWord < tgt then .error { reason := 0x0306, detail := tgt } else .ok ()

/-- JMP: continues at the target (R122). -/
def execJmp (c tgt : Nat) (s : State) : Out :=
  onCore c s fun s => seqRun c s (targetForm tgt) fun _ k => .ok { core := k, next := some tgt, exit := .jmp }

/-- The words of the range of a SKIP that it must not contain (R124): the last word of a loop body, active or in the range, and the `JMP` that ends a
second arm (DEDUCED, log entry 23). -/
def skipEnds (k : Core) (len : Nat) : List Nat :=
  let inner := (List.range len).flatMap fun i =>
    let a := k.pc + 1 + i
    let w := (spGet 0 k.code a).toNat
    if w / 2 ^ 56 = 2 then [a + bits w 50 40]
    else if w / 2 ^ 56 = 3 then [bits w 26 16 + bits w 15 0 - 1]
    else []
  k.loops.map (·.last) ++ (k.arms.filter (·.second)).map (·.last) ++ inner

/-- The checks of a SKIP (R122, R124). -/
def skipForm (len : Nat) (k : Core) (_ : Bool) : Res Unit := do
  if lastWord < k.pc + len then throw { reason := 0x0306, detail := k.pc + len }
  if len = 0 ∨ 64 < len then throw { reason := 0x0307, detail := len }
  match (skipEnds k len).find? (fun a => decide (k.pc < a) && decide (a ≤ k.pc + len)) with
  | some a => throw { reason := 0x0309, detail := a }
  | none => return ()

/-- SKIP: if the condition is not zero, the next `len` instructions issue without effect (R76) (DEDUCED, log entry 23). -/
def execSkip (c : Nat) (cond : Fin 32) (len : Nat) (s : State) : Out :=
  onCore c s fun s => seqRun c s (skipForm len) fun _ k => do
    let v ← k.readS cond k.cyc
    return { core := if v = 0 then k else { k with skip := len } }

/-- The checks of a CALL (R77, R126). -/
def callForm (tgt : Nat) (k : Core) (skipped : Bool) : Res Unit := do
  if 8 ≤ k.rets.length && !skipped then throw { reason := 0x0302 }
  if lastWord < tgt then throw { reason := 0x0306, detail := tgt }

/-- CALL: pushes the address of the next word and continues at the target (R77) (DEDUCED, log entry 23). -/
def execCall (c tgt : Nat) (s : State) : Out :=
  onCore c s fun s => seqRun c s (callForm tgt) fun _ k =>
    .ok { core := { k with rets := (k.pc + 1) :: k.rets }, next := some tgt, exit := .other }

/-- The check of a RET (R77). -/
def retForm (k : Core) (skipped : Bool) : Res Unit :=
  if k.rets.isEmpty && !skipped then .error { reason := 0x0302 } else .ok ()

/-- RET: pops the return stack and continues there (R77) (DEDUCED, log entry 23). -/
def execRet (c : Nat) (s : State) : Out :=
  onCore c s fun s => seqRun c s retForm fun _ k =>
    .ok { core := { k with rets := k.rets.tail }, next := some (k.rets.headD 0), exit := .other }

/-! ### Scalar arithmetic (R122, R134) -/

/-- `RD := f (RA, RB)`, ready `lat` cycles after the issue. -/
def scalarR (f : Word → Word → Word) (lat : Nat) (rd ra rb : Nat) (s : State) (k : Core) : Res SeqEff := do
  let a ← k.readS ra k.cyc
  let b ← k.readS rb k.cyc
  let k' ← k.writeS s.frame.e rd (f a b) (k.cyc + lat) 0 k.pc
  return { core := k' }

/-- `RD := f (RA, IMM)`, ready `lat` cycles after the issue. -/
def scalarI (f : Word → Word → Word) (lat : Nat) (rd ra : Nat) (imm : Word) (s : State) (k : Core) : Res SeqEff := do
  let a ← k.readS ra k.cyc
  let k' ← k.writeS s.frame.e rd (f a imm) (k.cyc + lat) 0 k.pc
  return { core := k' }

/-- The shift amount: bits [4:0] (R122). -/
def shamt (b : Word) : Nat := b.toNat % 32

/-- Left shift. -/
def shl32 (a b : Word) : Word := a <<< shamt b

/-- Logical right shift. -/
def shr32 (a b : Word) : Word := a >>> shamt b

/-- Arithmetic right shift. -/
def sra32 (a b : Word) : Word := a.sshiftRight (shamt b)

/-- The high 32 bits of the unsigned product. -/
def mulhu32 (a b : Word) : Word := BitVec.ofNat 32 (a.toNat * b.toNat / 2 ^ 32)

/-- The signed minimum. -/
def min32 (a b : Word) : Word := if a.toInt ≤ b.toInt then a else b

/-- The signed maximum. -/
def max32 (a b : Word) : Word := if a.toInt ≤ b.toInt then b else a

/-- 1 if less as signed values. -/
def slt32 (a b : Word) : Word := if a.toInt < b.toInt then 1 else 0

/-- 1 if less as unsigned values. -/
def sltu32 (a b : Word) : Word := if a.toNat < b.toNat then 1 else 0

/-- 1 if equal. -/
def seq32 (a b : Word) : Word := if a = b then 1 else 0

/-- A command of form R that computes a scalar. -/
def aluR (f : Word → Word → Word) (lat c : Nat) (rd ra rb : Fin 32) (s : State) : Out :=
  onCore c s fun s => seqRun c s noForm (scalarR f lat rd ra rb)

/-- A command of form I that computes a scalar. -/
def aluI (f : Word → Word → Word) (lat c : Nat) (rd ra : Fin 32) (imm : Word) (s : State) : Out :=
  onCore c s fun s => seqRun c s noForm (scalarI f lat rd ra imm)

/-- ADD (R122). -/
def execAdd (c : Nat) (rd ra rb : Fin 32) (s : State) : Out := aluR (· + ·) 1 c rd ra rb s

/-- SUB (R122). -/
def execSub (c : Nat) (rd ra rb : Fin 32) (s : State) : Out := aluR (· - ·) 1 c rd ra rb s

/-- AND (R122). -/
def execAnd (c : Nat) (rd ra rb : Fin 32) (s : State) : Out := aluR (· &&& ·) 1 c rd ra rb s

/-- OR (R122). -/
def execOr (c : Nat) (rd ra rb : Fin 32) (s : State) : Out := aluR (· ||| ·) 1 c rd ra rb s

/-- XOR (R122). -/
def execXor (c : Nat) (rd ra rb : Fin 32) (s : State) : Out := aluR (· ^^^ ·) 1 c rd ra rb s

/-- SHL (R122). -/
def execShl (c : Nat) (rd ra rb : Fin 32) (s : State) : Out := aluR shl32 1 c rd ra rb s

/-- SHR (R122). -/
def execShr (c : Nat) (rd ra rb : Fin 32) (s : State) : Out := aluR shr32 1 c rd ra rb s

/-- SRA (R122). -/
def execSra (c : Nat) (rd ra rb : Fin 32) (s : State) : Out := aluR sra32 1 c rd ra rb s

/-- MUL: the low 32 bits of the product, ready after 3 cycles (R122, R134). -/
def execMul (c : Nat) (rd ra rb : Fin 32) (s : State) : Out := aluR (· * ·) 3 c rd ra rb s

/-- MULHU: the high 32 bits of the unsigned product, ready after 3 cycles (R122, R134). -/
def execMulhu (c : Nat) (rd ra rb : Fin 32) (s : State) : Out := aluR mulhu32 3 c rd ra rb s

/-- MIN (R122). -/
def execMin (c : Nat) (rd ra rb : Fin 32) (s : State) : Out := aluR min32 1 c rd ra rb s

/-- MAX (R122). -/
def execMax (c : Nat) (rd ra rb : Fin 32) (s : State) : Out := aluR max32 1 c rd ra rb s

/-- SLT (R122). -/
def execSlt (c : Nat) (rd ra rb : Fin 32) (s : State) : Out := aluR slt32 1 c rd ra rb s

/-- SLTU (R122). -/
def execSltu (c : Nat) (rd ra rb : Fin 32) (s : State) : Out := aluR sltu32 1 c rd ra rb s

/-- SEQ (R122). -/
def execSeq (c : Nat) (rd ra rb : Fin 32) (s : State) : Out := aluR seq32 1 c rd ra rb s

/-- CSEL: `RD := RA` if `RB ≠ 0`; `RD` is read as a source (R122). -/
def execCsel (c : Nat) (rd ra rb : Fin 32) (s : State) : Out :=
  onCore c s fun s => seqRun c s noForm fun s k => do
    let a ← k.readS ra k.cyc
    let b ← k.readS rb k.cyc
    let d ← k.readS rd k.cyc
    let k' ← k.writeS s.frame.e rd (if b = 0 then d else a) (k.cyc + 1) 0 k.pc
    return { core := k' }

/-- ADDI (R122). -/
def execAddi (c : Nat) (rd ra : Fin 32) (imm : Word) (s : State) : Out := aluI (· + ·) 1 c rd ra imm s

/-- ANDI (R122). -/
def execAndi (c : Nat) (rd ra : Fin 32) (imm : Word) (s : State) : Out := aluI (· &&& ·) 1 c rd ra imm s

/-- ORI (R122). -/
def execOri (c : Nat) (rd ra : Fin 32) (imm : Word) (s : State) : Out := aluI (· ||| ·) 1 c rd ra imm s

/-- XORI (R122). -/
def execXori (c : Nat) (rd ra : Fin 32) (imm : Word) (s : State) : Out := aluI (· ^^^ ·) 1 c rd ra imm s

/-- SHLI (R122). -/
def execShli (c : Nat) (rd ra : Fin 32) (imm : Word) (s : State) : Out := aluI shl32 1 c rd ra imm s

/-- SHRI (R122). -/
def execShri (c : Nat) (rd ra : Fin 32) (imm : Word) (s : State) : Out := aluI shr32 1 c rd ra imm s

/-- SRAI (R122). -/
def execSrai (c : Nat) (rd ra : Fin 32) (imm : Word) (s : State) : Out := aluI sra32 1 c rd ra imm s

/-- MULI: ready after 3 cycles (R122, R134). -/
def execMuli (c : Nat) (rd ra : Fin 32) (imm : Word) (s : State) : Out := aluI (· * ·) 3 c rd ra imm s

/-- LI: `RD := IMM` (R122). -/
def execLi (c : Nat) (rd : Fin 32) (imm : Word) (s : State) : Out :=
  onCore c s fun s => seqRun c s noForm fun s k => do
    let k' ← k.writeS s.frame.e rd imm (k.cyc + 1) 0 k.pc
    return { core := k' }

/-! ### The shelf (R63, R123) -/

/-- The check of a shelf word access (R63, R123), lowest code first (R140) (DEDUCED, log entry 83). -/
def chkWordAccess (addr align : Nat) (based : Bool) (bankm : Byte) : Res Unit :=
  if based && !bit bankm.toNat (addr / 32 % 8) then .error { reason := 0x0401, object := obj 7 (addr / 32 % 8), detail := addr }
  else if 0xBFFF < addr then .error { reason := 0x0404, detail := addr }
  else if addr % align ≠ 0 then .error { reason := 0x0405, detail := addr }
  else .ok ()

/-- The use of a shelf bank by the sequencer in cycle `t`. -/
def seqUse (k : Core) (addr t : Nat) : List (BankUse × Nat) :=
  [({ cycle := t, bank := addr / 32 % 8, unit := 0, pc := k.pc, addr := addr / 32 * 32 }, addr)]

/-- LDS: `RD :=` the shelf word at `RA + IMM[15:0]`, accessed at t + 1 and ready at t + 2 (R122, R134). -/
def execLds (c : Nat) (rd ra : Fin 32) (bankm : Byte) (imm : Word) (s : State) : Out :=
  onCore c s fun s => seqRun c s noForm fun s k => do
    let a ← k.readS ra k.cyc
    let addr := (a.toNat + imm.toNat % 65536) % 2 ^ 32
    k.chkWrite 0 rd (k.cyc + 2)
    chkSpill s.frame.e (k.cyc + 2) (obj 0 rd)
    chkWordAccess addr 4 (ra ≠ 0) bankm
    let v := BitVec.ofNat 32 (ofLe (k.load .shelf addr 4 (k.cyc + 1)))
    return { core := (k.setSreg rd v).setTag 0 rd (k.cyc + 2) 0 k.pc, uses := seqUse k addr (k.cyc + 1) }

/-- STS: the shelf word at `RA + IMM[15:0] := RD`, written at t + 1 and readable at t + 2 (R122, R134). -/
def execSts (c : Nat) (rd ra : Fin 32) (bankm : Byte) (imm : Word) (s : State) : Out :=
  onCore c s fun s => seqRun c s noForm fun s k => do
    let a ← k.readS ra k.cyc
    let v ← k.readS rd k.cyc
    let addr := (a.toNat + imm.toNat % 65536) % 2 ^ 32
    chkSpill s.frame.e (k.cyc + 2) 0
    chkWordAccess addr 4 (ra ≠ 0) bankm
    let p : Pending := { unit := 0, pc := k.pc, ready := k.cyc + 2,
                         writes := [{ space := .shelf, core := c, addr, bytes := leBytes 4 v.toNat }] }
    return { core := { k with pend := k.pend ++ [p] }, uses := seqUse k addr (k.cyc + 1) }

/-- RDID: `RD :=` the core identity word (R60). -/
def execRdid (c : Nat) (rd : Fin 32) (s : State) : Out :=
  onCore c s fun s => seqRun c s noForm fun s k => do
    let k' ← k.writeS s.frame.e rd (BitVec.ofNat 32 (c * 2 ^ 15 + k.group.toNat)) (k.cyc + 1) 0 k.pc
    return { core := k' }

/-- The control word of a tile (R97). -/
def Tile.control (t : Tile) : Word :=
  BitVec.ofNat 32 (t.wexp.toNat + t.h.toNat * 2 ^ 16 + b2n t.ovfEn * 2 ^ 22 + b2n t.ovf * 2 ^ 23)

/-- TGET: `RD :=` the control word of tile `IMM[1:0]`, ready at t + 2 (R97, R134). -/
def execTget (c : Nat) (rd : Fin 32) (imm : Word) (s : State) : Out :=
  onCore c s fun s => seqRun c s noForm fun s k => do
    let t ← k.readT (imm.toNat % 4) k.cyc
    let k' ← k.writeS s.frame.e rd t.control (k.cyc + 2) 0 k.pc
    return { core := k' }

/-! ### Flags (R78 to R81, R134) -/

/-- WAITF: a wait on sync flag `IMM[5:0]`, which `IMM[6]` clears when found set. A clear flag raises a freeze request, and the sequencer waits at the
instruction (R79) (DEDUCED, log entry 21). -/
def execWaitf (c : Nat) (imm : Word) (s : State) : Out :=
  onCore c s fun s =>
    let f := imm.toNat % 64
    if !s.canIssue c || ((s.core c).waitFlag.isSome && (s.core c).waitFlag != some f) then s else
    let s0 := s.setCore c { s.core c with waitFlag := none }
    let t := (s.core c).cyc
    let s1 := settle s0 c t
    let k := s1.core c
    if k.halted || decide (0 < k.skip) || k.flagSeen f t || decide (lastWord < k.pc) ||
        decide (t < (k.tag 6 (k.pc / 96)).ready) then
      seqRun c s0 noForm fun _ k =>
        .ok { core := if k.flagSeen f k.cyc && bit imm.toNat 6 then k.clearFlag f else k }
    else requestFreeze (s1.setCore c { k with waitFlag := some f }) c 0 false f t k.pc

/-- SETF: sets sync flag `IMM[5:0]` at t + 1 (R78, R134). -/
def execSetf (c : Nat) (imm : Word) (s : State) : Out :=
  onCore c s fun s => seqRun c s noForm fun s k => do
    chkSpill s.frame.e (k.cyc + 1) (obj 4 (imm.toNat % 64))
    return { core := { k with pend := k.pend ++ [{ unit := 0, pc := k.pc, ready := k.cyc + 1, flag := some (imm.toNat % 64) }] } }

/-- CLRF: clears sync flag `IMM[5:0]` at t + 1 (R134). -/
def execClrf (c : Nat) (imm : Word) (s : State) : Out :=
  onCore c s fun s => seqRun c s noForm fun _ k =>
    .ok { core := { k with pend := k.pend ++ [{ unit := 0, pc := k.pc, ready := k.cyc + 1, clearFlag := some (imm.toNat % 64) }] } }

/-- CHKA: tests arrival flag `IMM[5:0]`; a clear flag raises a freeze request, and the cycles up to the held index go on (R34, R81) (DEDUCED, log
entry 21). -/
def execChka (c : Nat) (imm : Word) (s : State) : Out :=
  onCore c s fun s => seqRun c s noForm fun _ k =>
    .ok { core := k, request := if k.arrived (imm.toNat % 64) then none else some (imm.toNat % 64) }

/-- CLRA: clears arrival flag `IMM[5:0]` at t + 1 (R81, R134). -/
def execClra (c : Nat) (imm : Word) (s : State) : Out :=
  onCore c s fun s => seqRun c s noForm fun _ k =>
    .ok { core := { k with pend := k.pend ++ [{ unit := 0, pc := k.pc, ready := k.cyc + 1, clearArrival := some (imm.toNat % 64) }] } }

/-! ### Predicates and generator contexts (R122, R125) -/

/-- PSET: `p(RD[2:0]) := RA[15:0]`; `RD` here is the field (R122). -/
def execPset (c : Nat) (rd ra : Fin 32) (s : State) : Out :=
  onCore c s fun s => seqRun c s noForm fun s k => do
    let a ← k.readS ra k.cyc
    let p := rd.val % 8
    k.chkWrite 2 p (k.cyc + 1)
    chkSpill s.frame.e (k.cyc + 1) (obj 2 p)
    return { core := (k.setPreg p (a.setWidth 16)).setTag 2 p (k.cyc + 1) 0 k.pc }

/-- PGET: `RD := p(RA[2:0])`, zero-extended (R122). -/
def execPget (c : Nat) (rd ra : Fin 32) (s : State) : Out :=
  onCore c s fun s => seqRun c s noForm fun s k => do
    let v ← k.readP (ra.val % 8) k.cyc
    let k' ← k.writeS s.frame.e rd (v.setWidth 32) (k.cyc + 1) 0 k.pc
    return { core := k' }

/-- The key of a generator context of the region of a core (R116). -/
def ctxKey (c n : Nat) : Nat := c / 1280 * 16 + n

/-- The check of R125: only the context owner of the region may issue. -/
def ownerForm (imm : Word) (k : Core) (_ : Bool) : Res Unit :=
  if k.owner then .ok () else .error { reason := 0x0308, object := obj 11 (imm.toNat % 16) }

/-- GLOAD: context `IMM[3:0]` := the 16-byte seed and 8-byte step counter at the 32-byte-aligned shelf address `RA`, ready at t + 3 (R122, R125, R134)
(DEDUCED, log entry 24). -/
def execGload (c : Nat) (ra : Fin 32) (bankm : Byte) (imm : Word) (s : State) : Out :=
  onCore c s fun s => seqRun c s (ownerForm imm) fun s k => do
    let a ← k.readS ra k.cyc
    let n := imm.toNat % 16
    chkSpill s.frame.e (k.cyc + 3) (obj 11 n)
    chkWordAccess a.toNat 32 (ra ≠ 0) bankm
    let b := k.load .shelf a.toNat 24 (k.cyc + 1)
    let g : GenCtx := { seed := BitVec.ofNat 128 (ofLe (b.take 16)), step := BitVec.ofNat 64 (ofLe (b.drop 16)), ready := k.cyc + 3 }
    return { core := k, uses := seqUse k a.toNat (k.cyc + 1), ctx := some (ctxKey c n, g) }

/-- GSTEP: the step counter of context `IMM[3:0]` grows by `RA`, modulo 2^64, ready at t + 2 (R122, R125, R134) (DEDUCED, log entry 24). -/
def execGstep (c : Nat) (ra : Fin 32) (imm : Word) (s : State) : Out :=
  onCore c s fun s => seqRun c s (ownerForm imm) fun s k => do
    let a ← k.readS ra k.cyc
    let n := imm.toNat % 16
    chkSpill s.frame.e (k.cyc + 2) (obj 11 n)
    let g := spGet {} s.contexts (ctxKey c n)
    return { core := k, ctx := some (ctxKey c n, { g with step := g.step + a.setWidth 64, ready := k.cyc + 2 }) }

/-- The opcodes of the sequencer table (R122). -/
def knownOpcode (o : Nat) : Bool :=
  decide (o ≤ 0x07) || (decide (0x10 ≤ o) && decide (o ≤ 0x20)) || (decide (0x22 ≤ o) && decide (o ≤ 0x29)) ||
  (decide (0x30 ≤ o) && decide (o ≤ 0x33)) || (decide (0x40 ≤ o) && decide (o ≤ 0x46)) || o == 0x50 || o == 0x51 || o == 0x60

/-- ILLEGAL_OPCODE: an opcode that the table does not list raises 0x0303 at issue (R122); a listed one is no such event. -/
def execIllegalOpcode (c : Nat) (opc : Byte) (s : State) : Out :=
  onCore c s fun s =>
    if knownOpcode opc.toNat then s
    else seqRun c s (fun _ _ => .error { reason := 0x0303, detail := opc.toNat }) fun _ k => .ok { core := k }

end Sys2Proof.Machine
end

