-- ==== Sys2Proof/Machine/Checkpoint.lean ====
section
/-! DEFINITION. Checkpoints (R363 to R366) and the beginning of a replay (R367 to R369). R364 names the contents of a checkpoint's sections and not
their layout, which log entry 17 fixes. -/

namespace Sys2Proof.Machine

open Sys2Proof

/-! ### The sections of a checkpoint (R364) -/

/-- A tile: values, tags and control word, 1,092 bytes. -/
def tileBytes (t : Tile) : List Byte :=
  (List.range 64).flatMap (fun i => leBytes 16 (t.entry i).toNat) ++ (List.range 64).flatMap (fun i => leBytes 1 (t.tagOf i).toNat)
    ++ leBytes 4 t.control.toNat

/-- The tile of 1,092 bytes. -/
def readTile (b : List Byte) : Tile :=
  let w := le b 1088 4
  { acc := (List.range 64).foldl (fun m i => spSet 0 m i (BitVec.ofNat 128 (le b (16 * i) 16))) [],
    tags := (List.range 64).foldl (fun m i => spSet 0 m i (BitVec.ofNat 2 (le b (1024 + i) 1))) [],
    wexp := BitVec.ofNat 16 w, h := BitVec.ofNat 6 (bits w 21 16), ovf := bit w 23, ovfEn := bit w 22 }

/-- The bytes of one core in a `CORE` section (DESIGN CHOICE, log entry 17). -/
def coreBytes : Nat := 166456

/-- A core: its number, scalars, vectors, predicates, tiles, arrival flags and stacks, then shelf, code shelf and attic slice. -/
def Core.image (c : Nat) (k : Core) : List Byte :=
  leBytes 4 c ++ (List.range 32).flatMap (fun i => leBytes 4 (spGet 0 k.sregs i).toNat)
    ++ (List.range 64).flatMap (fun i => leBytes 32 (spGet 0 k.vregs i).toNat) ++ (List.range 8).flatMap (fun i => leBytes 2 (spGet 0 k.pregs i).toNat)
    ++ (List.range 4).flatMap (fun i => tileBytes (spGet {} k.tiles i)) ++ (List.range 64).flatMap (fun i => leBytes 1 (b2n (spGet false k.aflags i)))
    ++ leBytes 1 k.loops.length ++ slice (k.loops.flatMap (fun l => leBytes 2 l.first ++ leBytes 2 l.last ++ leBytes 2 l.left)) 0 48
    ++ leBytes 1 k.rets.length ++ slice (k.rets.flatMap (leBytes 2)) 0 34
    ++ readBytes k.shelf 0 0xC000 ++ (List.range 1536).flatMap (fun i => leBytes 8 (spGet 0 k.code i).toNat) ++ readBytes k.attic 0 0x18000

/-- The captured fields of a core of the loaded timetable. -/
def Core.restored (k : Core) (b : List Byte) (withCode : Bool) : Core :=
  { k with
    sregs := (List.range 32).foldl (fun m i => spSet 0 m i (BitVec.ofNat 32 (le b (4 + 4 * i) 4))) [],
    vregs := (List.range 64).foldl (fun m i => spSet 0 m i (BitVec.ofNat 256 (le b (132 + 32 * i) 32))) [],
    pregs := (List.range 8).foldl (fun m i => spSet 0 m i (BitVec.ofNat 16 (le b (2180 + 2 * i) 2))) [],
    tiles := (List.range 4).foldl (fun m i => spSet {} m i (readTile (slice b (2196 + 1092 * i) 1092))) [],
    aflags := (List.range 64).foldl (fun m i => spSet false m i (le b (6564 + i) 1 == 1)) [],
    loops := (List.range (le b 6628 1)).map (fun i => { first := le b (6629 + 6 * i) 2, last := le b (6631 + 6 * i) 2, left := le b (6633 + 6 * i) 2 }),
    rets := (List.range (le b 6677 1)).map (fun i => le b (6678 + 2 * i) 2),
    shelf := writeBytes [] 0 (slice b 6712 0xC000),
    code := if withCode then (List.range 1536).foldl (fun m i => spSet 0 m i (BitVec.ofNat 64 (le b (55864 + 8 * i) 8))) [] else k.code,
    attic := writeBytes [] 0 (slice b 68152 0x18000) }

/-- The `CORE` section. -/
def State.coreSection (s : State) : List Byte := (s.cores.filter (fun e => e.2.section_)).flatMap (fun e => e.2.image e.1)

/-- The bytes of one landing buffer: whether it has an instance, its frame, the landed map. -/
def landBytes (l : LandState) : List Byte :=
  leBytes 1 (b2n l.inst.isSome) ++ leBytes 8 (l.inst.getD 0) ++ (List.range 384).flatMap (fun i => leBytes 1 (b2n (l.landed.contains i)))

/-- The landing buffer of 393 bytes. -/
def readLand (b : List Byte) : LandState :=
  { inst := if le b 0 1 = 1 then some (le b 1 8) else none, landed := (List.range 384).filter (fun i => le b (9 + i) 1 == 1) }

/-- The `LANDING` section. -/
def State.landSection (s : State) : List Byte := (List.range s.activeVersion.landing.length).flatMap (fun n => landBytes (spGet {} s.land n))

/-- The `CONTEXTS` section, in the form of the crate's `SEEDS`. -/
def State.contextSection (s : State) : List Byte := seedsBytes s.contexts

/-- A stream entry: its number and 256 bytes, the frame of its retirement, its bins (DESIGN CHOICE, log entry 17). -/
def streamBytes (n : Nat) (e : Stream) : List Byte :=
  leBytes 4 n ++ e.bytes ++ leBytes 8 (e.retireAt.getD ones64) ++ leBytes 4 e.bins.length ++ e.bins.flatMap (leBytes 4)

/-- The state of a stream entry by its code. -/
def streamOfCode : Nat → StreamSt
  | 1 => .pending | 2 => .waiting | 3 => .active | 4 => .drain | 5 => .done | _ => .free

/-- The stream entry of 256 bytes (R330). -/
def readEntry (b : List Byte) : Stream :=
  { state := streamOfCode (le b 1 1), cause := le b 2 1, sid := le b 4 4, pos := le b 8 4, gen := le b 12 4,
    bpos := if le b 16 2 = 0xFFFF then none else some (le b 16 2), nbins := le b 20 4, step := BitVec.ofNat 64 (le b 24 8), placeFrame := le b 32 8,
    endFrame := le b 40 8, atFrame := le b 48 8, plen := le b 56 4, maxtok := le b 60 4, promptOff := le b 64 4, temp := BitVec.ofNat 32 (le b 68 4),
    topp := BitVec.ofNat 32 (le b 72 4), topk := le b 76 2, nstop := le b 78 1, tpblog := le b 79 1,
    stops := (List.range 8).map (fun i => BitVec.ofNat 32 (le b (80 + 4 * i) 4)), seed := BitVec.ofNat 128 (le b 112 16),
    step0 := BitVec.ofNat 64 (le b 128 8), diroff := if le b 136 4 = 2 ^ 32 - 1 then none else some (le b 136 4) }

/-- `n` stream entries, and the rest. -/
def readStreams : Nat → List Byte → List (Nat × Stream) × List Byte
  | 0, b => ([], b)
  | n + 1, b =>
    let m := le b 268 4
    let e := { readEntry (slice b 4 256) with
      retireAt := if le b 260 8 = ones64 then none else some (le b 260 8), bins := (List.range m).map (fun i => le b (272 + 4 * i) 4) }
    let (l, rest) := readStreams n (b.drop (272 + 4 * m))
    ((le b 0 4, e) :: l, rest)

/-- A list of numbers of four bytes behind its length (DESIGN CHOICE, log entry 17). -/
def numsBytes (l : List Nat) : List Byte := leBytes 4 l.length ++ l.flatMap (leBytes 4)

/-- Such a list, and the rest. -/
def readNums (b : List Byte) : List Nat × List Byte :=
  let n := le b 0 4
  ((List.range n).map (fun i => le b (4 + 4 * i) 4), b.drop (4 + 4 * n))

/-- The `STREAMS` section: the bin area, the entries, the waiting queue and the free order. -/
def State.streamSection (s : State) : List Byte :=
  let (base, n) := match s.mgmt.placed with | some p => (p.binBase, p.binCount) | none => (0, 0)
  leBytes 8 base ++ leBytes 4 n ++ leBytes 4 s.streams.entries.length ++ s.streams.entries.flatMap (fun e => streamBytes e.1 e.2)
    ++ numsBytes s.streams.waiting ++ numsBytes s.streams.freeOrder

/-- The bytes of an area with its sealed copy, where it has one. -/
def Area.span (a : Area) : Nat := if a.kind = 1 ∨ a.kind = 4 then 2 * a.size else a.size

/-- The `HATCH` section. -/
def State.hatchSection (s : State) : List Byte := s.hatch.areas.flatMap (fun a => readBytes s.hatch.bytes a.offset a.span)

/-- An optional number of one byte. -/
def optByte (o : Option Nat) : List Byte := leBytes 1 (o.getD 0xFF)

/-- The optional number of one byte. -/
def readOpt (v : Nat) : Option Nat := if v = 0xFF then none else some v

/-- The `FABRIC` section: frame index, active version, sets of both versions, writable, staged flip, ticks since the last, loss union. -/
def State.fabricSection (s : State) : List Byte :=
  let f := s.fabric
  leBytes 8 f.frameIndex.toNat ++ leBytes 1 (b2n f.active) ++ optByte s.verA.set ++ optByte s.verB.set ++ leBytes 1 (b2n f.writable)
    ++ optByte f.writing ++ optByte f.detourSet ++ optByte (f.staged.map (·.2)) ++ zeros 1 ++ leBytes 8 ((f.staged.map (·.1)).getD 0)
    ++ leBytes 8 f.ticksSinceFlip ++ leBytes 4 f.union.length
    ++ f.union.flatMap (fun l => leBytes 1 l.x ++ leBytes 1 l.y ++ leBytes 1 l.z ++ leBytes 1 l.port)

/-- The first address and the length of the cellar that a checkpoint holds. -/
def State.cellarSpan (s : State) (reserve : Nat) : Nat × Nat := (s.ringSize, s.populated - reserve - s.ringSize)

/-- The sections of a checkpoint in the order of R364. -/
def State.ckSections (s : State) (reserve : Nat) (withCellar : Bool) : List (Nat × List Byte) :=
  [(0x101, s.coreSection), (0x102, s.landSection), (0x103, s.contextSection), (0x104, s.streamSection), (0x105, s.hatchSection),
   (0x106, s.fabricSection)] ++
  (if withCellar then [(0x107, let (a, n) := s.cellarSpan reserve; s.cellarRead a n)] else [])

/-- The directory of sections from byte `a`, for a device of this position. -/
def ckDirectory (pos : List Byte) : Nat → List (Nat × List Byte) → List Byte
  | _, [] => []
  | a, (t, b) :: rest =>
    leBytes 2 t ++ leBytes 1 255 ++ zeros 1 ++ pos ++ zeros 1 ++ leBytes 8 a ++ leBytes 8 b.length ++ (hashH b).take 32 ++ zeros 8
      ++ ckDirectory pos (a + b.length) rest

/-- The three bytes of the device's position in its slice. -/
def State.posBytes (s : State) : List Byte :=
  let (cx, cy, cz) := s.coords
  let (x, y, z) := s.relative cx cy cz
  leBytes 1 x ++ leBytes 1 y ++ leBytes 1 z

/-- The header of a checkpoint. -/
def State.ckHeader (s : State) (c : Crate) (i : Image) (mode n : Nat) : List Byte :=
  ascii "FAELMCKP" ++ leBytes 1 1 ++ leBytes 1 mode ++ leBytes 1 (stepCode s.stepping) ++ leBytes 1 (assyCode s.variant) ++ leBytes 1 i.variant
    ++ s.posBytes ++ leBytes 8 s.frameIndex ++ leBytes 8 s.inv.choices.toNat ++ leBytes 8 s.inv.nextSeq.toNat ++ leBytes 4 n ++ zeros 4
    ++ slice c.digest 0 64 ++ slice i.digest 0 64 ++ digestOr Placement.digest s.mgmt.placed ++ s.chainVal ++ headOf s.inv.frameHead
    ++ headOf s.inv.outputHead ++ hashH (s.zoneDigests c.reserve).flatten ++ zeros 16

/-- The bytes of a checkpoint (DEDUCED, log entry 71). -/
def State.ckImage (s : State) (c : Crate) (i : Image) (mode : Nat) : List Byte :=
  let l := s.ckSections c.reserve (mode == 0)
  s.ckHeader c i mode l.length ++ ckDirectory s.posBytes (512 + 64 * l.length) l ++ l.flatMap (·.2)

/-! ### CHECKPOINT (R363) -/

/-- Give an outstanding command the answer that it will have at its end. -/
def presetFinal (s : State) (op : Nat) (f : Final) : State :=
  { s with cmd := { s.cmd with out := s.cmd.out.map (fun o => if o.opcode = op then { o with final := some f } else o) } }

/-- What `CHECKPOINT` does at once: the state is captured and written; parcels for local delivery wait until the end (DEDUCED, log entry 71). -/
def beginCheckpoint (addr : Nat) (im : List Byte) (s : State) : State :=
  presetFinal (storeWear (hostWrite { s with capture := true } addr im)) 0x35
    (stOk, 0, resAt 24 (leBytes 8 im.length ++ hashH im ++ leBytes 8 s.frameIndex))

/-- `CHECKPOINT`. -/
def cCheckpoint : Cmd := {
  opcode := 0x35, allowed := [.loaded, .held], single := true
  run := fun k s =>
    if s.dev = .held ∧ s.frame.stopped then refuse s stBadState 0
    else match s.mgmt.crate, s.mgmt.loadedImage with
    | some c, some i =>
      let im := s.ckImage c i (k.par 32 1)
      if k.par 16 8 % 4096 ≠ 0 ∨ 1 < k.par 32 1 ∨ k.par 24 8 < im.length then refuse s stBadParam 0
      else .long s (beginCheckpoint (k.par 16 8) im)
    | _, _ => refuse s stBadState 0 }

/-! ### RESTORE (R324, R365, R366) -/

/-- The sections of a checkpoint image. -/
def ckDir (f : List Byte) : List Section := dirEntries f 512 (le f 40 4)

/-- The form of a checkpoint image: header, directory and digests (DEDUCED, log entry 71). -/
def ckForm (f : List Byte) : Bool :=
  decide (512 ≤ f.length) && slice f 0 8 == ascii "FAELMCKP" && le f 8 1 == 1 && decide (le f 9 1 ≤ 1) && decide (le f 40 4 ≤ 8)
    && dirOk f (512 + 64 * le f 40 4) [0x101, 0x102, 0x103, 0x104, 0x105, 0x106, 0x107] (ckDir f) && (ckDir f).all Section.digestOk

/-- Whether the checkpoint is one of this device and crate (R365). -/
def ckMatches (s : State) (c : Crate) (f : List Byte) : Bool :=
  slice f 48 64 == c.digest && le f 11 1 == assyCode s.variant && slice f 13 3 == s.posBytes &&
    (le f 9 1 == 0 || hashH (s.zoneDigests c.reserve).flatten == slice f 432 64)

/-- The chains and the choice counter take the values of the header. -/
def restoreChains (s : State) (f : List Byte) : State :=
  let h := fun a => let v := slice f a 64; if v = zeros 64 then [] else v
  { s with inv := { s.inv with chain := slice f 240 64, frameHead := h 304, outputHead := h 368, choices := BitVec.ofNat 64 (le f 24 8) } }

/-- Restore the cores of a `CORE` section. -/
def restoreCores (s : State) (b : List Byte) (withCode : Bool) : State :=
  (pieces coreBytes b).foldl (fun m p => m.setCore (le p 0 4) ((m.core (le p 0 4)).restored p withCode)) s

/-- Restore the streams; of the free order of this placement only the bins stay that were free in the checkpoint (R335) (DEDUCED, log entry 71). -/
def restoreStreams (s : State) (b : List Byte) : State :=
  let (es, r1) := readStreams (le b 12 4) (b.drop 16)
  let (w, r2) := readNums r1
  let (free, _) := readNums r2
  { s with streams := { s.streams with
      entries := es.foldl (fun m e => spSet {} m e.1 e.2) [], waiting := w, freeOrder := s.streams.freeOrder.filter free.contains } }

/-- Restore the areas of the Hatch. -/
def restoreHatch (s : State) (b : List Byte) : State :=
  (s.hatch.areas.foldl (fun (acc : State × List Byte) a =>
    ({ acc.1 with hatch := { acc.1.hatch with bytes := writeBytes acc.1.hatch.bytes a.offset (slice acc.2 0 a.span) } }, acc.2.drop a.span)) (s, b)).1

/-- Write the job entries of a set into a version. -/
def restoreSet (s : State) (ver : Bool) (n : Option Nat) : State :=
  match n with
  | none => s.setVersion ver (s.version ver).clearJob
  | some n => match s.tableSet n with
    | some t => s.setVersion ver { s.version ver with tx := t.tx, xbar := t.xbar, landing := t.landing, set := some n }
    | none => s.setVersion ver { (s.version ver).clearJob with set := some n }

/-- Restore the fabric: frame index, versions, flips, loss union. -/
def restoreFabric (s : State) (b : List Byte) : State :=
  let s1 := restoreSet (restoreSet s false (readOpt (le b 9 1))) true (readOpt (le b 10 1))
  { s1 with fabric := { s1.fabric with
      frameIndex := BitVec.ofNat 64 (le b 0 8), active := le b 8 1 == 1, writable := le b 11 1 == 1, writing := readOpt (le b 12 1),
      detourSet := readOpt (le b 13 1), staged := (readOpt (le b 14 1)).map (fun n => (le b 16 8, n)), ticksSinceFlip := le b 24 8,
      union := (List.range (le b 32 4)).map fun i =>
        { x := le b (36 + 4 * i) 1, y := le b (37 + 4 * i) 1, z := le b (38 + 4 * i) 1, port := le b (39 + 4 * i) 1 } } }

/-- The tables under which a restored run goes on (R277): the base set of the active set where each port of this device that it uses is `UP`, else the
detour plan of the links lost; none where no plan has them (DEDUCED, log entry 92). -/
def resumeTables (s : State) : Option State :=
  let base := s.baseSet
  match s.tableSet base with
  | none => some s
  | some t =>
    let lost := (t.ports.filter (fun p => !s.portUp p)).map s.ownLink
    let under := fun (n : Nat) (d : Option Nat) =>
      let s1 := restoreSet s s.fabric.active (some n)
      { s1 with fabric := { s1.fabric with
          detourSet := d, union := lost, announced := [], flipRound := none, flippedUnion := if lost.isEmpty then none else some lost } }
    if lost.isEmpty then some (under base none) else (s.planFor base lost).map (fun n => under n (some n))

/-- Restore the landing buffers. -/
def restoreLand (s : State) (b : List Byte) : State :=
  { s with land := (pieces 393 b).zipIdx.foldl (fun m e => spSet {} m e.2 (readLand e.1)) [] }

/-- Write the captured state over a timetable just loaded. -/
def restoreState (s : State) (c : Crate) (f : List Byte) (withCode : Bool) : State :=
  let d := fun t => secData (ckDir f) t
  let s1 := restoreCores s (d 0x101) withCode
  let s2 := restoreFabric { s1 with contexts := readSeeds (d 0x103) } (d 0x106)
  let s3 := restoreHatch (restoreStreams (restoreLand s2 (d 0x102)) (d 0x104)) (d 0x105)
  if le f 9 1 = 0 then s3.cellarWrite (s3.cellarSpan c.reserve).1 (d 0x107) else s3

/-- Why a checkpoint cannot be restored into an image, 0 for none (DEDUCED, log entry 71). -/
def restoreReason (s : State) (c : Crate) (f : List Byte) : Nat :=
  if !ckForm f || !ckMatches s c f then 0x070E
  else match s.imageOf (le f 12 1) with
    | none => 0x0903
    | some i =>
      if i.digest ≠ slice f 112 64 ∧ bit c.features 6 then 0x070E
      else (loadFault s c i).elim 0 (·.1)

/-- The end of `RESTORE` (DEDUCED, log entry 92). -/
def finishRestore (k : Packet) (s : State) : State × Final :=
  match s.mgmt.crate with
  | none => (s, stBadState, 0, [])
  | some c =>
    let n := k.par 24 8
    let f := slice k.pulled 0 n
    let prec := slice k.pulled n (k.par 48 4)
    let lock := bit (k.par 32 1) 0
    let s1 := pullRecord s 3 (k.par 16 8) f
    let s2 := if lock then pullRecord s1 2 (k.par 40 8) prec else s1
    let r := restoreReason s2 c f
    let v := le f 12 1
    if r ≠ 0 then (s2, stRejected, r, [])
    else
      let b := secData (ckDir f) 0x104
      let s3 := restoreChains { s2 with mgmt := { s2.mgmt with placed := none } } f
      let placed := if lock then placeLocked s3 c 255 (some v) 2 prec
        else placeChoice s3 c (s3.fitVariants c (2 ^ v)) 2 (le f 16 8) (le b 0 8) (le b 8 4)
      match placed with
      | .error (.reason x l) => (s2, rejectAt x l)
      | .error .noRoom => (s2, stBusy, 0x0A30, [])
      | .ok (s4, p, _) => match c.variants.find? (fun x => x.index == v), s4.imageOf v with
        | some vr, some i =>
          match resumeTables (restoreState (loadImage s4 c vr p i) c f (i.digest == slice f 112 64)) with
          | none => (s2, stRejected, 0x0514, [])
          | some s5 =>
            let s6 := record s5 0x0A (le f 16 8) 0 0 (slice f 0 512)
            (setDev s6 .loaded, stOk, 0, resAt 24 (leBytes 8 (le f 16 8) ++ slice p.digest 0 64))
        | _, _ => (s2, stRejected, 0x0903, [])

/-- `RESTORE`: it needs a crate loaded and verified. -/
def cRestore : Cmd := {
  opcode := 0x36, allowed := [.idle], single := true
  run := fun _ s => if s.mgmt.crate.isNone || !s.mgmt.verified then refuse s stBadState 0 else .long s id }

/-! ### REPLAY_BEGIN (R352, R367 to R369) -/

/-- The record at the front of a stream (R350), where it is well formed. -/
def readRecord (b : List Byte) : Option InvRec :=
  let n := le b 4 4
  let len := le b 24 8
  let here := bit (le b 2 1) 0
  if b.length < 128 ∨ le b 0 1 ≠ 1 ∨ n < 128 ∨ n % 64 ≠ 0 ∨ b.length < n then none
  else some { kind := le b 1 1, flags := le b 2 1, sub := le b 3 1, seqno := le b 8 8, frame := le b 16 8, length := len, time := le b 32 8,
              src := le b 40 8, digest := slice b 64 64, content := if here then slice b 128 (Nat.min len (n - 128)) else [] }

/-- The place in a replay stream where it ceases to be well formed: the frame after the last record of a run (DEDUCED, log entry 54). -/
def badPlace (last : Nat) : InvRec :=
  { kind := 0xFF, flags := 0, sub := 0, seqno := 0, frame := last, length := 0, time := 0, src := 0, digest := [], content := [] }

/-- Join a `CONT` record to the record it continues. -/
def joinCont (acc : List InvRec) (r : InvRec) : List InvRec :=
  match acc with
  | p :: t => { p with content := (p.content ++ r.content).take p.length } :: t
  | [] => []

/-- The records of a stream, the latest first, with `CONT` records joined; `next` is the least `SEQNO` that may follow, `frame` the frame after
the last record of a run. -/
def readStream : Nat → Nat → Nat → List InvRec → List Byte → List InvRec
  | 0, _, _, acc, _ => acc
  | fuel + 1, next, frame, acc, b =>
    if b.isEmpty then acc else
    match readRecord b with
    | none => badPlace frame :: acc
    | some r =>
      let f := if r.frame = ones64 then frame else Nat.max frame (r.frame + 1)
      if r.seqno < next then badPlace frame :: acc
      else if r.kind = 0x41 ∧ acc.isEmpty then badPlace frame :: acc
      else readStream fuel (if r.kind = 0x7F then r.seqno else r.seqno + 1) f
        (if r.kind = 0x41 then joinCont acc r else if r.kind = 0x7F then acc else r :: acc) (b.drop (le b 4 4))

/-- The records of a replay stream in order. -/
def replayStream (s : State) (b : List Byte) : List InvRec := (readStream (b.length / 64 + 1) 0 s.frameIndex [] b).reverse

/-- Whether the `CELLAR_BASE` of the stream compares with this load's (R368, R369). -/
def cellarBaseOk (s : State) (l : List InvRec) : Bool :=
  match l.find? (fun r => r.kind == 8), s.mgmt.crate with
  | some r, some c => r.content == s.cellarBase c.reserve
  | _, _ => true

/-- The end of `REPLAY_BEGIN`. -/
def finishReplay (k : Packet) (s : State) : State × Final :=
  let b := slice k.pulled 0 (k.par 24 8)
  let l := replayStream s b
  let s1 := pullOther s (k.par 16 8) b
  if !cellarBaseOk s1 l then (s1, stRejected, 0x0A31, [])
  else
    ({ s1 with inv := { s1.inv with replay := some l, replayNext := true, lastFrame := k.par 32 8, replayRef := k.bytes 40 64 } }, stOk, 0, [])

/-- `REPLAY_BEGIN`: before the first `START` of a run. -/
def cReplayBegin : Cmd := {
  opcode := 0x51, allowed := [.loaded], single := true
  run := fun _ s => if s.frame.ranOnce then refuse s stBadState 0 else .long s id }

/-! ### The rows -/

/-- CHECKPOINT: it ends with LONG_COMMAND_DONE. -/
def execCheckpoint (k : Packet) (s : State) : Out := hostCommand cCheckpoint k s

/-- RESTORE: it ends with LONG_COMMAND_DONE. -/
def execRestore (k : Packet) (s : State) : Out := hostCommand cRestore k s

/-- REPLAY_BEGIN: it ends with LONG_COMMAND_DONE. -/
def execReplayBegin (k : Packet) (s : State) : Out := hostCommand cReplayBegin k s

end Sys2Proof.Machine
end

