-- ==== Sys2Proof/Machine/ClockRows.lean ====
section
/-! DEFINITION. Margins, the stretch wave and crossings (R379 to R382), the power governor (R384, R385), AVSBus (R515 to R517), temperatures and the
hardware trip (R518 to R520). -/

namespace Sys2Proof.Machine

open Sys2Proof

/-! ### Margins and stretches (R379 to R381) -/

/-- The number by which a stretch event is kept: its frame and its window of 16 cycles. -/
def State.eventKey (s : State) (cycle : Nat) : Nat := s.frameIndex * 2 ^ 20 + cycle / 16

/-- A region lengthens the first period from `from_` on that the limit of one in 16 allows; the period is kept plus 1. -/
def stretchRegion (s : State) (j from_ : Nat) : State :=
  let t := Nat.max from_ (spGet 0 s.clock.lastStretch j)
  { s with clock := { s.clock with
      lastStretch := spSet 0 s.clock.lastStretch j (t + 16), stretchDue := spSet 0 s.clock.stretchDue j (t + 1),
      applied := spModify 0 s.clock.applied j (· + 1) } }

/-- The earliest event that a region has not applied. -/
def State.nextEvent (s : State) (j : Nat) : Option Nat := (s.clock.events.drop (spGet 0 s.clock.applied j)).head?

/-- Whether a region knows of an event at a cycle: surely 32 cycles after its window; before that the time of delivery is a free value (DESIGN CHOICE,
log entry 1). -/
def State.knowsEvent (s : State) (event cycle : Nat) : Bool :=
  decide (event < s.frameIndex * 2 ^ 20) || decide (event % 2 ^ 20 * 16 + 48 ≤ cycle) || Config.freeBool s.freeCtr

/-- A detection of a region at a cycle: its stretch applies an event that it knows of, or it posts one for its window; events of one window are
one. -/
def detectStretch (s : State) (j cycle : Nat) : State :=
  if cycle + 1 < spGet 0 s.clock.stretchDue j then s else
  let posted := match s.nextEvent j with
    | some e => if s.knowsEvent e cycle || e == s.eventKey cycle then s
      else { s with clock := { s.clock with events := s.clock.events ++ [s.eventKey cycle], stretchEvents := s.clock.stretchEvents + 1 } }
    | none => { s with clock := { s.clock with events := s.clock.events ++ [s.eventKey cycle], stretchEvents := s.clock.stretchEvents + 1 } }
  stretchRegion (posted.useFree 1) j (cycle + 1)

/-- A margin of 0 or less: fault 0x0C21 in a run, and its alarm otherwise (R380) (DEDUCED, log entry 76). -/
def marginFail (s : State) (j : Nat) : State := if s.runOn then deviceFault s 0x0C21 j else raiseAlarm s 0x0C21 j [] true

/-- MARGIN_CHECK: a region reads the margins of its paths in a period; a period in which the package executes no cycle posts no event. -/
def execMarginCheck (region : Nat) (margins : List Int) (s : State) : Out :=
  if 64 ≤ region then .fault .noSuchUnit else
  match margins with
  | [] => .next s
  | m0 :: ms =>
    let m := ms.foldl Min.min m0
    let c := s.cycleNow
    let low := Nat.min m.toNat (match s.clock.minMargin.find? (fun e => e.1 == region) with | some e => e.2 | none => 255)
    let s1 := { s with clock := { s.clock with minMargin := (s.clock.minMargin.filter (fun e => e.1 != region)) ++ [(region, low)] } }
    let warn := decide (m < 6) && s.cycling && spGet 0 s.clock.stretchDue region == c + 1
    let s2 := if warn then raiseAlarm { s1 with clock := { s1.clock with
        marginWarns := s1.clock.marginWarns + 1, warned := spSet false s1.clock.warned region true } } 0x0C20 region [] false true else s1
    let s3 := if m < 12 ∧ s.cycling then detectStretch s2 region c else s2
    .next (if m ≤ 0 then marginFail s3 region else s3)

/-- STRETCH_EVENT_APPLY: the next event delivered to a region is applied at the first period that the limit allows; one that is not applied at a
halt waits until the package resumes. -/
def execStretchEventApply (region : Nat) (s : State) : Out :=
  if 64 ≤ region then .fault .noSuchUnit else
  .next (if s.cycling && (s.nextEvent region).isSome then stretchRegion s region s.cycleNow else s)

/-- The logical region that a physical one carries. -/
def State.logicalRegion (s : State) (j : Nat) : Option Nat := (List.range 64).find? (fun g => s.physRegion g == j)

/-- BEAT_CAPTURE: a beat reaches the landing register of a physical region so many half cycles after its nominal cycle. Within 4 cycles it is released
at the fixed latency, which changes nothing; beyond them it is fault 0x0108 of the region's first core (R69, R382) (DEDUCED, log entry 76). -/
def execBeatCapture (region : Nat) (lateHalfCycles : Int) (s : State) : Out :=
  if 64 ≤ region then .fault .noSuchUnit
  else if lateHalfCycles.natAbs ≤ 8 then .next s
  else .next (match s.logicalRegion region with
    | some g => if s.cycling then raiseCore s (g * 1280) 6 0xFFFF s.cycleNow { reason := 0x0108 } else s
    | none => s)

/-! ### The power governor (R384, R385, R510) -/

/-- The package power cap in W. -/
def powerCap (v : Variant) (m : Mode) : Nat :=
  let cores := match m with | .peak => 1960 | .steady => 1360 | .cool => 660
  let rest := match v with | .d1m => 1040 | .d1b => 940 | .d1l => 840
  cores + rest

/-- The next slower mode. -/
def slowerMode : Mode → Mode
  | .peak => .steady
  | _ => .cool

/-- The target that governor and temperature ask for (R519) (DEDUCED, log entry 59). -/
def State.wantedKhz (s : State) : Nat := if s.stats.tstate = 2 then minKhz s.clock.mode else s.clock.govKhz

/-- A new target waits for a cycle whose index is a multiple of 16 (DEDUCED, log entry 59). -/
def retarget (s : State) : State :=
  { s with clock := { s.clock with nextTargetKhz := if s.wantedKhz = s.clock.targetKhz then none else some s.wantedKhz } }

/-- Power and energy of 64 rounds; the power of each rail is not given by the package's, and is a free value (DESIGN CHOICE, log entry 1). -/
def measurePower (s : State) (power : Nat) : State :=
  let nj := s.stats.energyFrac + power * 65536
  let rails := (List.range 16).foldl (fun m r => spSet 0 m r (Config.freeNat (s.freeCtr + r) % 65536)) []
  State.useFree { s with
    clock := { s.clock with power := power % 65536 },
    stats := { s.stats with energy := s.stats.energy + BitVec.ofNat 64 (nj / 1000000), energyFrac := nj % 1000000, railPower := rails } } 16

/-- GOVERNOR_STEP: the end of 64 rounds with their mean power (DEDUCED, log entry 59). -/
def execGovernorStep (power : Nat) (s : State) : Out :=
  let s1 := measurePower s power
  let c := s1.clock
  let cap := powerCap s.variant c.mode
  let step := nominalKhz c.mode / 100
  let low := minKhz c.mode
  if cap < power then
    .next (retarget { s1 with clock := { c with
      govKhz := Nat.max low (c.govKhz - step), govSteps := c.govSteps + 1,
      overRounds := if c.targetKhz = low then c.overRounds + 64 else 0 } })
  else if 100 * power ≤ 95 * cap ∧ s.stats.tstate < 2 then
    .next (retarget { s1 with clock := { c with govKhz := Nat.min (nominalKhz c.mode) (c.govKhz + step), overRounds := 0 } })
  else .next { s1 with clock := { c with overRounds := 0 } }

/-- AUTO_THROTTLE: after 1,024 rounds over the cap at the minimum target the next slower mode is staged; in COOL nothing is (R385). -/
def execAutoThrottle (s : State) : Out :=
  let c := s.clock
  if c.mode = .cool ∨ c.overRounds < 1024 then .next s else
  let s1 := stageMode s (slowerMode c.mode) true
  .next (raiseAlarm { s1 with clock := { s1.clock with autoThrottles := c.autoThrottles + 1, overRounds := 0 } } 0x0C22 0)

/-- TARGET_APPLY: the new target takes effect. -/
def execTargetApply (s : State) : Out :=
  .next (match s.clock.nextTargetKhz with
    | some t => { s with clock := { s.clock with targetKhz := t, nextTargetKhz := none } }
    | none => s)

/-- AVS_CONFIRM: the voltage writes are confirmed, and a staged faster mode may be applied; or one fails, with alarm 0x0C26, and the mode stays staged
(R515 to R517) (DEDUCED, log entry 77). -/
def execAvsConfirm (ok : Bool) (s : State) : Out :=
  .next (if ok then { s with clock := { s.clock with avsPending := false } } else raiseAlarm s 0x0C26 0)

/-! ### Temperatures (R518 to R520) -/

/-- The number of a sensor. -/
def sensorKey : Sensor → Nat
  | .region j => j
  | .site k => 64 + k
  | .cellar c => 128 + c

/-- Whether a sensor exists. -/
def sensorExists (v : Variant) : Sensor → Bool
  | .region j => decide (j < 64)
  | .site k => decide (k < 6)
  | .cellar c => decide (c < cellarCount v)

/-- The thresholds of a sensor: warning, throttle, trip pending, hardware trip. -/
def thresholds : Sensor → Int × Int × Int × Int
  | .cellar _ => (85, 90, 100, 105)
  | _ => (95, 100, 110, 120)

/-- The state of a sensor at a temperature: a state is left 3 °C below its threshold. -/
def sensorState (sn : Sensor) (old : Nat) (t : Int) : Nat :=
  let (a, b, c, _) := thresholds sn
  let at_ := fun (d : Int) => if c - d ≤ t then 3 else if b - d ≤ t then 2 else if a - d ≤ t then 1 else 0
  Nat.max (at_ 0) (Nat.min old (at_ 2))

/-- The temperature of a sensor with its calibration, in 1/16 °C, rounded down (R454) (DEDUCED, log entry 76). -/
def State.calibrated (s : State) (sn : Sensor) (t : Int) : Int :=
  match sn with
  | .region j => (t * 16 + spGet 0 s.settings.applied (1 * 65536 + j)) / 16
  | .site k => (t * 16 + spGet 0 s.settings.applied (2 * 65536 + k)) / 16
  | .cellar _ => t

/-- One reading (DEDUCED, log entry 76). -/
def readSensor (s : State) (r : Sensor × Int) : State :=
  let v := s.calibrated r.1 r.2
  let k := sensorKey r.1
  let st := s.stats
  let st1 := { st with sensorState := spSet 0 st.sensorState k (sensorState r.1 (spGet 0 st.sensorState k) v) }
  { s with stats := match r.1 with
    | .region j => { st1 with regionTemp := spSet 0 st1.regionTemp j v }
    | .site i => { st1 with siteTemp := spSet 0 st1.siteTemp i v }
    | .cellar c => { st1 with cellarTemp := spSet 0 st1.cellarTemp c v } }

/-- The hottest region, the lowest index where several are, and its temperature (R477). -/
def markHottest (s : State) : State :=
  let best := (List.range 64).foldl (fun (b : Nat) j => if spGet 0 s.stats.regionTemp b < spGet 0 s.stats.regionTemp j then j else b) 0
  { s with stats := { s.stats with hottest := best, tmax := Nat.min 255 (spGet 0 s.stats.regionTemp best).toNat } }

/-- The thermal state of the package, with the event of its sensor (R488, R518). -/
def setTstate (s : State) : State :=
  let t := (s.stats.sensorState.map (·.2)).foldl Nat.max 0
  let s1 := { s with stats := { s.stats with tstate := t } }
  if t = s.stats.tstate then s1 else pldmEvent s1 1 (leBytes 2 0x101 ++ leBytes 1 t ++ leBytes 1 s.stats.tstate)

/-- What a thermal state does (R519) (DEDUCED, log entry 76). -/
def thermalAction (s : State) : State :=
  let s1 := { s with clock := { s.clock with throttleRounds := if s.stats.tstate = 2 then s.clock.throttleRounds + 1 else 0 } }
  let s2 := retarget s1
  if s.stats.tstate = 1 then raiseAlarm s2 0x0C23 0 [] false true
  else if s.stats.tstate = 3 ∧ s.inRun then stopNow s2 0x0C25
  else s2

/-- SENSOR_SAMPLE: the readings of a slot round. -/
def execSensorSample (readings : List (Sensor × Int)) (s : State) : Out :=
  if readings.all (fun r => sensorExists s.variant r.1) then .next (thermalAction (setTstate (markHottest (readings.foldl readSensor s))))
  else .fault .noSuchUnit

/-- THERMAL_THROTTLE: after 1,024 consecutive rounds in `TSTATE` 2 the next slower mode is staged; in COOL nothing is. -/
def execThermalThrottle (s : State) : Out :=
  let c := s.clock
  if c.mode = .cool ∨ c.throttleRounds < 1024 then .next s else
  let s1 := stageMode s (slowerMode c.mode) true
  .next (raiseAlarm { s1 with clock := { s1.clock with autoThrottles := c.autoThrottles + 1, throttleRounds := 0 } } 0x0C24 0)

/-- Whether a reading is at the hardware trip of its die. -/
def atTrip (sn : Sensor) (t : Int) : Bool := decide ((thresholds sn).2.2.2 ≤ t)

/-- The hardware trip (R520): the stub, every clock but the always-on one stopped, the transmitters idle, THERMTRIP_N low, the HBM enables low. Until
its release the device is as in `BOOT` (DESIGN CHOICE, log entry 33). The stub has no given layout (DESIGN CHOICE, log entry 15). -/
def trip (s : State) (sn : Sensor) (t : Int) : State :=
  let s1 := logCrash s (Config.layout 0x520 [sensorKey sn, t.toNat, s.now, s.frameIndex])
  { s1 with
    dev := if s1.dev = .off then .off else .boot,
    resets := { s1.resets with tripped := true, larderFrame := s1.frameIndex, larderState := devCode s1.dev },
    pins := { s1.pins with active := false, txIdle := true, thermtripN := false, hbmVpp := false, hbmVdd := false, hbmVddq := false } }

/-- THERMAL_TRIP. -/
def execThermalTrip (sn : Sensor) (temp : Int) (s : State) : Out :=
  if !sensorExists s.variant sn then .fault .noSuchUnit
  else .next (if s.resets.tripped || !atTrip sn temp then s else trip s sn temp)

/-- THERMAL_TRIP_RELEASE: every sensor is below its warning threshold; the source asserts system reset, and THERMTRIP_N is released (DESIGN CHOICE,
log entry 33). -/
def execThermalTripRelease (s : State) : Out :=
  if !s.resets.tripped then .next s else
  let s1 := assertReset 4 1 { s with resets := { s.resets with tripped := false }, pins := { s.pins with thermtripN := true } }
  .next { s1 with resets := { s1.resets with larderFrame := s.resets.larderFrame, larderState := s.resets.larderState } }

end Sys2Proof.Machine
end

