-- ==== Sys2Proof/Machine/Nx.lean ====
section
/-! DEFINITION. The NX commands: POST (R138, R141, R217, R360) and NCLRA (R81). -/

namespace Sys2Proof.Machine

open Sys2Proof

/-- The parcels of a flow posted so far are counted (R492). -/
def Core.countPosts (k : Core) (flow n pc : Nat) : Core :=
  { k with flows := k.flows.map (fun f => if f.flow = flow then { f with posted := f.posted + n, lastPc := pc } else f) }

/-- Post the parcels of a `POST`: headers from the local crossbar entry, frame checks and copies (R217, R360). -/
def postParcels (flow first count : Nat) (ps : List (List Byte)) (s : State) : State :=
  match s.activeVersion.lookup 31 flow with
  | none => s
  | some e =>
    ps.zipIdx.foldl (fun m p =>
      let seq := first + p.2
      let h := m.ownHdr e flow seq (m.frameIndex % 4096) (decide (seq + 1 = count))
      postCopies (frameCheck m e h p.1) e h p.1 false) s

/-- POST: `COUNT` parcels of 256 bytes for the flow in s(`SA`) (R130, R141, R217). -/
def execPost (c : Nat) (s : State) : Out :=
  onEngine c .nx 0x40 s fun _ k fl => do
    let d := fl.q.desc
    let flow := fl.q.sa.toNat % 2 ^ 20
    let (sp, a) ← operand fl d.opnd0 fl.q.base0 (256 * d.count)
    match k.flows.find? (fun f => f.flow == flow) with
    | none => throw (fl.d, { reason := 0x0501, detail := flow })
    | some f =>
      if f.count < f.posted + d.count then throw (fl.d, { reason := 0x0502, detail := flow })
      let w := if sp = .attic then 64 else 32
      let at_ := fun i j => fl.d + 8 * i + 1 + j
      let payload := fun i => (List.range (256 / w)).flatMap (fun j => k.load sp (a + 256 * i + w * j) w (at_ i j))
      return { core := k.countPosts flow d.count fl.q.pc,
               uses := (List.range d.count).flatMap fun i =>
                 (List.range (256 / w)).flatMap fun j => usesOf 4 fl.q.pc sp (a + 256 * i + w * j) w (at_ i j),
               post := postParcels flow f.posted f.count ((List.range d.count).map payload) }

/-- NCLRA: clears arrival flag `FN` + 16 × `OPND0[1:0]` at D + 1 (R81, R130). -/
def execNclra (c : Nat) (s : State) : Out :=
  onEngine c .nx 0x41 s fun _ k fl => do
    let f := fl.q.desc.fn + 16 * (fl.q.desc.opnd0.toNat % 4)
    return { core := k, pends := [{ unit := 4, pc := fl.q.pc, ready := fl.d + 1, clearArrival := some f }] }

end Sys2Proof.Machine
end

