-- ==== Sys2Proof/Machine/Sx.lean ====
section
/-! DEFINITION. The SX commands (R67 to R70, R131, R138, R145 to R148, R159, R339), overlays (R66) and stream prefetch
programs (R166 to R168). -/

namespace Sys2Proof.Machine

open Sys2Proof

/-- The pieces of an access of `n` bytes at `a` in units of `w` bytes: index, address and length. -/
def piecesOf (a n w : Nat) : List (Nat × Nat × Nat) :=
  (List.range (ceilDiv n w)).map fun j => (j, a + j * w, Nat.min w (n - j * w))

/-- A write in flight that is readable at `t`. -/
def inFlight (pc : Nat) (sp : Space) (core a : Nat) (bs : List Byte) (t : Nat) : Pending :=
  { unit := 3, pc, ready := t, writes := [{ space := sp, core, addr := a, bytes := bs }] }

/-- A copy within a core: piece `j` is read at `rd j`, written at `wr j` and readable at `ready j`. -/
def copyWithin (c : Nat) (k : Core) (fl : InFlight) (n w : Nat) (src dst : Space × Nat) (rd wr ready : Nat → Nat) : CmdEff :=
  let pc := fl.q.pc
  let ps := piecesOf 0 n w
  { core := k,
    pends := ps.map fun p => inFlight pc dst.1 c (dst.2 + p.2.1) (k.load src.1 (src.2 + p.2.1) p.2.2 (rd p.1)) (ready p.1),
    uses := ps.flatMap fun p =>
      usesOf 3 pc src.1 (src.2 + p.2.1) p.2.2 (rd p.1) ++ usesOf 3 pc dst.1 (dst.2 + p.2.1) p.2.2 (wr p.1) }

/-- The two operands of a copy. -/
def copyOperands (fl : InFlight) : CRes ((Space × Nat) × (Space × Nat)) := do
  let d := fl.q.desc
  let src ← operand fl d.opnd0 fl.q.base0 d.count
  let dst ← operand fl d.opnd1 fl.q.base1 d.count
  return (src, dst)

/-- GATHER: shelf or attic to staging (R130, R138). -/
def execGather (c : Nat) (s : State) : Out :=
  onEngine c .sx 0x30 s fun _ k fl => do
    let (src, dst) ← copyOperands fl
    let w := if src.1 = .attic then 64 else 32
    let lag := if src.1 = .attic then 3 else 1
    return copyWithin c k fl fl.q.desc.count w src dst (fun j => fl.d + 1 + j) (fun j => fl.d + lag + j) (fun j => fl.d + 1 + lag + j)

/-- SCATTER: staging to shelf or attic (R130, R138). -/
def execScatter (c : Nat) (s : State) : Out :=
  onEngine c .sx 0x31 s fun _ k fl => do
    let (src, dst) ← copyOperands fl
    let w := if dst.1 = .attic then 64 else 32
    return copyWithin c k fl fl.q.desc.count w src dst (fun j => fl.d + 1 + j) (fun j => fl.d + 1 + j) (fun j => fl.d + 2 + j)

/-- XMOV: a copy within the core (R130, R138) (DEDUCED, log entry 27). -/
def execXmov (c : Nat) (s : State) : Out :=
  onEngine c .sx 0x32 s fun _ k fl => do
    let (src, dst) ← copyOperands fl
    let lag := if src.1 = .attic ∨ dst.1 = .attic then 4 else 2
    return copyWithin c k fl fl.q.desc.count 32 src dst (fun j => fl.d + 1 + j) (fun j => fl.d + lag + j) (fun j => fl.d + 1 + lag + j)

/-! ### Transfers between cores (R67 to R70, R131) -/

/-- The resources of beat `i` of a transfer, with their cycles (R68, R534) (DEDUCED, log entry 27). -/
def beatPaths (fn c t ch lat d i : Nat) : List (Nat × Nat) :=
  let g := c / 1280
  let g' := t / 1280
  match fn with
  | 0 => [(d + i, if t = c + 1 then 0xC00 else 0xC01)]
  | 1 => [(d + i, 32 * g + c % 1280 / 40)]
  | 2 => [(d + i, 0x800 + 8 * g + ch)]
  | 3 => [(d + i, 0xA00 + 2 * g), (d + lat + i, 0xA00 + 2 * g' + 1)]
  | _ => [(d + i, 0xB00 + 4 * (c / 20480) + t / 20480)]

/-- The cycles in which a beat of `n` bytes readable at `t` is written on the destination's port (R131): 256 bytes a cycle into the
shelf, ending at t − 1, and one line a cycle into the attic, ending at t − 3. -/
def landingUses (pc : Nat) (sp : Space) (a n t : Nat) : List (BankUse × Nat) :=
  let w := if sp = .attic then 64 else 256
  let last := if sp = .attic then t - 3 else t - 1
  (piecesOf a n w).flatMap fun p => usesOf 3 pc sp p.2.1 p.2.2 (last - (ceilDiv n w - 1 - p.1))

/-- XPUT: bytes into another core's store (R67, R70, R130, R131). -/
def execXput (c : Nat) (s : State) : Out :=
  onEngine c .sx 0x33 s fun _ k fl => do
    let d := fl.q.desc
    let (src, dst) ← copyOperands fl
    let t := bits d.opnd2.toNat 16 0
    let (w, lat) := pathOf d.fn
    let ps := piecesOf 0 d.count w
    let ready := fun i => fl.d + lat + i
    let beats := ps.map fun p =>
      (t, { inFlight fl.q.pc dst.1 t (dst.2 + p.2.1) (k.load src.1 (src.2 + p.2.1) p.2.2 (fl.d + p.1)) (ready p.1) with src := some c })
    let flag : List (Nat × Pending) := if bit d.opnd3.toNat 6 then
      [(t, { unit := 3, src := some c, pc := fl.q.pc, ready := ready (ps.length - 1), flag := some (bits d.opnd3.toNat 5 0) })] else []
    return { core := k, others := beats ++ flag,
             uses := ps.flatMap (fun p => usesOf 3 fl.q.pc src.1 (src.2 + p.2.1) p.2.2 (fl.d + p.1)),
             otherUses := ps.flatMap (fun p => (landingUses fl.q.pc dst.1 (dst.2 + p.2.1) p.2.2 (ready p.1)).map (fun u => (t, { u.1 with src := some c }, u.2))),
             paths := ps.flatMap (fun p => beatPaths d.fn c t (bits d.opnd2.toNat 19 17) lat fl.d p.1) }

/-! ### Cellars and the Hatch (R138, R145 to R148, R159, R339) -/

/-- A fault that names a device address (R142). -/
def daFault (reason da : Nat) : FaultRec := { reason, object := obj 10 (da / 2 ^ 36 % 4096), detail := da / 16 % 2 ^ 32 }

/-- The address that a bin-relative transfer reaches (R337, R339): the bin of the template's class with row ρ, which must lie in the
bin area of the placement. A ρ outside it raises 0x0404 with the row. -/
def State.binAddress (s : State) (da n rho : Nat) : Res Nat :=
  let bad : Res Nat := .error { reason := 0x0404, detail := rho }
  match findZone s.cellar.zones da, s.mgmt.placed with
  | some (z, o), some p =>
    let g8 := 8 * z.groups.length
    let m := o / 65536
    let real := da - o + (rho * g8 + m % g8) * 65536
    if o % 65536 + n ≤ 65536 ∧ rho ≤ 24567 ∧ p.binBase ≤ real ∧ real + 65536 ≤ p.binBase + p.binCount * 65536 then
      .ok (real + o % 65536)
    else bad
  | _, _ => bad

/-- The device address of a transfer, checked in the cycle of its dispatch (R148, R339). -/
def transferAddress (s : State) (fl : InFlight) (hatch : Bool) : CRes Nat :=
  let da := fl.q.da
  let n := fl.q.desc.count
  if hatch then (if inHatch da n then .ok da else .error (fl.d, daFault 0x0404 da))
  else if s.populated < da + n then .error (fl.d, daFault 0x0404 da)
  else if fl.q.desc.fn = 1 then atCycle fl.d (s.binAddress da n fl.q.sb.toNat)
  else .ok da

/-- The cycles that a bin-relative transfer adds (R339). -/
def binLag (fl : InFlight) : Nat := if fl.q.desc.fn = 1 then 34 else 0

/-- The Hatch port of a beat, in the cycle in which it reaches the hub (R145). -/
def hatchPort (da t : Nat) : List (Nat × Nat) := [(t, 0xB10 + (da - hatchBase) / 512 % 4)]

/-- Insert a request in order of its arrival (DEDUCED, log entry 46). -/
def insertRequest (r : Nat × Nat) : List (Nat × Nat) → List (Nat × Nat)
  | [] => [r]
  | q :: t => if r.1 < q.1 then r :: q :: t else q :: insertRequest r t

/-- A beat at a device address enters the request tables of the sixteen controllers of its group, with its row, at its arrival cycle (R158, R159,
R340) (DEDUCED, log entry 46). -/
def requestBeat (s : State) (b : Nat × Nat) : State :=
  match findZone s.cellar.zones b.2 with
  | none => s
  | some (z, o) =>
    let g := z.groups.getD (o / 512 % z.groups.length) 0
    (List.range 16).foldl (fun m j =>
      match m.daPlace (b.2 / 512 * 512 + 32 * j) with
      | some (_, a, _) =>
        let k := (s.healthyPcs z.mio).getD (16 * g + j) 0
        let x := m.ctl k
        m.setCtl k { x with requests := insertRequest (b.1, m.remapSector k a / 1024) x.requests }
      | none => m) s

/-- XCRD: cellar bytes into staging (R138, R159). A beat that holds an uncorrectable sector faults in the cycle in which it becomes
readable (R171). -/
def execXcrd (c : Nat) (s : State) : Out :=
  onEngine c .sx 0x34 s fun s k fl => do
    let d := fl.q.desc
    let (sp, a) ← operand fl d.opnd0 fl.q.base0 d.count
    let da ← transferAddress s fl false
    let lam := s.lambda c (s.daSite fl.q.da)
    let ready := fun i => fl.d + 2 * lam + binLag fl + cellarC + i
    let ps := piecesOf 0 d.count 512
    match ps.find? (fun p => (s.firstBad (da + p.2.1) p.2.2).isSome) with
    | some p => throw (ready p.1, daFault 0x0406 ((s.firstBad (da + p.2.1) p.2.2).getD 0))
    | none =>
      return { core := k,
               pends := ps.map fun p =>
                 inFlight fl.q.pc sp c (a + p.2.1) ((settleDevices s (fl.d + lam + binLag fl + p.1)).cellarRead (da + p.2.1) p.2.2) (ready p.1),
               paths := ps.map fun p => (ready p.1, 0xA80 + 2 * (c / 1280) + 1),
               post := fun m => ps.foldl (fun m p => requestBeat m (fl.d + lam + p.1, da + p.2.1)) m }

/-- XCWR: staging bytes into a cellar, written by the WR commands two cycles after each beat's arrival (R138, R159). -/
def execXcwr (c : Nat) (s : State) : Out :=
  onEngine c .sx 0x35 s fun s k fl => do
    let d := fl.q.desc
    let (sp, a) ← operand fl d.opnd0 fl.q.base0 d.count
    let da ← transferAddress s fl false
    let lam := s.lambda c (s.daSite fl.q.da)
    let ps := piecesOf 0 d.count 512
    return { core := k,
             pends := ps.map fun p =>
               inFlight fl.q.pc .cellar c (da + p.2.1) (k.load sp (a + p.2.1) p.2.2 (fl.d + p.1)) (fl.d + lam + binLag fl + 2 + p.1),
             paths := ps.map fun p => (fl.d + p.1, 0xA80 + 2 * (c / 1280)),
             post := fun m => ps.foldl (fun m p => requestBeat m (fl.d + lam + p.1, da + p.2.1)) m }

/-- XHRD: Hatch bytes into staging (R138, R145). -/
def execXhrd (c : Nat) (s : State) : Out :=
  onEngine c .sx 0x36 s fun s k fl => do
    let d := fl.q.desc
    let (sp, a) ← operand fl d.opnd0 fl.q.base0 d.count
    let da ← transferAddress s fl true
    let lam := s.lambda c 0
    let ready := fun i => fl.d + 2 * lam + 20 + i
    let ps := piecesOf 0 d.count 512
    return { core := k,
             pends := ps.map fun p => inFlight fl.q.pc sp c (a + p.2.1)
               (readBytes (settleDevices s (fl.d + lam + p.1)).hatch.bytes (da - hatchBase + p.2.1) p.2.2) (ready p.1),
             paths := ps.flatMap fun p => (ready p.1, 0xA80 + 2 * (c / 1280) + 1) :: hatchPort (da + p.2.1) (fl.d + lam + p.1) }

/-- XHWR: staging bytes into the Hatch, readable there 20 cycles after each beat's arrival (R138, R145). -/
def execXhwr (c : Nat) (s : State) : Out :=
  onEngine c .sx 0x37 s fun s k fl => do
    let d := fl.q.desc
    let (sp, a) ← operand fl d.opnd0 fl.q.base0 d.count
    let da ← transferAddress s fl true
    let lam := s.lambda c 0
    let ps := piecesOf 0 d.count 512
    return { core := k,
             pends := ps.map fun p => inFlight fl.q.pc .hatch c (da - hatchBase + p.2.1)
               (k.load sp (a + p.2.1) p.2.2 (fl.d + p.1)) (fl.d + lam + 20 + p.1),
             paths := ps.flatMap fun p => (fl.d + p.1, 0xA80 + 2 * (c / 1280)) :: hatchPort (da + p.2.1) (fl.d + lam + p.1) }

/-! ### Overlays (R66) -/

/-- The pages in use (R66): that of the instruction in issue, and those of the descriptors of queued commands (DEDUCED, log entry 29). -/
def Core.pagesInUse (k : Core) : List Nat :=
  (if k.ended then [] else [k.pc / 96]) ++ (k.mx.queue ++ k.vx.queue ++ k.sx.queue ++ k.nx.queue).map (fun q => q.daddr / 96)

/-- XOVL: whole code-shelf pages from staging; page `i` is ready at D + 12 × (i + 1) + 1 (R66, R138). A page in use raises 0x0107 and is not written
(DEDUCED, log entry 29). -/
def execXovl (c : Nat) (s : State) : Out :=
  onEngine c .sx 0x38 s fun _ k fl => do
    let d := fl.q.desc
    let (sp, a) ← operand fl d.opnd0 fl.q.base0 (768 * d.count)
    match (List.range d.count).find? (fun i => k.pagesInUse.contains (d.fn + i)) with
    | some i => throw (fl.d + 12 * (i + 1), { reason := 0x0107, object := obj 6 (d.fn + i) })
    | none =>
      return { core := k,
               pends := (List.range d.count).map fun i =>
                 inFlight fl.q.pc .code c (96 * (d.fn + i)) (k.load sp (a + 768 * i) 768 (fl.d + 12 * i + 1)) (fl.d + 12 * (i + 1) + 1) }

/-! ### Stream prefetch programs (R166 to R168) -/

/-- The number of cycles in which an element is written to its destination (R167). -/
def StreamProg.writeCycles (p : StreamProg) : Nat := (if p.destAttic then 8 else 16) * p.beats

/-- The issue cycle of element `e` (R167). -/
def StreamProg.issue (p : StreamProg) (e : Nat) : Nat := p.start + e * p.period

/-- The device address of element `e`, modulo 2^48 (R167). -/
def StreamProg.elemDa (p : StreamProg) (e : Nat) : Nat := wrap 48 ((p.da : Int) + (e : Int) * p.stride)

/-- The ready cycle of an element issued at `t` (R167). -/
def StreamProg.readyAt (p : StreamProg) (lam t : Nat) : Nat := t + 2 * lam + cellarC + p.beats + p.writeCycles

/-- The destination offset of element `e` (R167); `RING` 0 means no wrap. -/
def StreamProg.destOf (p : StreamProg) (e : Nat) : Nat :=
  let o := e * 512 * p.beats
  p.dest + (if p.ring = 0 then o else o % (32 * p.ring))

/-- The program of header number `n` read from its 32 bytes, started by a command dispatched at `d` (R166, R167). -/
def streamHeader (n pc d : Nat) (h : List Byte) : StreamProg :=
  { num := n, pc, start := d + 1 + le h 28 2, next := 0, readyNext := 0, destAttic := bit (le h 1 1) 0, setFlag := bit (le h 1 1) 1,
    flag := bits (le h 2 1) 5 0, stage := bits (le h 3 1) 2 0, da := le h 4 6, stride := sext 32 (le h 12 4), dest := le h 16 4,
    ring := le h 20 2, beats := le h 22 2, count := le h 24 2, period := le h 26 2 }

/-- XSTREAM: starts stream prefetch program `COUNT` (R166, R168). -/
def execXstream (c : Nat) (s : State) : Out :=
  onEngine c .sx 0x39 s fun s k fl => do
    let n := fl.q.desc.count
    let a := 0x17E00 + 32 * (n - 1)
    let h := k.load .attic a 32 (fl.d + 1)
    if le h 0 1 ≠ 1 then throw (fl.d + 1, { reason := 0x0305, detail := le h 0 1 })
    if k.progs.any (fun p => p.num == n) || decide (4 ≤ k.progs.length) then throw (fl.d, { reason := 0x0307, detail := n })
    let p := streamHeader n fl.q.pc fl.d h
    let late := (List.range p.count).find? fun e =>
      decide (s.frame.e ≤ p.readyAt (s.lambda c (s.daSite (p.elemDa e))) (p.issue e))
    if late.isSome then throw (fl.d, { reason := 0x0105, object := 0 })
    return { core := { k with progs := k.progs ++ (if p.count = 0 then [] else [p]) },
             uses := usesOf 3 fl.q.pc .attic a 32 (fl.d + 1) }

/-- Replace a running program of a core. -/
def Core.setProg (k : Core) (p : StreamProg) : Core :=
  { k with progs := k.progs.map (fun q => if q.num = p.num then p else q) }

/-- The effect of the issue of the next element of a program (R167): its beats, the writes of its destination and its flag. -/
def streamEffect (s : State) (c : Nat) (k : Core) (p : StreamProg) : CRes CmdEff := do
  let t := p.issue p.next
  let da := p.elemDa p.next
  let n := 512 * p.beats
  if s.populated < da + n then throw (t, daFault 0x0404 da)
  let lam := s.lambda c (s.daSite da)
  let arrive := t + 2 * lam + cellarC
  let sp : Space := if p.destAttic then .attic else .shelf
  let dst := p.destOf p.next
  if spaceSize sp < dst + n then throw (t, { reason := 0x0404, detail := dst })
  match (List.range p.beats).find? (fun i => (s.firstBad (da + 512 * i) 512).isSome) with
  | some i => throw (arrive + i, daFault 0x0406 ((s.firstBad (da + 512 * i) 512).getD 0))
  | none =>
    let beat := fun i => (settleDevices s (t + lam + i)).cellarRead (da + 512 * i) 512
    let data := (List.range p.beats).flatMap beat
    let ready := p.readyAt lam t
    let staging := (List.range p.beats).map fun i => inFlight p.pc .staging c (512 * (p.stage + i) % 4096) (beat i) (arrive + i)
    let out := { inFlight p.pc sp c dst data ready with flag := if p.setFlag then some p.flag else none }
    let w := if p.destAttic then 64 else 32
    return { core := k.setProg { p with next := p.next + 1 },
             pends := staging ++ [out],
             uses := (piecesOf dst n w).flatMap (fun q => usesOf 3 p.pc sp q.2.1 q.2.2 (arrive + p.beats + q.1)),
             paths := (List.range p.beats).map (fun i => (arrive + i, 0xA80 + 2 * (c / 1280) + 1)),
             post := fun m => (List.range p.beats).foldl (fun m i => requestBeat m (t + lam + i, da + 512 * i)) m }

/-- STREAM_ELEMENT: the next element of program `prog` issues in its cycle (R167, R168). -/
def execStreamElement (c prog : Nat) (s : State) : Out :=
  onCore c s fun s =>
    match (s.core c).progs.find? (fun p => p.num == prog) with
    | none => s
    | some p =>
      let t := p.issue p.next
      if p.count ≤ p.next ∨ s.cycling = false ∨ (s.core c).halted = true ∨ s.heldFrom ≤ t then s
      else
        let s1 := settle s c t
        let fl : InFlight := { q := { desc := { cop := 0x39, eng := 2 }, pc := p.pc }, d := t }
        match streamEffect s1 c (s1.core c) p with
        | .error (t', r) => raiseCore s1 c 3 p.pc t' r
        | .ok g => applyCmd s1 c .sx fl g

/-- STREAM_ELEMENT_READY: the oldest issued element of program `prog` becomes readable at its destination and its flag is set; the
program is no longer running once its last element is (R167, R168). -/
def execStreamElementReady (c prog : Nat) (s : State) : Out :=
  onCore c s fun s =>
    match (s.core c).progs.find? (fun p => p.num == prog) with
    | none => s
    | some p =>
      let t := p.readyAt (s.lambda c (s.daSite (p.elemDa p.readyNext))) (p.issue p.readyNext)
      if p.next ≤ p.readyNext ∨ s.cycling = false ∨ (s.core c).halted = true ∨ s.heldFrom ≤ t then s
      else
        let s1 := settle s c (t + 1)
        let k := s1.core c
        if p.readyNext + 1 = p.count then s1.setCore c { k with progs := k.progs.filter (fun q => q.num != p.num) }
        else s1.setCore c (k.setProg { p with readyNext := p.readyNext + 1 })

end Sys2Proof.Machine
end

