-- ==== Sys2Proof/Machine/Elementary.lean ====
section
/-! DEFINITION. The elementary functions of the VX, correctly rounded (R111, R112): each is evaluated in fixed point with 512
bits after the point, far beyond the closest that a value of a 32- or 16-bit argument comes to a rounding boundary, and its
exact cases are taken apart first (DEDUCED, log entry 20). -/

namespace Sys2Proof.Machine

/-- The bits after the point (DEDUCED, log entry 20). -/
def fxBits : Nat := 512

/-- One in fixed point. -/
def fxOne : Nat := 2 ^ fxBits

/-- The sum of x^(2i+1)/(2i+1) for x = 1/d, terms until fuel ends (atanh 1/d); alternating for atan. -/
def seriesInv (d : Nat) (alt : Bool) : Nat → Nat → Nat → Int → Int
  | 0, _, _, acc => acc
  | fuel + 1, i, pow, acc =>
    let t : Int := ((pow / (2 * i + 1) : Nat) : Int)
    seriesInv d alt fuel (i + 1) (pow / (d * d)) (if alt && i % 2 == 1 then acc - t else acc + t)

/-- ln 2 = 2 atanh (1/3). -/
def fxLn2 : Int := 2 * seriesInv 3 false 200 0 (fxOne / 3) 0

/-- π with 768 bits after the point: 16 atan (1/5) − 4 atan (1/239). -/
def fxPi768 : Int :=
  16 * seriesInv 5 true 200 0 (2 ^ 768 / 5) 0 - 4 * seriesInv 239 true 80 0 (2 ^ 768 / 239) 0

/-- The series Σ r^i / i! from the term `t` of index `i`. -/
def expSeries (r : Int) : Nat → Nat → Int → Int → Int
  | 0, _, _, acc => acc
  | fuel + 1, i, t, acc =>
    let t' := t * r / (2 ^ fxBits : Nat) / (i : Int)
    expSeries r fuel (i + 1) t' (acc + t')

/-- A dyadic number in fixed point, rounded down. -/
def toFx (neg : Bool) (m : Nat) (e : Int) : Int :=
  let p := e + fxBits
  let u : Nat := if 0 ≤ p then m * 2 ^ p.toNat else m / 2 ^ (-p).toNat
  if neg then -(u : Int) else u

/-- e^y for y in fixed point, as a fixed-point mantissa and a power of two (DEDUCED, log entry 20). -/
def expFx (y : Int) : Int × Int :=
  let k := y / fxLn2
  let r := y - k * fxLn2
  (expSeries r 130 1 (fxOne : Int) (fxOne : Int), k)

/-- A positive fixed-point number times 2^k as a value that lies strictly above it. -/
def fxVal (neg : Bool) (v : Int) (k : Int) : Val := .fin neg v.natAbs (k - fxBits) true

/-- The series of atanh z for z in fixed point (DEDUCED, log entry 20). -/
def atanhSeries (z2 : Int) : Nat → Nat → Int → Int → Int
  | 0, _, _, acc => acc
  | fuel + 1, i, p, acc => atanhSeries z2 fuel (i + 1) (p * z2 / (2 ^ fxBits : Nat)) (acc + p / (2 * (i : Int) + 1))

/-- ln of m × 2^e, m > 0, in fixed point (DEDUCED, log entry 20). -/
def logFx (m : Nat) (e : Int) : Int :=
  let l := m.log2
  let x : Int := ((m * 2 ^ fxBits / 2 ^ l : Nat) : Int)
  let z := (x - fxOne) * (fxOne : Int) / (x + fxOne)
  2 * atanhSeries (z * z / (fxOne : Int)) 180 0 z 0 + (e + l) * fxLn2

/-- The remainder of |x| = m × 2^e by π/2 and the quotient modulo 4, in fixed point. -/
def reduceHalfPi (m : Nat) (e : Int) : Int × Nat :=
  let half := fxPi768 / 2
  let p := e + 768
  let u : Int := if 0 ≤ p then ((m * 2 ^ p.toNat : Nat) : Int) else ((m / 2 ^ (-p).toNat : Nat) : Int)
  let q := u / half
  ((u - q * half) / (2 ^ 256 : Nat), (q % 4).toNat)

/-- The alternating series of sine (from term x) or cosine (from term 1) (DEDUCED, log entry 20). -/
def trigSeries (r2 : Int) : Nat → Nat → Int → Int → Int
  | 0, _, _, acc => acc
  | fuel + 1, i, t, acc =>
    let t' := -(t * r2 / (2 ^ fxBits : Nat) / ((i : Int) * (i + 1)))
    trigSeries r2 fuel (i + 2) t' (acc + t')

/-- sin of a reduced argument in fixed point. -/
def sinFx (r : Int) : Int := trigSeries (r * r / (2 ^ fxBits : Nat)) 90 2 r r

/-- cos of a reduced argument in fixed point. -/
def cosFx (r : Int) : Int := trigSeries (r * r / (2 ^ fxBits : Nat)) 90 1 (fxOne : Int) (fxOne : Int)

/-- A value of sine or cosine from a signed fixed-point number. -/
def trigVal (v : Int) : Val := fxVal (decide (v < 0)) v 0

/-- sin (which = 0) or cos (which = 1) of a finite nonzero value: the quadrant of |x| picks the series and the sign. -/
def trig (which : Nat) (neg : Bool) (m : Nat) (e : Int) : Val :=
  let (r, q) := reduceHalfPi m e
  let n := (q + which) % 4
  let v := if n = 0 then sinFx r else if n = 1 then cosFx r else if n = 2 then -sinFx r else -cosFx r
  trigVal (if which = 0 && neg then -v else v)

/-- The integer square root by bisection bits. -/
def isqrtLoop (n : Nat) : Nat → Nat → Nat
  | 0, r => r
  | b + 1, r =>
    let c := r + 2 ^ b
    isqrtLoop n b (if c * c ≤ n then c else r)

/-- floor (sqrt n). -/
def isqrt (n : Nat) : Nat := isqrtLoop n (n.log2 / 2 + 1) 0

/-- The square root of a positive dyadic number, 64 bits and a mark for the rest. -/
def sqrtVal (m : Nat) (e : Int) : Val :=
  let ev := if e % 2 = 0 then (m, e) else (2 * m, e - 1)
  let n := ev.1 * 2 ^ 128
  let r := isqrt n
  .fin false r ((ev.2 - 128) / 2) (r * r != n)

/-- The reciprocal square root of a positive dyadic number: sqrt (2^(2k) / x). -/
def rsqrtVal (m : Nat) (e : Int) : Val :=
  let ev := if e % 2 = 0 then (m, e) else (2 * m, e - 1)
  let n := 2 ^ 256
  let r := isqrt (n / ev.1)
  .fin false r (-(ev.2 / 2) - 128) (r * r * ev.1 != n)

/-- The magnitude below which exp, sigmoid and tanh are at their limits for every supported format. -/
def farOut (m : Nat) (e : Int) : Bool := decide (9 < expo m e)

/-- An elementary function of `VFN` (R111, R112), exact but for a mark (DEDUCED, log entry 20). -/
def elemVal (fn : Nat) (x : Val) : Val :=
  match x with
  | .nan => .nan
  | .inf n =>
    match fn with
    | 0 => .fin n 0 0 false
    | 1 => if n then .nan else .inf false
    | 2 => if n then .nan else .fin false 0 0 false
    | 3 | 4 => if n then .fin false 0 0 false else .inf false
    | 5 | 6 => if n then .nan else .inf false
    | 7 => .fin n 1 0 false
    | 8 => if n then .fin false 0 0 false else .fin false 1 0 false
    | _ => .nan
  | .fin n m e _ =>
    if m = 0 then
      match fn with
      | 0 | 2 => .inf n
      | 1 | 7 | 9 => .fin n 0 0 false
      | 3 | 4 | 10 => .fin false 1 0 false
      | 5 | 6 => .inf true
      | _ => .fin false 1 (-1) false
    else
      match fn with
      | 0 => divVal (.fin false 1 0 false) (.fin n m e false)
      | 1 => if n then .nan else sqrtVal m e
      | 2 => if n then .nan else rsqrtVal m e
      | 3 =>
        if farOut m e then (if n then .fin false 1 (-400) true else .fin false 1 400 true)
        else
          let (v, k) := expFx (toFx n m e)
          fxVal false v k
      | 4 =>
        if farOut m e then (if n then .fin false 1 (-400) true else .fin false 1 400 true)
        else
          let y := toFx n m e
          let k := y / (fxOne : Int)
          let r := y - k * (fxOne : Int)
          if 0 ≤ e ∨ m % 2 ^ (-e).toNat = 0 then .fin false 1 k false
          else
            let (v, j) := expFx (r * fxLn2 / (fxOne : Int))
            fxVal false v (k + j)
      | 5 =>
        if n then .nan
        else
          let v := logFx m e
          if m = 2 ^ m.log2 ∧ e + m.log2 = 0 then .fin false 0 0 false else fxVal (decide (v < 0)) v 0
      | 6 =>
        if n then .nan
        else if m = 2 ^ m.log2 then .fin (decide (e + m.log2 < 0)) (e + m.log2).natAbs 0 false
        else
          let v := logFx m e * (fxOne : Int) / fxLn2
          fxVal (decide (v < 0)) v 0
      | 7 =>
        if farOut m e then .fin n (2 ^ 100 - 1) (-100) true
        else
          let (v, k) := expFx (2 * toFx false m e)
          let u := v * ((2 ^ k.toNat : Nat) : Int)
          fxVal n ((u - fxOne) * (fxOne : Int) / (u + fxOne)) 0
      | 8 =>
        if farOut m e then (if n then .fin false 1 (-400) true else .fin false (2 ^ 100 - 1) (-100) true)
        else
          let (v, k) := expFx (toFx false m e)
          let u := v * ((2 ^ k.toNat : Nat) : Int)
          if n then fxVal false ((fxOne : Int) * fxOne / (u + fxOne)) 0
          else fxVal false (u * (fxOne : Int) / (u + fxOne)) 0
      | 9 => trig 0 n m e
      | _ => trig 1 n m e

/-- An elementary function of an encoded element of binary32 or BF16, rounded to nearest even (R111). -/
def elemCode (fmt fn code : Nat) : Nat := encodeIeee fmt 0 false 0 (elemVal fn (decodeVal fmt code))

end Sys2Proof.Machine
end

