-- ==== Sys2Proof/Machine/Vx.lean ====
section
/-! DEFINITION. The VX commands (R109 to R117, R129, R136, R137, R533). -/

namespace Sys2Proof.Machine

open Sys2Proof

/-! ### Lanes (R533) -/

/-- The number of lanes. -/
def laneCount (w : Bool) : Nat := if w then 8 else 16

/-- Lane `i` of a register. -/
def laneOf (w : Bool) (v : BitVec 256) (i : Nat) : Nat := elemOf v.toNat (if w then 32 else 16) i

/-- The lanes of a register. -/
def lanes (w : Bool) (v : BitVec 256) : List Nat := (List.range (laneCount w)).map (laneOf w v)

/-- A register of lanes. -/
def packVec (w : Bool) (xs : List Nat) : BitVec 256 := BitVec.ofNat 256 (packNat (if w then 32 else 16) xs)

/-- The merge of R129: lanes whose predicate bit is 0 keep the old value. -/
def mergeLanes (w : Bool) (pred : BitVec 16) (old new : BitVec 256) : BitVec 256 :=
  packVec w ((List.range (laneCount w)).map fun i => if bit pred.toNat i then laneOf w new i else laneOf w old i)

/-- A vector result into `VD`: with a predicate other than p0 the old value is read and merged (R129). -/
def vecResult (k : Core) (fl : InFlight) (w : Bool) (v : BitVec 256) : CRes Core := do
  let d := fl.q.desc
  if d.pred = 0 then return k.setVreg d.vd v
  else
    let old ← atCycle (fl.d + 1) (k.readV d.vd (fl.d + 1))
    return k.setVreg d.vd (mergeLanes w fl.q.pred old v)

/-- A vector source read at D + 1 (R136). -/
def vsrc (k : Core) (fl : InFlight) (n : Nat) : CRes (BitVec 256) := atCycle (fl.d + 1) (k.readV n (fl.d + 1))

/-! ### Loads and stores -/

/-- VLD: 32 bytes into `VD` (R130, R136). -/
def execVld (c : Nat) (s : State) : Out :=
  onEngine c .vx 0x10 s fun _ k fl => do
    let d := fl.q.desc
    let (sp, a) ← operand fl d.opnd0 fl.q.base0 32
    let v := BitVec.ofNat 256 (ofLe (k.load sp a 32 (fl.d + 1)))
    let k' ← vecResult k fl (wide d) v
    return { core := k', uses := usesOf 2 fl.q.pc sp a 32 (fl.d + 1) }

/-- VST: 32 bytes of `VA`, of the lanes whose predicate bit is 1 (R129, R130). -/
def execVst (c : Nat) (s : State) : Out :=
  onEngine c .vx 0x11 s fun _ k fl => do
    let d := fl.q.desc
    let (sp, a) ← operand fl d.opnd0 fl.q.base0 32
    let v ← vsrc k fl d.va
    let n := if wide d then 4 else 2
    let on := (List.range (laneCount (wide d))).filter (fun i => d.pred == 0 || bit fl.q.pred.toNat i)
    let writes := on.map fun i => ({ space := sp, core := c, addr := a + n * i, bytes := leBytes n (laneOf (wide d) v i) } : MemWrite)
    let p : Pending := { unit := 2, pc := fl.q.pc, ready := fl.d + (if sp = .attic then 5 else 3), writes }
    return { core := k, pends := [p], uses := usesOf 2 fl.q.pc sp a 32 (fl.d + 2) }

/-! ### Element-wise arithmetic (R109) -/

/-- A lane-wise command on the exact values of two sources in format `FMTA`. -/
def vecOp (f : Desc → Val → Val → Val → Val) (third : Bool) (k : Core) (fl : InFlight) : CRes CmdEff := do
  let d := fl.q.desc
  let w := d.fmta == 0xA
  let a ← vsrc k fl d.va
  let b ← vsrc k fl d.vb
  let e ← if third then vsrc k fl d.vd else pure 0
  let dec := fun v i => decodeVal d.fmta (laneOf w v i)
  let out := (List.range (laneCount w)).map fun i => encodeIeee d.fmta d.rnd false 0 (f d (dec a i) (dec b i) (dec e i))
  let k' ← vecResult k fl w (packVec w out)
  return { core := k' }

/-- VADD (R109). -/
def execVadd (c : Nat) (s : State) : Out :=
  onEngine c .vx 0x12 s fun _ k fl => vecOp (fun d a b _ => addVal d.rnd a b) false k fl

/-- VSUB (R109). -/
def execVsub (c : Nat) (s : State) : Out :=
  onEngine c .vx 0x13 s fun _ k fl => vecOp (fun d a b _ => addVal d.rnd a (negVal b)) false k fl

/-- VMUL (R109). -/
def execVmul (c : Nat) (s : State) : Out := onEngine c .vx 0x14 s fun _ k fl => vecOp (fun _ a b _ => mulVal a b) false k fl

/-- VFMA: `VA` × `VB` + `VD`, rounded once (R109, R130). -/
def execVfma (c : Nat) (s : State) : Out :=
  onEngine c .vx 0x15 s fun _ k fl => vecOp (fun d a b e => addVal d.rnd (mulVal a b) e) true k fl

/-- VDIV (R109, R112). -/
def execVdiv (c : Nat) (s : State) : Out := onEngine c .vx 0x16 s fun _ k fl => vecOp (fun _ a b _ => divVal a b) false k fl

/-- VMIN (R109). -/
def execVmin (c : Nat) (s : State) : Out := onEngine c .vx 0x17 s fun _ k fl => vecOp (fun _ a b _ => minVal a b) false k fl

/-- VMAX (R109). -/
def execVmax (c : Nat) (s : State) : Out := onEngine c .vx 0x18 s fun _ k fl => vecOp (fun _ a b _ => maxVal a b) false k fl

/-- A relation of `VCMP` (R130): 0 eq, 1 ne, 2 lt, 3 le, 4 unordered. -/
def relation (rel : Nat) (a b : Val) : Bool :=
  match rel, cmpVal a b with
  | 0, o => o == some .eq
  | 1, o => o != some .eq
  | 2, o => o == some .lt
  | 3, o => o == some .lt || o == some .eq
  | _, o => o == none

/-- VCMP: the relation of each lane into predicate `FN[2:0]` (R59, R109, R130). With 8 lanes, bits 8 to 15 are written as zero. -/
def execVcmp (c : Nat) (s : State) : Out :=
  onEngine c .vx 0x19 s fun _ k fl => do
    let d := fl.q.desc
    let w := d.fmta == 0xA
    let a ← vsrc k fl d.va
    let b ← vsrc k fl d.vb
    let old ← if d.pred = 0 then pure 0 else atCycle (fl.d + 1) (k.readP (d.fn % 8) (fl.d + 1))
    let dec := fun v i => decodeVal d.fmta (laneOf w v i)
    let bitAt := fun i => if d.pred = 0 ∨ bit fl.q.pred.toNat i then relation (d.sb % 8) (dec a i) (dec b i) else bit old.toNat i
    let v := packNat 1 ((List.range (laneCount w)).map fun i => b2n (bitAt i))
    return { core := k.setPreg (d.fn % 8) (BitVec.ofNat 16 v) }

/-- SEL: each lane from `VA` where the predicate bit is 1, otherwise from `VB` (R77, R130). -/
def execSel (c : Nat) (s : State) : Out :=
  onEngine c .vx 0x1A s fun _ k fl => do
    let d := fl.q.desc
    let a ← vsrc k fl d.va
    let b ← vsrc k fl d.vb
    return { core := k.setVreg d.vd (mergeLanes (wide d) fl.q.pred b a) }

/-- VCVT: conversion of each lane from `FMTA` to `FMTD` (R105 to R107, R109, R533) (DEDUCED, log entry 25). -/
def execVcvt (c : Nat) (s : State) : Out :=
  onEngine c .vx 0x1B s fun s k fl => do
    let d := fl.q.desc
    let w := wide d
    let n := laneCount w
    let a ← vsrc k fl d.va
    let ws ← if d.rnd = 4 then do
        let g ← useContext s c fl
        pure (drawWords g c fl.q.sa.toNat (pair64 fl.q.sb fl.q.sb1) n)
      else pure []
    let out := (List.range n).map fun i =>
      encodeIeee d.fmtd d.rnd d.sat (ws.getD i 0) (decodeVal d.fmta (laneOf w a i % 2 ^ fmtBits d.fmta))
    let k' ← vecResult k fl w (packVec w out)
    return { core := k', paths := generatorUse c fl }

/-- VFN: an elementary function of each lane, correctly rounded to nearest even (R111, R112). -/
def execVfn (c : Nat) (s : State) : Out :=
  onEngine c .vx 0x1C s fun _ k fl => do
    let d := fl.q.desc
    let w := d.fmta == 0xA
    let a ← vsrc k fl d.va
    let k' ← vecResult k fl w (packVec w ((lanes w a).map (elemCode d.fmta d.fn)))
    return { core := k' }

/-! ### Anchored registers (R110, R533) -/

/-- The 128-bit content of an anchored register. -/
def ancAcc (v : BitVec 256) : BitVec 128 := v.setWidth 128

/-- The tag of an anchored register. -/
def ancTag (v : BitVec 256) : BitVec 2 := BitVec.ofNat 2 (laneOf true v 4)

/-- WEXP of an anchored register. -/
def ancWexp (v : BitVec 256) : BitVec 16 := BitVec.ofNat 16 (laneOf true v 5)

/-- H of an anchored register. -/
def ancH (v : BitVec 256) : BitVec 6 := BitVec.ofNat 6 (laneOf true v 6)

/-- An anchored register (R110): all other bits are zero. -/
def mkAnchored (acc : BitVec 128) (tag : BitVec 2) (wexp : BitVec 16) (h : BitVec 6) : BitVec 256 :=
  BitVec.ofNat 256 (acc.toNat + tag.toNat * 2 ^ 128 + wexp.toNat * 2 ^ 160 + h.toNat * 2 ^ 192)

/-- VASUM: lanes of `VA`, or the anchored register `VA`, added into the anchored register `VD` (R110, R533). -/
def execVasum (c : Nat) (s : State) : Out :=
  onEngine c .vx 0x1D s fun _ k fl => do
    let d := fl.q.desc
    let a ← vsrc k fl d.va
    let v ← vsrc k fl d.vd
    if d.fn = 1 then
      if ancWexp a ≠ ancWexp v ∨ ancH a ≠ ancH v then throw (fl.d + 1, { reason := 0x0602, object := obj 1 d.vd })
      return { core := k.setVreg d.vd (mkAnchored (ancAcc v + ancAcc a) (joinTag (ancTag v) (ancTag a)) (ancWexp v) (ancH v)) }
    else
      let w := d.fmta == 0xA
      let on := (List.range (laneCount w)).filter (fun i => d.pred == 0 || bit fl.q.pred.toNat i)
      let p := on.foldl (fun (p : Partial) i => p.add (ancWexp v).toInt (ancH v).toNat (decodeVal d.fmta (laneOf w a i))) {}
      if p.breach then throw (fl.d + 1, { reason := 0x0601, object := obj 1 d.vd })
      return { core := k.setVreg d.vd (mkAnchored (ancAcc v + BitVec.ofInt 128 p.sum) (joinTag (ancTag v) p.tag) (ancWexp v) (ancH v)) }

/-- VAINIT: an empty anchored register with WEXP and H from s(`SA`) (R110, R533). -/
def execVainit (c : Nat) (s : State) : Out :=
  onEngine c .vx 0x1E s fun _ k fl =>
    .ok { core := k.setVreg fl.q.desc.vd
            (mkAnchored 0 0 (fl.q.sa.setWidth 16) (BitVec.ofNat 6 (bits fl.q.sa.toNat 21 16))) }

/-- VACVT: an anchored register rounded once into lane 0 of `VD` (R110, R533). -/
def execVacvt (c : Nat) (s : State) : Out :=
  onEngine c .vx 0x1F s fun _ k fl => do
    let d := fl.q.desc
    let a ← vsrc k fl d.va
    let t : Tile := { acc := spSet 0 [] 0 (ancAcc a), tags := spSet 0 [] 0 (ancTag a), wexp := ancWexp a }
    return { core := k.setVreg d.vd (BitVec.ofNat 256 (encodeVal d.fmtd d.rnd d.sat 0 false (t.value 0))) }

/-! ### Scalar results and others -/

/-- The lanes that the predicate selects, with their numbers. -/
def selected (w : Bool) (pred : BitVec 16) (v : BitVec 256) : List (Nat × Nat) :=
  ((List.range (laneCount w)).filter (fun i => bit pred.toNat i)).map (fun i => (i, laneOf w v i))

/-- VMAXE: the largest e(x) of the selected finite nonzero lanes into s(`SA`) (R100, R533). -/
def execVmaxe (c : Nat) (s : State) : Out :=
  onEngine c .vx 0x20 s fun _ k fl => do
    let d := fl.q.desc
    let a ← vsrc k fl d.va
    let best := (selected (d.fmta == 0xA) fl.q.pred a).foldl (fun b p => maxOpt b (valExpo (decodeVal d.fmta p.2))) (-32768)
    return { core := k.setSreg d.sa (clamp16 best) }

/-- Whether value `a` comes strictly before `b` in the order of R114: numbers from large to small, NaN last. -/
def before (a b : Val) : Bool :=
  match cmpVal a b with
  | some o => o == .gt
  | none => a != .nan && b == .nan

/-- The index of the first of a list of lanes in the order of R114. -/
def argmax (fmt : Nat) : List (Nat × Nat) → Option (Nat × Nat)
  | [] => none
  | p :: t => match argmax fmt t with
    | none => some p
    | some q => if before (decodeVal fmt q.2) (decodeVal fmt p.2) then some q else some p

/-- VARGMAX: the index of the first selected lane in the order of R114 into s(`SA`); all ones if none is selected (R533). -/
def execVargmax (c : Nat) (s : State) : Out :=
  onEngine c .vx 0x21 s fun _ k fl => do
    let d := fl.q.desc
    let a ← vsrc k fl d.va
    let i := match argmax d.fmta (selected (d.fmta == 0xA) fl.q.pred a) with
      | some p => p.1
      | none => 0xFFFFFFFF
    return { core := k.setSreg d.sa (BitVec.ofNat 32 i) }

/-- VMOVS: lane `FN` of `VA` into s(`SA`); the predicate is ignored (R130, R533). -/
def execVmovs (c : Nat) (s : State) : Out :=
  onEngine c .vx 0x22 s fun _ k fl => do
    let d := fl.q.desc
    let a ← vsrc k fl d.va
    return { core := k.setSreg d.sa (BitVec.ofNat 32 (laneOf (wide d) a d.fn)) }

/-- VBCAST: s(`SA`) into every lane of `VD` (R130). -/
def execVbcast (c : Nat) (s : State) : Out :=
  onEngine c .vx 0x23 s fun _ k fl => do
    let w := wide fl.q.desc
    let k' ← vecResult k fl w (packVec w (List.replicate (laneCount w) fl.q.sa.toNat))
    return { core := k' }

/-- DRAW: `COUNT` words of stream s(`SA`) from the word offset in s(`SB`) and the next register, into 32-bit lanes; the others are
zero (R117, R130, R533). -/
def execDraw (c : Nat) (s : State) : Out :=
  onEngine c .vx 0x24 s fun s k fl => do
    let d := fl.q.desc
    let g ← useContext s c fl
    let ws := drawWords g c fl.q.sa.toNat (pair64 fl.q.sb fl.q.sb1) d.count
    let k' ← vecResult k fl true (packVec true ws)
    return { core := k', paths := generatorUse c fl }

end Sys2Proof.Machine
end

