-- ==== Sys2Proof/Machine/Issue.lean ====
section
/-! DEFINITION. From code to commands (R121, R122, R126, R130): the sequencer instruction of a code-shelf word, and the engine command of a
descriptor, for the loader's simulation (R296). -/

namespace Sys2Proof.Machine

open Sys2Proof

/-- The five-bit register field of a word that ends at bit `lo` (R121). -/
def regField (w lo : Nat) : Fin 32 := ⟨w / 2 ^ lo % 32, Nat.mod_lt _ (by decide)⟩

/-- The opcode of a word. -/
def opcOf (w : Nat) : Nat := w / 2 ^ 56 % 256

/-- Issue of the instruction of a word of form R by core `c`. -/
def issueR (c w : Nat) (s : State) : Out :=
  let rd := regField w 51
  let ra := regField w 46
  let rb := regField w 41
  match opcOf w with
  | 0x10 => execAdd c rd ra rb s
  | 0x11 => execSub c rd ra rb s
  | 0x12 => execAnd c rd ra rb s
  | 0x13 => execOr c rd ra rb s
  | 0x14 => execXor c rd ra rb s
  | 0x15 => execShl c rd ra rb s
  | 0x16 => execShr c rd ra rb s
  | 0x17 => execSra c rd ra rb s
  | 0x18 => execMul c rd ra rb s
  | 0x19 => execMulhu c rd ra rb s
  | 0x1A => execMin c rd ra rb s
  | 0x1B => execMax c rd ra rb s
  | 0x1C => execSlt c rd ra rb s
  | 0x1D => execSltu c rd ra rb s
  | 0x1E => execSeq c rd ra rb s
  | 0x1F => execCsel c rd ra rb s
  | 0x32 => execRdid c rd s
  | 0x45 => execPset c rd ra s
  | 0x46 => execPget c rd ra s
  | _ => execIllegalOpcode c (BitVec.ofNat 8 (opcOf w)) s

/-- Issue of the instruction of a word of form I, else of form R. -/
def issueI (c w : Nat) (s : State) : Out :=
  let rd := regField w 51
  let ra := regField w 46
  let bankm := BitVec.ofNat 8 (bits w 39 32)
  let imm := BitVec.ofNat 32 w
  match opcOf w with
  | 0x20 => execAddi c rd ra imm s
  | 0x22 => execAndi c rd ra imm s
  | 0x23 => execOri c rd ra imm s
  | 0x24 => execXori c rd ra imm s
  | 0x25 => execShli c rd ra imm s
  | 0x26 => execShri c rd ra imm s
  | 0x27 => execSrai c rd ra imm s
  | 0x28 => execMuli c rd ra imm s
  | 0x29 => execLi c rd imm s
  | 0x30 => execLds c rd ra bankm imm s
  | 0x31 => execSts c rd ra bankm imm s
  | 0x33 => execTget c rd imm s
  | 0x40 => execWaitf c imm s
  | 0x41 => execSetf c imm s
  | 0x42 => execClrf c imm s
  | 0x43 => execChka c imm s
  | 0x44 => execClra c imm s
  | 0x50 => execGload c ra bankm imm s
  | 0x51 => execGstep c ra imm s
  | _ => issueR c w s

/-- Issue of the instruction of a word: forms C and Q, else I or R (R121, R122). -/
def issueWord (c w : Nat) (s : State) : Out :=
  let cond := regField w 51
  let len := bits w 50 40
  let tgt := bits w 26 16
  let cnt := bits w 15 0
  match opcOf w with
  | 0x00 => execNop c s
  | 0x01 => execFrameEnd c s
  | 0x02 => execLoop c len cnt s
  | 0x03 => execBrb c cond len tgt cnt s
  | 0x04 => execJmp c tgt s
  | 0x05 => execSkip c cond len s
  | 0x06 => execCall c tgt s
  | 0x07 => execRet c s
  | 0x60 => execEnq c (bits w 55 45) s
  | _ => issueI c w s

/-- Execution of an SX or NX command by its opcode. -/
def runTransfer (c cop : Nat) (s : State) : Out :=
  match cop with
  | 0x30 => execGather c s
  | 0x31 => execScatter c s
  | 0x32 => execXmov c s
  | 0x33 => execXput c s
  | 0x34 => execXcrd c s
  | 0x35 => execXcwr c s
  | 0x36 => execXhrd c s
  | 0x37 => execXhwr c s
  | 0x38 => execXovl c s
  | 0x39 => execXstream c s
  | 0x40 => execPost c s
  | _ => execNclra c s

/-- Execution of a VX command by its opcode. -/
def runVector (c cop : Nat) (s : State) : Out :=
  match cop with
  | 0x10 => execVld c s
  | 0x11 => execVst c s
  | 0x12 => execVadd c s
  | 0x13 => execVsub c s
  | 0x14 => execVmul c s
  | 0x15 => execVfma c s
  | 0x16 => execVdiv c s
  | 0x17 => execVmin c s
  | 0x18 => execVmax c s
  | 0x19 => execVcmp c s
  | 0x1A => execSel c s
  | 0x1B => execVcvt c s
  | 0x1C => execVfn c s
  | 0x1D => execVasum c s
  | 0x1E => execVainit c s
  | 0x1F => execVacvt c s
  | 0x20 => execVmaxe c s
  | 0x21 => execVargmax c s
  | 0x22 => execVmovs c s
  | 0x23 => execVbcast c s
  | _ => execDraw c s

/-- Execution of the command with an opcode that an engine of core `c` has taken (R130). -/
def runCommand (c cop : Nat) (s : State) : Out :=
  match cop with
  | 0x01 => execMma c s
  | 0x02 => execMaxexp c s
  | 0x03 => execTclr c s
  | 0x04 => execTset c s
  | 0x08 => execTexp c s
  | 0x09 => execTexpmx c s
  | 0x0A => execToutp c s
  | 0x0B => execTaddp c s
  | _ => if cop < 0x30 then runVector c cop s else runTransfer c cop s

/-- The state that a row of the simulation gives; a row that stops leaves the state. -/
def outState (s : State) : Out → State
  | .next s' => s'
  | _ => s

end Sys2Proof.Machine
end

