-- ==== Sys2Proof/Machine/Trace.lean ====
section
/-! DEFINITION. The loader's simulation of a frame entry (R294 to R296): the cores of an image run in the model's own cycles, with every wait taken
as satisfied, and what each step uses is kept. The path, the skips and the addresses are those that the initial registers and the data give. -/

namespace Sys2Proof.Machine

open Sys2Proof

/-- One step of the simulation: an issue of the sequencer (unit 0, with its word), a dispatch of an engine (with its queue entry), or an element of
a stream program; the cycle of the issue or dispatch; what it raised, each with the tag of the object named; the uses of banks by the core whose
port it is, of paths, and the results that it leaves in flight; the latest ready cycle of the registers that it writes; the number of parcels its flow
had posted before; the headroom of its tile and whether its control word changed; whether the instruction was skipped. -/
structure Event where
  core : Nat
  cycle : Nat
  unit : Nat
  pc : Nat
  word : Nat := 0
  q : Option QEntry := none
  prog : Option StreamProg := none
  faults : List (FaultRec × Tag) := []
  uses : List (Nat × BankUse) := []
  paths : List PathUse := []
  pends : List (Nat × Pending) := []
  tagged : Nat := 0
  posted : Nat := 0
  h : Nat := 0
  retile : Bool := false
  skipped : Bool := false

/-- The issue cycle of the op behind an event: that of its `ENQ` for a command. -/
def Event.issue (e : Event) : Nat := match e.q with | some q => q.enqCycle | none => e.cycle

/-- The latest cycle at which something of the event becomes ready. -/
def Event.ready (e : Event) : Nat := (e.pends.map (fun p => p.2.ready)).foldl Nat.max (Nat.max e.cycle e.tagged)

/-- What a unit of a core does next. -/
inductive SimAct where
  | engine (e : Engine)
  | element (n : Nat)
  | elementReady (n : Nat)
  | retry
  | issue
  deriving DecidableEq, Repr

/-- The acts that a core has before it, each with its cycle, units in the order of R63. -/
def Core.acts (s : State) (c : Nat) (k : Core) : List (Nat × SimAct) :=
  if k.halted || !k.section_ then [] else
  ([Engine.mx, .vx, .sx, .nx].filterMap fun e => match (k.eng e).queue with
    | q :: _ => some ((k.eng e).headCycle q, SimAct.engine e)
    | [] => none) ++
  (k.progs.flatMap fun p =>
    (if p.next < p.count then [(p.issue p.next, SimAct.element p.num)] else []) ++
    (if p.readyNext < p.next then
      [(p.readyAt (s.lambda c (s.daSite (p.elemDa p.readyNext))) (p.issue p.readyNext), SimAct.elementReady p.num)] else [])) ++
  (match k.stalled with
    | some daddr =>
      let x := k.eng (engineOf (k.descAt daddr).eng)
      if 8 ≤ x.queue.length then [] else [(Nat.max k.cyc (x.freedAt + 1), SimAct.retry)]
    | none => if k.ended then [] else [(k.cyc, SimAct.issue)])

/-- The first act of all cores before the end of the schedule: earliest cycle, then lowest core, then the order of a core's list. -/
def State.nextAct (s : State) : Option (Nat × Nat × SimAct) :=
  s.cores.foldl (fun best e =>
    ((Core.acts s e.1 e.2).filter (fun a => decide (a.1 < s.frame.e))).foldl (fun (b : Option (Nat × Nat × SimAct)) a => match b with
      | some x => if a.1 < x.2.1 then some (e.1, a.1, a.2) else b
      | none => some (e.1, a.1, a.2)) best) none

/-- The flags that an act waits on are set, so that no wait freezes the simulation. -/
def forceFlags (s : State) (c : Nat) (a : SimAct) : State :=
  let k := s.core c
  let see := fun f => s.setCore c { k with sflags := spSet false k.sflags f true, sflagAt := spSet 0 k.sflagAt f 0 }
  match a with
  | .engine e => match (k.eng e).queue with
    | q :: _ => if q.desc.wen then see q.desc.wflag else s
    | [] => s
  | .issue =>
    let w := (spGet 0 k.code k.pc).toNat
    if opcOf w = 0x40 then see (w % 64)
    else if opcOf w = 0x43 then s.setCore c { k with aflags := spSet false k.aflags (w % 64) true }
    else s
  | _ => s

/-- The state without anything that couples one step to the next but registers, memory, queues and programs. -/
def quiet (s : State) : State :=
  { s with
    pathUses := [], freeze := {},
    cores := spMap {} (fun k => { k with uses := [], pend := k.pend.map (fun p => { p with flag := none, clearFlag := none }) }) s.cores }

/-- Perform an act. -/
def perform (s : State) (c : Nat) (a : SimAct) : State :=
  match a with
  | .engine e =>
    let s1 := outState s (execEngineDispatch c e s)
    match ((s1.core c).eng e).cur with
    | some fl => outState s1 (runCommand c fl.q.desc.cop s1)
    | none => s1
  | .element n => outState s (execStreamElement c n s)
  | .elementReady n => outState s (execStreamElementReady c n s)
  | .retry => outState s (execEnqueueAfterStall c s)
  | .issue => outState s (issueWord c (spGet 0 (s.core c).code (s.core c).pc).toNat s)

/-- The event of an act of core `c` at cycle `t` that led from `a` to `b`. -/
def eventOf (c t : Nat) (act : SimAct) (a b : State) : Event :=
  let k := a.core c
  let q := match act with
    | .engine e => (k.eng e).queue.head?
    | _ => none
  let prog := match act with
    | .element n => k.progs.find? (fun p => p.num == n)
    | _ => none
  let unit := match act with
    | .engine e => unitOf e
    | .element _ => 3
    | .elementReady _ => 3
    | _ => 0
  let flow := match q with
    | some x => (k.flows.find? (fun f => f.flow == x.sa.toNat % 2 ^ 20)).elim 0 (·.posted)
    | none => 0
  { core := c, cycle := t, unit, pc := match q, prog with | some x, _ => x.pc | none, some p => p.pc | none, none => k.pc,
    word := if unit = 0 then (spGet 0 k.code k.pc).toNat else 0, q, prog,
    faults := b.freeze.raised.map (fun f => (f, spGet {} k.tags f.object)),
    uses := b.cores.flatMap (fun e => e.2.uses.map (fun u => (e.1, u))), paths := b.pathUses,
    pends := b.cores.flatMap (fun e => (e.2.pend.drop (a.core e.1).pend.length).map (fun p => (e.1, p))),
    tagged := Nat.max ((b.core c).tags.foldl (fun m x => if decide (m < x.2.ready) && spGet {} k.tags x.1 != x.2 then x.2.ready else m) t)
      (b.contexts.foldl (fun m x => if decide (m < x.2.ready) && spGet {} a.contexts x.1 != x.2 then x.2.ready else m) t), posted := flow,
    h := match q with | some x => ((b.core c).tile x.desc.tile).h.toNat | none => 0,
    retile := match q with | some x => (k.tile x.desc.tile).control != ((b.core c).tile x.desc.tile).control | none => false,
    skipped := decide (unit = 0) && decide (0 < k.skip) }

/-- No core is halted: the simulation goes on after a fault (DEDUCED, log entry 18). -/
def unhalt (s : State) : State := if s.freeze.raised.isEmpty then s else { s with cores := spMap {} (fun k => { k with halted := false }) s.cores }

/-- The act of core `c` at cycle `t` that raised a fault counts as a null one: an instruction takes its cycle, a command its occupancy, and a stream
program ends (DEDUCED, log entry 18). -/
def passFault (a b : State) (c t : Nat) (act : SimAct) : State :=
  if b.freeze.raised.length = a.freeze.raised.length then b else
  let b1 := unhalt b
  let k := b1.core c
  b1.setCore c <| match act with
    | .engine e =>
      let x := k.eng e
      match x.queue with
      | q :: rest =>
        if x.queue.length = ((a.core c).eng e).queue.length then
          k.setEng e { x with queue := rest, occEnd := t + (timing a c q t).occ, freedAt := t, cur := none }
        else k.setEng e { x with cur := none }
      | [] => k.setEng e { x with cur := none }
    | .element n => { k with progs := k.progs.filter (fun p => p.num != n) }
    | .elementReady n => { k with progs := k.progs.filter (fun p => p.num != n) }
    | _ =>
      if t < k.cyc then k
      else if lastWord ≤ k.pc then { k with halted := true }
      else { k with pc := k.pc + 1, cyc := t + 1, skip := k.skip - 1, stalled := none }

/-- Run until no core has an act, or `n` steps are done; the events in order of their steps (DEDUCED, log entry 18). -/
def simulate : Nat → State → List Event → State × List Event
  | 0, s, l => (s, l.reverse)
  | n + 1, s, l =>
    match s.nextAct with
    | none => (s, l.reverse)
    | some (c, t, a) =>
      let s1 := unhalt (settle (forceFlags (quiet s) c a) c t)
      let s2 := perform s1 c a
      let s3 := passFault s1 s2 c t a
      match a with
      | .elementReady _ => simulate n s3 l
      | _ => if (s3.core c).stalled.isSome then simulate n s3 l else simulate n s3 (eventOf c t a s1 s2 :: l)

/-- A core of an image at cycle 0 of entry `e`. -/
def CoreSect.startAt (x : CoreSect) (e : Nat) : Core := let k := x.core; { k with pc := k.entries.getD (e % Nat.max 1 k.entries.length) 0 }

/-- The package as the simulation of entry `e` begins, the schedule ending at cycle `len`: the latencies of a device on which every logical region
stands on its own die, cellars that hold nothing, and a bin area without bounds (R290, R294, R339). -/
def simState (s : State) (cs : List CoreSect) (e len : Nat) : State :=
  { s with
    dev := .running, cores := cs.foldl (fun m x => spSet {} m x.lcore (x.startAt e)) [], contexts := [], pathUses := [], freeze := {}, verA := {},
    verB := {}, frame := { e := len }, stats := { s.stats with tstate := 0 }, hatch := {},
    cellar := { s.cellar with bytes := [], errors := [], ctls := [] },
    mgmt := { s.mgmt with placed := some {
      variant := 0, flags := 0, policy := 0, frame := 0, regionMap := [], temps := [], wears := [], streamLoad := 0, binBase := 0,
      binCount := 2 ^ 40, rowcol := [], binOrder := [], ttDigest := [], digest := [] } } }

/-- The longest schedule that the simulation knows: no budget reaches it (R31). -/
def noEnd : Nat := 2 ^ 40

/-- More steps than a frame has. -/
def simFuel : Nat := 2 ^ 40

/-- The events of entry `e` of some cores. -/
def traceOf (s : State) (cs : List CoreSect) (e len : Nat) : State × List Event := simulate simFuel (simState s cs e len) []

/-! ### Claims on shared things (R296) -/

/-- A use of a thing in a cycle: the thing's number in the order of R296, the core that uses it, its unit and program counter, the issue cycle of
its op, and whether another core may contend for it. -/
structure Claim where
  cycle : Nat
  key : Nat
  user : Nat
  unit : Nat
  pc : Nat
  issue : Nat
  shared_ : Bool

/-- The key of a path resource; a neighbour path is that of its core (R534). -/
def pathKey (u : PathUse) : Nat := if u.resource = 0xC00 ∨ u.resource = 0xC01 then 0x1000 + 2 * u.core + u.resource % 2 else u.resource

/-- The key of a bank or attic port of a core. -/
def portKey (c bank : Nat) : Nat := 2 ^ 20 + 16 * c + bank

/-- The claims of an event. -/
def Event.claims (e : Event) : List Claim :=
  e.paths.map (fun u => { cycle := u.cycle, key := pathKey u, user := u.core, unit := u.unit, pc := u.pc, issue := e.issue, shared_ := true }) ++
  e.uses.map (fun u => { cycle := u.2.cycle, key := portKey u.1 u.2.bank, user := u.2.src.getD u.1, unit := u.2.unit, pc := u.2.pc,
                         issue := e.issue, shared_ := u.2.src.isSome })

/-- The pairs of claims on one thing in one cycle. -/
def clashes : List Claim → List (Claim × Claim)
  | [] => []
  | a :: t => (t.filter (fun b => b.cycle == a.cycle && b.key == a.key)).map (fun b => (a, b)) ++ clashes t

/-- Whether a clash is one of R63 within a core, and not a shared-use conflict. -/
def ownClash (p : Claim × Claim) : Bool := decide (2 ^ 20 ≤ p.1.key) && !p.1.shared_ && !p.2.shared_

/-- The claim of a clash whose op is padded: that of the higher core, or of the later op of one core (R63, R296). -/
def laterClaim (p : Claim × Claim) : Claim :=
  let (a, b) := p
  if a.user ≠ b.user then (if a.user < b.user then b else a)
  else if ownClash p ∧ unitOrder a.unit ≠ unitOrder b.unit then (if unitOrder a.unit < unitOrder b.unit then b else a)
  else if a.issue ≤ b.issue then b else a

end Sys2Proof.Machine
end

