-- ==== Sys2Proof/Machine/Dram.lean ====
section
/-! DEFINITION. The programs of the slot memory controllers as the loader builds and checks them (R155 to R161, R298, R340): DRAM commands, their
minimum distances, their placement, their encoding and decoding. -/

namespace Sys2Proof.Machine

open Sys2Proof

/-- A DRAM command in its cycle: kind 1 ACT, 2 PRE, 3 RD, 4 WR, 5 REFpb, 7 BACT; `pinned` for those of refresh and scrub. -/
structure DramCmd where
  kind : Nat
  cycle : Nat
  bank : Nat
  row : Nat := 0
  col : Nat := 0
  tag : Nat := 0
  pinned : Bool := false
  deriving DecidableEq, Repr

/-- Whether a command opens a row. -/
def DramCmd.opens (x : DramCmd) : Bool := x.kind == 1 || x.kind == 7

/-- Whether a command is a column command. -/
def DramCmd.isCol (x : DramCmd) : Bool := x.kind == 3 || x.kind == 4

/-- The pinned commands of controller `k` in the cycles below `len` (R160, R161): a refresh each 48 cycles, and the scrub windows that end by then. -/
def pinnedCmds (k len : Nat) : List DramCmd :=
  let phi := phaseOf k
  ((List.range (len / 48 + 1)).map fun n => { kind := 5, cycle := 48 * n + phi, bank := n % 32, pinned := true : DramCmd }).filter
    (fun x => decide (x.cycle < len)) ++
  (((List.range (len / 2064 + 1)).map fun m => (m, 2064 * m + phi + 24)).filter (fun e => decide (e.2 + 164 ≤ len))).flatMap fun e =>
    let b := (11 * e.1 + 16) % 32
    { kind := 1, cycle := e.2, bank := b, pinned := true } ::
      ((List.range 32).map (fun i => { kind := 3, cycle := e.2 + 18 + i, bank := b, pinned := true }) ++
       (List.range 4).map (fun w => { kind := 4, cycle := e.2 + 124 + w, bank := b, pinned := true }) ++
       [{ kind := 2, cycle := e.2 + 147, bank := b, pinned := true }])

/-- The minimum distance from a command to a later one (R155, R160). -/
def minDistance (x y : DramCmd) : Nat :=
  let same := x.bank == y.bank
  let slot := if x.isCol == y.isCol then 1 else 0
  let bankRule :=
    if !same then 0
    else if x.kind = 5 then 193
    else if x.opens && y.isCol then 17
    else if x.kind == 2 && (y.opens || y.kind == 5) then 17
    else if x.opens && y.kind == 2 then 34
    else if x.opens && y.opens then 51
    else if x.kind == 3 && y.kind == 2 then 5
    else if x.kind == 4 && y.kind == 2 then 20
    else 0
  let anyRule :=
    if x.opens && y.opens then 3
    else if x.kind == 4 && y.kind == 3 then 13
    else if x.kind == 3 && y.kind == 4 then 5
    else if x.kind == 5 && y.kind == 5 then 10
    else 0
  Nat.max slot (Nat.max bankRule anyRule)

/-- Whether two commands keep their distance, whichever comes first. -/
def apart (x y : DramCmd) : Bool :=
  if x.cycle < y.cycle then decide (x.cycle + minDistance x y ≤ y.cycle)
  else if y.cycle < x.cycle then decide (y.cycle + minDistance y x ≤ x.cycle)
  else minDistance x y == 0 && minDistance y x == 0

/-- Whether no window of `w` cycles that holds `x` begins at a command of a list and holds more than `n` of them. -/
def windowOk (l : List DramCmd) (w n : Nat) (x : DramCmd) : Bool :=
  l.all fun a => decide (x.cycle < a.cycle) || decide (a.cycle + w ≤ x.cycle) ||
    decide ((l.filter (fun b => decide (a.cycle ≤ b.cycle) && decide (b.cycle < a.cycle + w))).length ≤ n)

/-- Whether a bank belongs to a scrub window in the cycle of a command (R161). -/
def inScrub (l : List DramCmd) (x : DramCmd) : Bool :=
  l.any fun y => y.pinned && y.kind == 1 && y.bank == x.bank && decide (y.cycle ≤ x.cycle) && decide (x.cycle ≤ y.cycle + 163)

/-- Whether a program command may be added to commands (R155, R160, R161). -/
def admits (l : List DramCmd) (x : DramCmd) : Bool :=
  l.all (apart x) && (x.pinned || !inScrub l x) &&
    (!x.opens || windowOk (x :: l.filter DramCmd.opens) 15 4 x) && (!x.isCol || windowOk (x :: l.filter DramCmd.isCol) 128 127 x)

/-! ### Placement (R298, R340) -/

/-- The last command of a list by cycle that a test selects. -/
def lastCmd (l : List DramCmd) (p : DramCmd → Bool) : Option DramCmd :=
  l.foldl (fun (b : Option DramCmd) x => if p x then (match b with | some y => if y.cycle < x.cycle then some x else b | none => some x) else b) none

/-- The latest cycle from `hi` down to `lo` for which a test gives something. -/
def latest {α : Type} (lo hi : Nat) (f : Nat → Option α) : Option α :=
  if hi < lo then none else (List.range (hi + 1 - lo)).findSome? (fun i => f (hi - i))

/-- The row that a program has left open in a bank before a cycle: its opening command. -/
def openAt (l : List DramCmd) (bank t : Nat) : Option DramCmd :=
  match lastCmd l (fun x => x.bank == bank && !x.pinned && !x.isCol && decide (x.cycle < t)) with
  | some x => if x.opens then some x else none
  | none => none

/-- The first pinned command of a bank after a cycle. -/
def pinnedAfter (l : List DramCmd) (bank t : Nat) : Option Nat :=
  (l.filter (fun x => x.pinned && x.bank == bank && decide (t < x.cycle))).foldl (fun b x => match b with
    | some y => some (Nat.min y x.cycle)
    | none => some x.cycle) (none : Option Nat)

/-- The latest PRE that closes an open row by cycle `hi`, before any pinned command of its bank. -/
def closeBy (l : List DramCmd) (o : DramCmd) (hi : Nat) : Option DramCmd :=
  let hi := match pinnedAfter l o.bank o.cycle with | some p => Nat.min hi (p - 17) | none => hi
  latest o.cycle hi fun t => let x : DramCmd := { kind := 2, cycle := t, bank := o.bank }; if admits l x then some x else none

/-- The earliest PRE that closes an open row, before any pinned command of its bank. -/
def closeEarly (l : List DramCmd) (o : DramCmd) : Option DramCmd :=
  let last := (lastCmd l (fun x => x.bank == o.bank && !x.pinned && x.isCol)).elim o.cycle (·.cycle)
  let hi := match pinnedAfter l o.bank o.cycle with | some p => p - 17 | none => last + 65536
  (List.range (hi + 1 - last)).findSome? fun i =>
    let x : DramCmd := { kind := 2, cycle := last + i, bank := o.bank }
    if admits l x then some x else none

/-- A column command of a transfer: the core and word of its op, whether it is bin-relative, and the first cycle of its activation. -/
structure ColCmd where
  cmd : DramCmd
  core : Nat
  pc : Nat
  bin : Bool
  from_ : Nat

/-- Place a column command with the row commands that it needs. -/
def placeCol (l : List DramCmd) (x : ColCmd) : Option (List DramCmd) :=
  let c := x.cmd
  if !admits l c then none else
  let o := openAt l c.bank c.cycle
  let still := match o with
    | some y => y.row == c.row && (pinnedAfter l c.bank y.cycle).elim true (fun p => decide (c.cycle < p))
    | none => false
  if still then some (c :: l)
  else latest x.from_ (c.cycle - 17) fun a =>
    let act : DramCmd := { kind := if x.bin then 7 else 1, cycle := a, bank := c.bank, row := c.row, tag := if x.bin then c.tag else 0 }
    if !admits (c :: l) act || (pinnedAfter l c.bank a).elim false (fun p => decide (p ≤ c.cycle)) then none
    else match o with
      | none => some (act :: c :: l)
      | some y => if a < 17 then none else (closeBy (c :: l) y (a - 17)).map (fun p => act :: p :: c :: l)

/-- Place column commands in ascending order of cycle; after the last use of a bank by a bin-relative transfer its row is closed (R340). The
command that finds no place ends it. -/
def placeCols : List ColCmd → List DramCmd → Except ColCmd (List DramCmd)
  | [], l => .ok l
  | x :: t, l =>
    match placeCol l x with
    | none => .error x
    | some m =>
      let more := t.any (fun y => y.cmd.bank == x.cmd.bank && y.cmd.row == x.cmd.row)
      if x.bin && !more then
        match openAt m x.cmd.bank (x.cmd.cycle + 1) with
        | some o => match closeEarly m o with
          | some p => placeCols t (p :: m)
          | none => .error x
        | none => placeCols t m
      else placeCols t m

/-- Close every bank after its last use. -/
def closeBanks (cols : List ColCmd) : List Nat → List DramCmd → Except ColCmd (List DramCmd)
  | [], l => .ok l
  | b :: t, l =>
    match openAt l b noEnd with
    | none => closeBanks cols t l
    | some o => match closeEarly l o with
      | some p => closeBanks cols t (p :: l)
      | none => match (cols.reverse.find? (fun x => x.cmd.bank == b)) with
        | some x => .error x
        | none => closeBanks cols t l

/-- Order of commands in a program: by cycle, row commands first. -/
def DramCmd.order (x : DramCmd) : Nat := 2 * x.cycle + b2n x.isCol

/-- The commands of the program of controller `k` that serves column commands (R298), or the one that cannot be served. The pinned commands are those
of a frame without end, since E follows from the programs (R299) (DEDUCED, log entry 18). -/
def buildProgram (k : Nat) (cols : List ColCmd) : Except ColCmd (List DramCmd) :=
  let sorted := sortBy (fun x => x.cmd.cycle) cols
  let last := cols.foldl (fun m x => Nat.max m x.cmd.cycle) 0
  match placeCols sorted (if cols.isEmpty then [] else pinnedCmds k (last + 4096)) with
  | .error x => .error x
  | .ok l => match closeBanks sorted (List.range 32) l with
    | .error x => .error x
    | .ok m => .ok (sortBy DramCmd.order (m.filter (fun x => !x.pinned)))

/-! ### Beats and column commands (R151, R159, R339) -/

/-- A beat of a cellar transfer: device address, arrival cycle at the MIO, whether a write, the op's core and word, whether bin-relative, and the
cycle from which its rows may be opened. -/
structure Beat where
  da : Nat
  at_ : Nat
  write : Bool
  core : Nat
  pc : Nat
  bin : Bool := false
  from_ : Nat := 0
  token : Nat := 0

/-- The beats of an event. -/
def Event.beats (s : State) (e : Event) (token : Nat) : List Beat :=
  match e.q, e.prog with
  | some q, _ =>
    if q.null || !(q.desc.cop == 0x34 || q.desc.cop == 0x35) then [] else
    let lam := s.lambda e.core (s.daSite q.da)
    (piecesOf 0 q.desc.count 512).map fun p =>
      { da := q.da + p.2.1, at_ := e.cycle + lam + p.1, write := q.desc.cop == 0x35, core := e.core, pc := e.pc, bin := q.desc.fn == 1,
        from_ := if q.desc.fn = 1 then e.cycle + lam + 1 else 0, token }
  | none, some p =>
    let da := p.elemDa p.next
    let lam := s.lambda e.core (s.daSite da)
    (List.range p.beats).map fun i => { da := da + 512 * i, at_ := e.cycle + lam + i, write := false, core := e.core, pc := e.pc, token }
  | none, none => []

/-- The beats of a trace, in order of arrival. -/
def beatsOf (s : State) (l : List Event) : List Beat := sortBy (·.at_) (l.zipIdx.flatMap (fun e => e.1.beats s e.2))

/-- The column commands that beats need, each with its controller; a request's tag is its index in the controller's table (R158). -/
def columnsOf (s : State) (l : List Beat) : List (Nat × ColCmd) :=
  (l.foldl (fun (acc : List (Nat × Nat) × List (Nat × ColCmd)) b =>
    (List.range 16).foldl (fun (acc : List (Nat × Nat) × List (Nat × ColCmd)) j =>
      match s.daPlace (b.da / 512 * 512 + 32 * j) with
      | none => acc
      | some (k, a0, _) =>
        let a := s.remapSector k a0
        let n := spGet 0 acc.1 k
        let c : DramCmd := {
          kind := if b.write then 4 else 3, cycle := b.at_ + (if b.write then 2 else 0) + (if b.bin then 34 else 0), bank := bankOf a,
          row := if b.bin then 2 ^ 20 + b.token else a / 1024, col := a % 32, tag := n }
        (spSet 0 acc.1 k (n + 1), (k, { cmd := c, core := b.core, pc := b.pc, bin := b.bin, from_ := b.from_ }) :: acc.2)) acc) ([], [])).2.reverse

/-! ### Encoding (R158) -/

/-- The words of an entry `delta` cycles after the one before it: a long delay needs a `GAP`. -/
def entryWords (delta : Nat) (x : DramCmd) : List Nat :=
  let w := fun d => x.kind * 2 ^ 60 + d * 2 ^ 40 + x.bank * 2 ^ 35 + (if x.row < 32768 then x.row else 0) * 2 ^ 20 + x.col * 2 ^ 15 + x.tag % 32768
  if delta < 1048576 then [w delta] else [6 * 2 ^ 60 + delta % 2 ^ 32, w 0]

/-- The cycle of the `END` of a program: its last entry's, or that at whose end the PRE-to-ACT distance of its last PRE is satisfied, which R157 asks
for by the end of the schedule (DEDUCED, log entry 18). -/
def programEnd (l : List DramCmd) : Nat := l.foldl (fun m x => Nat.max m (if x.kind = 2 then x.cycle + 16 else x.cycle)) 0

/-- The words of a program, with its `END`. Since every RD and WR names a request of its own, no two runs of entries are identical, and `REPEAT`
is not used (DEDUCED, log entry 18). -/
def encodeProgram (l : List DramCmd) : List DWord :=
  let (last, ws) := l.foldl (fun (acc : Nat × List Nat) (x : DramCmd) => (x.cycle, (entryWords (x.cycle - acc.1) x).reverse ++ acc.2)) (0, [])
  (ws.reverse ++ [(programEnd l - last) * 2 ^ 40]).map (BitVec.ofNat 64)

/-- The entry of a word. -/
def entryOf (w : Nat) : CtlEntry :=
  let kind := bits w 63 60
  { kind, delta := bits w 59 40 + (if kind = 6 then bits w 31 0 else 0), bank := bits w 39 35, row := bits w 34 20, col := bits w 19 15,
    tag := bits w 14 0 }

/-- An entry executed: the cycle, and its command. -/
def runEntry (acc : Nat × List DramCmd) (e : CtlEntry) : Nat × List DramCmd :=
  let t := acc.1 + e.delta
  (t, if e.kind = 6 then acc.2 else { kind := e.kind, cycle := t, bank := e.bank, row := e.row, col := e.col, tag := e.tag } :: acc.2)

/-- The commands of a program, up to its `END`; the entries executed so far are kept for `REPEAT`. None where a `KIND` is not defined. -/
def expandProgram : List DWord → List CtlEntry → Nat × List DramCmd → Option (List DramCmd)
  | [], _, acc => some acc.2.reverse
  | w :: t, es, acc =>
    let e := entryOf w.toNat
    if e.kind = 0 then some acc.2.reverse
    else if 7 < e.kind then none
    else if e.kind = 5 then
      let w := w.toNat
      let body := (es.take (bits w 39 30)).reverse
      let acc1 := (List.range (bits w 29 10)).foldl (fun a r =>
        body.foldl (fun a e => runEntry a (e.shifted (r + 1) (bits w 9 5) (bits w 4 0))) a) acc
      expandProgram t es acc1
    else expandProgram t (e :: es) (runEntry acc e)

/-! ### The check of a program (R155 to R157, R160, R161) -/

/-- The open row of each bank plus 1 through commands in order; none where a command does not find its bank as it must. -/
def bankWalk : List DramCmd → List (Nat × Nat) → Option (List (Nat × Nat))
  | [], m => some m
  | x :: t, m =>
    let o := spGet 0 m x.bank
    if x.opens then (if o = 0 then bankWalk t (spSet 0 m x.bank (if x.kind = 7 then 2 ^ 20 else if x.pinned then 2 ^ 21 else x.row + 1)) else none)
    else if x.kind = 2 then bankWalk t (spSet 0 m x.bank 0)
    else if x.kind = 5 then (if o = 0 then bankWalk t m else none)
    else if o = 2 ^ 20 ∨ o = x.row + 1 ∨ (o = 2 ^ 21 ∧ x.pinned) then bankWalk t m else none

/-- Every pair of a list keeps its distance. -/
def allApart : List DramCmd → Bool
  | [] => true
  | x :: t => t.all (apart x) && allApart t

/-- Whether the program of controller `k` in a schedule of `len` cycles keeps every rule. -/
def programOk (k len : Nat) (l : List DramCmd) : Bool :=
  let all := sortBy DramCmd.order (l ++ pinnedCmds k len)
  allApart all && l.all (fun x => decide (x.cycle < len) && !inScrub all x) && all.all (windowOk (all.filter DramCmd.opens) 15 4)
    && all.all (windowOk (all.filter DramCmd.isCol) 128 127) && l.all (fun x => x.kind != 2 || decide (x.cycle + 17 ≤ len))
    && (match bankWalk all [] with | some m => m.isEmpty | none => false)

end Sys2Proof.Machine
end

