-- ==== Sys2Proof/Machine/Layout.lean ====
section
/-! DEFINITION. Padding and layout of a core's code (R287, R297): words from ops and their padding, addresses rebuilt, descriptors at the top of the
shelf. -/

namespace Sys2Proof.Machine

open Sys2Proof

/-- The padding of a core: cycles before ops, and cycles at the end of the first arm before rejoin ops (R297). -/
structure Pads where
  pre : List (Nat × Nat) := []
  bal : List (Nat × Nat) := []

/-- More padding before an op; it merges with what is there. -/
def Pads.add (p : Pads) (op n : Nat) (arm : Bool) : Pads :=
  if arm then { p with bal := spModify 0 p.bal op (· + n) } else { p with pre := spModify 0 p.pre op (· + n) }

/-- `LOOP` with `LEN` 1 that with its `NOP` takes `n` cycles. -/
def loopPad (n : Nat) : List Nat := [2 * 2 ^ 56 + 2 ^ 40 + (n - 1), 0]

/-- A piece of padding of 1 to 65,536 cycles. -/
def padPiece (n : Nat) : List Nat := if n ≤ 2 then List.replicate n 0 else loopPad n

/-- The words of `n` cycles of padding; `simple` where the op lies in fewer than four loops and in no `SKIP` range. -/
def padWords (n : Nat) (simple : Bool) : List Nat :=
  if n = 0 then []
  else if !simple then List.replicate n 0
  else let k := (n - 1) / 65536; (List.replicate k (loopPad 65536)).flatten ++ padPiece (n - 65536 * k)

/-- The opcode of an op. -/
def CrateOp.opc (o : CrateOp) : Nat := o.word / 2 ^ 56 % 256

/-- The number of ops with an opcode whose range, of `OLEN` ops after it, holds op `i`. -/
def rangesAround (ops : List CrateOp) (opc i : Nat) : Nat :=
  (ops.zipIdx.filter (fun e => e.1.opc == opc && decide (e.2 < i) && decide (i ≤ e.2 + e.1.olen))).length

/-- Whether padding before an op may be a loop (DEDUCED, log entry 18). -/
def loopsAllowed (ops : List CrateOp) (i : Nat) : Bool := decide (rangesAround ops 2 i < 4) && rangesAround ops 5 i == 0

/-- Where ops stand: for each, the word of its padding before, its own word, and the words in front of it for an arm's end. -/
structure OpPlace where
  addr : Nat
  own : Nat
  arm : List Nat
  pad : List Nat

/-- The places of the ops, in order from word 0. -/
def placeOps (ops : List CrateOp) (p : Pads) : List OpPlace :=
  (ops.zipIdx.foldl (fun (acc : Nat × List OpPlace) e =>
    let simple := loopsAllowed ops e.2
    let arm := padWords (spGet 0 p.bal e.2) simple
    let pad := padWords (spGet 0 p.pre e.2) simple
    let addr := acc.1 + arm.length
    let own := addr + pad.length
    (own + 1, { addr, own, arm, pad } :: acc.2)) (0, [])).2.reverse

/-- The word at which an op's padding begins, where jumps to the op go. -/
def addrOf (l : List OpPlace) (i : Nat) : Nat := match l[i]? with | some x => x.addr | none => 0

/-- The word of an op itself. -/
def ownOf (l : List OpPlace) (i : Nat) : Nat := match l[i]? with | some x => x.own | none => 0

/-- A field of a word replaced. -/
def withField (w hi lo v : Nat) : Nat := w - bits w hi lo * 2 ^ lo + v % 2 ^ (hi - lo + 1) * 2 ^ lo

/-- The `JMP` that ends the second arm of the `BRB` at op `b` (R287). -/
def armJump (ops : List CrateOp) (b : Nat) (o : CrateOp) : Option Nat :=
  (List.range ops.length).find? fun j => decide (o.xref ≤ j) && (match ops[j]? with
    | some x => x.opc == 4 && x.xref == b + o.olen + 1
    | none => false)

/-- The word of op `i` with `TGT`, `DADDR`, `LEN` and, for a `BRB`, `CNT` rebuilt; descriptors begin at word `top`. -/
def rebuildOp (ops : List CrateOp) (l : List OpPlace) (top i : Nat) (o : CrateOp) : Nat :=
  let here := ownOf l i
  match o.opc with
  | 2 | 5 => withField o.word 50 40 (ownOf l (i + o.olen) - here)
  | 3 =>
    let tgt := addrOf l o.xref
    let cnt := match armJump ops i o with | some j => ownOf l j + 1 - tgt | none => 0
    withField (withField (withField o.word 50 40 (addrOf l (i + o.olen + 1) - here - 1)) 26 16 tgt) 15 0 cnt
  | 4 | 6 => withField o.word 26 16 (addrOf l o.xref)
  | 0x60 => withField o.word 55 45 (top + 4 * o.xref)
  | _ => o.word

/-- The first word of the descriptors of a record. -/
def descTop (r : CoreRecord) : Nat := 1536 - 4 * r.descs.length

/-- The words of a descriptor with `DCE` and `DCYC` as given. -/
def descWords (b : List Byte) (dcyc : Option Nat) : List Nat :=
  [le b 0 8 - bits (le b 0 8) 31 31 * 2 ^ 31 + (if dcyc.isSome then 2 ^ 31 else 0), withField (le b 8 8) 63 52 (dcyc.getD 0), le b 16 8, le b 24 8]

/-- The code of a record with padding; `dcyc` gives the dispatch cycle of the descriptors that are checked. None where it does not fit (R297). -/
def layoutCode (r : CoreRecord) (p : Pads) (dcyc : Nat → Option Nat) : Option (List (Nat × DWord)) :=
  let l := placeOps r.ops p
  let top := descTop r
  let ws := (r.ops.zip l).zipIdx.flatMap fun e => e.1.2.arm ++ e.1.2.pad ++ [rebuildOp r.ops l top e.2 e.1.1]
  if top < ws.length then none else
  let ds := r.descs.zipIdx.flatMap fun e => descWords e.1 (dcyc e.2)
  let put := fun (a : Nat) (m : List (Nat × DWord)) (l : List Nat) => l.zipIdx.foldl (fun m e => spSet 0 m (a + e.2) (BitVec.ofNat 64 e.1)) m
  some (put top (put 0 [] ws) ds)

/-- The op whose own word is `w`. -/
def opAtWord (l : List OpPlace) (w : Nat) : Option Nat :=
  let i := l.findIdx (fun x => x.own == w)
  if i < l.length then some i else none

end Sys2Proof.Machine
end

