-- ==== Sys2Proof/Machine/Retime.lean ====
section
/-! DEFINITION. Re-timing (R284, R287, R290, R294 to R300): violations and their padding, the shared-use conflicts of a package, the cellar
programs, E, the deadlines, and the image of a variant. -/

namespace Sys2Proof.Machine

open Sys2Proof

/-- A result, or a reason with its location (R305). -/
abbrev Judged (α : Type) := Except (Nat × Location) α

/-! ### A core under re-timing -/

/-- A core record, its padding and the schedule passes that it has taken. -/
structure CoreWork where
  r : CoreRecord
  pads : Pads := {}
  passes : Nat := 0

/-- The logical core. -/
def CoreWork.lcore (w : CoreWork) : Nat := coreOfHead w.r.head

/-- The places of its ops (DEDUCED, log entry 18). -/
def CoreWork.places (w : CoreWork) : List OpPlace := placeOps w.r.ops w.pads

/-- The core section (R143): the record's fields, entries as addresses, absolute flows (R284), and the bytes of its segments. -/
def CoreWork.sect (w : CoreWork) (base : Nat) (dat : List Byte) (dcyc : Nat → Option Nat) : Option CoreSect :=
  let h := w.r.head
  (layoutCode w.r w.pads dcyc).map fun code =>
    { lcore := w.lcore, group := le h 8 2 % 32768, owner := bit (le h 2 2) 0, entries := (entriesOf h).map (addrOf w.places),
      setters := settersOf h, afmap := afmapOf h, tileinit := wordsOf h 416 4, sinit := wordsOf h 448 32,
      flows := (flowsOf h).map (fun f => { f with flow := f.flow + base }), code,
      segs := w.r.segs.map (fun g => { attic := g.1, offset := g.2.1, bytes := slice dat g.2.2.2 g.2.2.1 }) }

/-- The descriptors that request the dispatch check (R287) (DEDUCED, log entry 18). -/
def CoreWork.asksDce (w : CoreWork) (i : Nat) : Bool := match w.r.descs[i]? with | some b => bit (le b 0 8) 31 | none => false

/-- The least issue cycle of op `i`: its `EARLIEST`, and for a `CHKA` that of the declared arrival of its buffer (R300) (DEDUCED, log entry 18). -/
def leastIssue (c : Crate) (v : Nat) (w : CoreWork) (i : Nat) : Nat :=
  match w.r.ops[i]? with
  | none => 0
  | some o =>
    let chk := if o.opc ≠ 0x43 then 0 else
      match (afmapOf w.r.head).find? (fun e => e.1 == o.word % 64) with
      | none => 0
      | some e => match c.arrive v e.2 with
        | some a => if a ≤ 768 then 0 else ceilDiv ((a - 768).toNat * ceilKhz c.mode) 3000000
        | none => 0
    Nat.max o.earliest chk

/-! ### Arms (R75, R297) -/

/-- What an enqueue of a word brings to its engine: the engine and the occupancy. -/
def enqOf (s : State) (code : List (Nat × DWord)) (w : Nat) : Nat × Nat :=
  let a := bits w 55 45
  let k := fun i => (spGet 0 code (a + i)).toNat
  let d := decodeDesc (k 0) (k 1) (k 2) (k 3)
  (d.eng, (timing s 0 { desc := d } 0).occ)

/-- Cycles and enqueues, with their offsets, along the words from `pc` until `stop` or a `RET`: loops run to their counts, calls return, a branch
within goes by its first arm (DEDUCED, log entry 18). -/
def armWalk (s : State) (code : List (Nat × DWord)) : Nat → Nat → Nat → Nat × List (Nat × Nat × Nat) → Nat × List (Nat × Nat × Nat)
  | 0, _, _, acc => acc
  | fuel + 1, pc, stop, (t, l) =>
    if pc = stop ∨ lastWord < pc then (t, l) else
    let w := (spGet 0 code pc).toNat
    match opcOf w with
    | 2 =>
      let z := pc + 1 + bits w 50 40
      armWalk s code fuel z stop ((List.range (bits w 15 0)).foldl (fun acc _ => armWalk s code fuel (pc + 1) z acc) (t + 1, l))
    | 4 => armWalk s code fuel (bits w 26 16) stop (t + 1, l)
    | 6 => armWalk s code fuel (pc + 1) stop (armWalk s code fuel (bits w 26 16) 2048 (t + 1, l))
    | 7 => (t + 1, l)
    | 0x60 => let e := enqOf s code w; armWalk s code fuel (pc + 1) stop (t + 1, l ++ [(t, e.1, e.2)])
    | _ => armWalk s code fuel (pc + 1) stop (t + 1, l)

/-- The two arms of the `BRB` at word `a`: cycles and enqueues of each. -/
def armsOf (s : State) (code : List (Nat × DWord)) (a : Nat) : (Nat × List (Nat × Nat × Nat)) × (Nat × List (Nat × Nat × Nat)) :=
  let w := (spGet 0 code a).toNat
  let rejoin := a + bits w 50 40 + 1
  (armWalk s code 65536 (a + 1) rejoin (0, []), armWalk s code 65536 (bits w 26 16) rejoin (0, []))

/-! ### Violations (R296) -/

/-- A violation: its cycle, the op padded, the cycles, and whether the padding ends a first arm. -/
structure Violation where
  cycle : Nat
  op : Nat
  pad : Nat
  arm : Bool := false

/-- The cycles from the issue of a sequencer instruction to its result (R134). -/
def seqLatency (opc : Nat) : Nat :=
  if opc = 0x18 ∨ opc = 0x19 ∨ opc = 0x28 then 3 else if opc = 0x30 ∨ opc = 0x33 then 2 else 1

/-- The padding that moves what an event does by `n` cycles: the op itself for a sequencer instruction; for a command its `ENQ`, which is then
issued one cycle before the dispatch (R56). -/
def Event.shift (e : Event) (n : Nat) : Nat := if e.unit = 0 then n else e.cycle + n - 1 - e.issue

/-- The violation that a fault of an event is, where padding answers it. A read of a value whose write was issued after the reading op is answered
at the writing op. -/
def faultViolation (s : State) (w : CoreWork) (l : List Event) (e : Event) (f : FaultRec) (tag : Tag) : Option Violation :=
  let op := fun pc => opAtWord w.places pc
  match f.reason with
  | 0x0101 =>
    let writer := (l.filter (fun x => x.unit == tag.unit && x.pc == tag.pc && decide (x.cycle ≤ f.cycle))).getLast?
    match writer with
    | some x =>
      if e.issue < x.issue then (op x.pc).map fun i => { cycle := f.cycle, op := i, pad := f.cycle + 1 - x.issue }
      else (op e.pc).map fun i => { cycle := f.cycle, op := i, pad := e.shift f.shortfall }
    | none => (op e.pc).map fun i => { cycle := f.cycle, op := i, pad := e.shift f.shortfall }
  | 0x0102 =>
    let r := match e.q with
      | some q => ((timing s e.core q e.cycle).tags.find? (fun g => tagKey g.1 g.2.1 == f.object)).elim e.cycle (fun g => g.2.2)
      | none => e.cycle + seqLatency (opcOf e.word)
    (op e.pc).map fun i => { cycle := f.cycle, op := i, pad := e.shift (tag.ready + 1 - r) }
  | 0x0402 => (op f.pc).map fun i => { cycle := f.cycle, op := i, pad := 1 }
  | _ => none

/-- The violations of the arms of a `BRB` that an event issues. -/
def armViolation (s : State) (w : CoreWork) (code : List (Nat × DWord)) (e : Event) : Option Violation :=
  if e.unit ≠ 0 ∨ opcOf e.word ≠ 3 then none else
  match opAtWord w.places e.pc with
  | none => none
  | some i => match w.r.ops[i]? with
    | none => none
    | some o =>
      let (a, b) := armsOf s code e.pc
      if a.1 < b.1 then some { cycle := e.cycle, op := i + o.olen + 1, pad := b.1 - a.1, arm := true }
      else if b.1 < a.1 then (armJump w.r.ops i o).map fun j => { cycle := e.cycle, op := j, pad := a.1 - b.1 }
      else none

/-- The violations of a trace of one core. -/
def violations (s : State) (c : Crate) (v : Nat) (w : CoreWork) (code : List (Nat × DWord)) (l : List Event) : List Violation :=
  let early := l.filterMap fun e =>
    if e.unit ≠ 0 then none else
    match opAtWord w.places e.pc with
    | some i => if e.cycle < leastIssue c v w i then some { cycle := e.cycle, op := i, pad := leastIssue c v w i - e.cycle : Violation } else none
    | none => none
  let banks := ((clashes (l.flatMap Event.claims)).filter ownClash).filterMap fun p =>
    (opAtWord w.places (laterClaim p).pc).map fun i => ({ cycle := p.1.cycle, op := i, pad := 1 } : Violation)
  early ++ l.filterMap (armViolation s w code) ++ banks ++ l.flatMap (fun e => e.faults.filterMap (fun f => faultViolation s w l e f.1 f.2))

/-- The first violation: the earliest cycle, then the lowest op. -/
def firstViolation (l : List Violation) : Option Violation := leastBy (fun x => x.cycle * 65536 + x.op) l

/-- What re-timing works on: the state whose inputs it takes, the crate, the variant, and the bytes of the variant's data. -/
structure Job where
  s : State
  c : Crate
  v : Nat
  dat : List Byte

/-- The section of a core without dispatch checks, or 0x0704 where its code does not fit. -/
def Job.plain (j : Job) (w : CoreWork) : Judged CoreSect :=
  match w.sect j.s.fabric.flowBase j.dat (fun _ => none) with
  | some x => .ok x
  | none => .error (0x0704, { variant := j.v, core := w.lcore })

/-- `schedule` (R295): simulate an entry of a core alone and pad until nothing is violated, in at most 4,096 passes for the core (R297). -/
def Job.schedule (j : Job) (e : Nat) : Nat → CoreWork → Judged CoreWork
  | 0, w => .error (0x0705, { variant := j.v, entry := e, core := w.lcore })
  | n + 1, w => do
    let x ← j.plain w
    let l := (traceOf j.s [x] e noEnd).2
    match firstViolation (violations j.s j.c j.v w x.code l) with
    | none => return { w with passes := w.passes + 1 }
    | some y => j.schedule e n { w with pads := w.pads.add y.op y.pad y.arm, passes := w.passes + 1 }

/-- The passes that a core has left. -/
def CoreWork.left (w : CoreWork) : Nat := 4096 - w.passes

/-- Schedule the entries of a core in order. -/
def Job.scheduleAll (j : Job) : List Nat → CoreWork → Judged CoreWork
  | [], w => .ok w
  | e :: t, w => do
    let w1 ← j.schedule e w.left w
    j.scheduleAll t w1

/-- Map with a judgement, in order. -/
def judgeAll {α β : Type} (f : α → Judged β) : List α → Judged (List β)
  | [] => .ok []
  | a :: t => do
    let b ← f a
    let bs ← judgeAll f t
    return b :: bs

/-! ### Shared-use conflicts (R296, R298) -/

/-- The programs of the controllers for the beats of an entry, or the first column command that finds no place. -/
def entryPrograms (s : State) (l : List Event) : Except ColCmd (List (Nat × List DramCmd)) :=
  let cols := columnsOf s (beatsOf s l)
  let built := (List.range (160 * mioCount s.variant)).map fun k => (k, buildProgram k ((cols.filter (fun x => x.1 == k)).map (·.2)))
  let bad := built.filterMap fun x => match x.2 with | .error y => some (x.1, y) | .ok _ => none
  match leastBy (fun x => (x.2.cmd.cycle * 1024 + x.1) * 32 + x.2.cmd.bank) bad with
  | some x => .error x.2
  | none => .ok (built.filterMap fun x => match x.2 with | .ok p => some (x.1, p) | .error _ => none)

/-- The first shared-use conflict of an entry: the core and word whose op is padded (DEDUCED, log entry 18). -/
def firstConflict (s : State) (l : List Event) : Option (Nat × Nat) :=
  let shared := (clashes (l.flatMap Event.claims)).filter (fun p => !ownClash p)
  match leastBy (fun p => (p.1.cycle * 2 ^ 24 + p.1.key) * 2 ^ 17 + Nat.min p.1.user p.2.user) shared with
  | some p => let x := laterClaim p; some (x.user, x.pc)
  | none => match entryPrograms s l with
    | .error x => some (x.core, x.pc)
    | .ok _ => none

/-- The first conflict over entries, lowest entry first: entry, core, word. -/
def Job.conflict (j : Job) (xs : List CoreSect) : List Nat → Option (Nat × Nat × Nat)
  | [] => none
  | e :: t => match firstConflict j.s (traceOf j.s xs e noEnd).2 with
    | some (c, pc) => some (e, c, pc)
    | none => j.conflict xs t

/-- Pad the op of a conflict by one cycle, and schedule its core again (DEDUCED, log entry 18). -/
def Job.settle (j : Job) (e c pc : Nat) (ws : List CoreWork) : Judged (List CoreWork) :=
  judgeAll (fun w =>
    if w.lcore = c then
      match opAtWord w.places pc with
      | some i => j.schedule e w.left { w with pads := w.pads.add i 1 false }
      | none => .ok w
    else .ok w) ws

/-- The conflict passes (R295), at most 65,536 (R297). -/
def Job.resolve (j : Job) (nent : Nat) : Nat → List CoreWork → Judged (List CoreWork)
  | 0, _ => .error (0x0705, { variant := j.v })
  | n + 1, ws => do
    let xs ← judgeAll j.plain ws
    match j.conflict xs (List.range nent) with
    | none => return ws
    | some (e, c, pc) =>
      let ws1 ← j.settle e c pc ws
      j.resolve nent n ws1

/-! ### The result (R297, R299, R300) -/

/-- The I/O sites of the copies of a flow: those of its ports, and the hub's for local delivery (R138). -/
def copySites (s : State) (sets : List TableSet) (flow : Nat) : List (Option Nat × Nat) :=
  match (sets.find? (fun t => t.index == 0)).bind (fun t => t.xbar.find? (fun x => x.input == 31 && x.flow == flow)) with
  | none => []
  | some x => (maskPorts x.dmask).map (fun p => (some p, portSite s.variant p)) ++ (if bit x.dmask.toNat 23 then [(none, 0)] else [])

/-- A parcel's copy as posted: flow, `SEQ`, the port or local delivery, the cycle at whose end it is posted. -/
structure Posting where
  flow : Nat
  seq : Nat
  port : Option Nat
  cycle : Nat
  core : Nat
  pc : Nat

/-- The postings of an event. -/
def Event.postings (s : State) (sets : List TableSet) (e : Event) : List Posting :=
  match e.q with
  | none => []
  | some q =>
    if q.null || q.desc.cop != 0x40 then [] else
    let flow := q.sa.toNat % 2 ^ 20
    (List.range q.desc.count).flatMap fun i => (copySites s sets flow).map fun d =>
      { flow, seq := e.posted + i, port := d.1, cycle := e.cycle + 8 * i + 12 + s.lambda e.core d.2, core := e.core, pc := e.pc }

/-- The last cycle of an event that counts for E: its issue or dispatch, its ready cycles, which R54 bounds for instructions too, and its postings
(DEDUCED, log entry 18). -/
def Event.last (s : State) (sets : List TableSet) (e : Event) : Nat :=
  (e.postings s sets).foldl (fun m p => Nat.max m p.cycle) e.ready

/-- E (R299) (DEDUCED, log entry 18). -/
def scheduleLength (s : State) (sets : List TableSet) (ls : List (List Event)) (progs : List (List (Nat × List DramCmd))) : Nat :=
  let a := ls.flatten.foldl (fun m e => Nat.max m (e.last s sets)) 0
  1 + progs.flatten.foldl (fun m p => Nat.max m (programEnd p.2)) a

/-- The slots of a port of `n` slots that a flow's entries of set 0 cover in a frame, as their times in thirds of a ns from the tick, in order (DEDUCED, log entry
19). -/
def coveredTimes (n : Nat) (sets : List TableSet) (p flow : Nat) : List Nat :=
  let third := if n = 1536 then 2 else 4
  match sets.find? (fun t => t.index == 0) with
  | none => []
  | some t => sortBy id ((t.tx.filter (fun x => x.port == p && x.flow == flow)).flatMap fun x =>
      (List.range (x.rounds + 1)).flatMap fun r =>
        ((List.range n).filter (fun i => i % 32 != 0 && x.runCovers i)).map (fun i => 3072 * (x.round + r) + third * i))

/-- Whether a parcel's copy is ready by its departure slot (R33, R300). -/
def Posting.inTime (n : Nat → Nat) (sets : List TableSet) (m : Mode) (x : Posting) : Bool :=
  match x.port with
  | none => true
  | some p => match (coveredTimes (n p) sets p x.flow)[x.seq]? with
    | none => false
    | some t => decide (768 * floorKhz m + 3000000 * x.cycle ≤ floorKhz m * t)

/-- Whether a port runs otherwise than `EXCHANGE` assumes (R300): a longer flight, or retry on one side only; `EXCHANGE` assumes retry where its
`FLIGHT_DECL` allows it (R195). -/
def profileBad (s : State) (c : Crate) (v p : Nat) : Bool :=
  match c.exchange v p with
  | none => false
  | some (_, f) => decide (f < (s.port p).flightDecl) || (s.port p).retryOn != decide (f ≤ 500)

/-- The table sets with absolute flows (R284). -/
def absoluteSets (base : Nat) (l : List TableSet) : List TableSet :=
  l.map fun t => { t with
    tx := t.tx.map (fun e => { e with flow := e.flow + base }), xbar := t.xbar.map (fun e => { e with flow := e.flow + base }),
    landing := t.landing.map (fun e => { e with flow := e.flow + base }) }

/-- The image of a variant before its digest. -/
def Job.frame (j : Job) (nent : Nat) : Image :=
  let s := j.s
  let (x, y, z) := s.coords
  let (rx, ry, rz) := s.relative x y z
  let sets := absoluteSets s.fabric.flowBase ((j.c.sets j.v).getD [])
  let src := readSources (j.c.buffers j.v) (j.c.data 0x13 j.v)
  { variant := j.v, fit := true, fpc := s.mgmt.fpc, assy := assyCode s.variant, crateDigest := j.c.digest, sheetDigest := slice s.sec.sheetDigest 0 64,
    devX := rx, devY := ry, devZ := rz, budget := budgetOf j.c.frameRounds j.c.mode s.fabric.guardPm, guardPm := s.fabric.guardPm,
    inputDigest := s.inputDigest, stepping := s.stepping, mode := j.c.mode, frameRounds := j.c.frameRounds, nent, nframes := j.c.nframes,
    flowBase := s.fabric.flowBase, sets, flips := j.c.flips j.v,
    sources := src.2.map (fun r => { r with flow := r.flow + s.fabric.flowBase }), sourceDevs := src.1, areas := readAreas (j.c.data 0x30 j.v),
    seeds := if (j.c.data 0x40 j.v).isEmpty then [] else readSeeds (j.c.data 0x40 j.v), signed := j.c.signed }

/-- The dispatch cycle of descriptor `i`, where it asks for the check and dispatches exactly once (R297). -/
def CoreWork.dispatchOf (w : CoreWork) (ls : List (List Event)) (i : Nat) : Option Nat :=
  let d := ls.flatten.filter fun e => e.core == w.lcore && (match e.q with | some q => q.daddr == descTop w.r + 4 * i | none => false)
  match d with
  | [e] => if w.asksDce i then some (e.cycle % 4096) else none
  | _ => none

/-- A location with the index of the op whose word it names (R305). -/
def opLocated (ws : List CoreWork) (l : Location) : Location :=
  match (ws.find? (fun w => w.lcore == l.core)).bind (fun w => opAtWord w.places l.word) with
  | some i => { l with op := i }
  | none => l

/-- Translate a variant (R295): its image with the work of its cores, or the reason and the location. The budget is checked before the deadlines. -/
def Job.translate (j : Job) : Judged (Image × List CoreWork) := do
  let rs := ((j.c.cores j.v).getD []).map (fun r => ({ r } : CoreWork))
  let nent := rs.foldl (fun m w => Nat.max m (entriesOf w.r.head).length) 1
  let ws0 ← judgeAll (j.scheduleAll (List.range nent)) rs
  let ws ← j.resolve nent 65537 ws0
  let xs ← judgeAll j.plain ws
  let ls := (List.range nent).map (fun e => (traceOf j.s xs e noEnd).2)
  let progs := ls.map (fun l => match entryPrograms j.s l with | .ok p => p | .error _ => [])
  let i0 := j.frame nent
  let e := scheduleLength j.s i0.sets ls progs
  let posts := ls.zipIdx.flatMap (fun l => l.1.flatMap (fun x => (x.postings j.s i0.sets).map (fun p => (l.2, p))))
  let at_ : Location := { variant := j.v }
  let programs := (List.range (160 * mioCount j.s.variant)).map fun k =>
    (k, progs.map (fun p => encodeProgram ((p.find? (fun x => x.1 == k)).elim [] (·.2))))
  match programs.find? (fun p => decide (32768 < (p.2.map List.length).sum)) with
  | some p => throw (0x070B, { at_ with port := p.1 })
  | none => pure ()
  if i0.budget < e then throw (0x0703, { at_ with cycle := e - 1, detail := i0.budget })
  match posts.find? (fun p => !p.2.inTime (j.c.slots j.s j.v) i0.sets j.c.mode) with
  | some (n, p) => throw (0x0706, opLocated ws
      { at_ with entry := n, core := p.core, word := p.pc, cycle := p.cycle, port := p.port.getD 0xFFFF, detail := p.flow })
  | none => pure ()
  let cores ← judgeAll (fun w => match w.sect j.s.fabric.flowBase j.dat (w.dispatchOf ls) with
    | some x => (.ok x : Judged CoreSect)
    | none => .error (0x0704, { at_ with core := w.lcore })) ws
  let i := { i0 with e, cores, programs }
  return ({ i with digest := hashH (i.bytes (j.c.data 0x20 j.v)) }, ws)

end Sys2Proof.Machine
end

