-- ==== Sys2Proof/Machine/Deep.lean ====
section
/-! DEFINITION. The verifier's deep checks (R304) of a timetable image, on the traces of its entries. -/

namespace Sys2Proof.Machine

open Sys2Proof

/-- An image under check: the state whose inputs it was made for, the crate, and for each entry its trace and whether every core ended. -/
structure Checked where
  s : State
  c : Crate
  i : Image
  traces : List (List Event)
  ended : List (List Nat)

/-- The traces of an image in the schedule that it declares. -/
def checkedOf (s : State) (c : Crate) (i : Image) : Checked :=
  let rs := (List.range i.nent).map (fun e => traceOf s i.cores e i.e)
  { s, c, i, traces := rs.map (·.2), ended := rs.map (fun r => (r.1.cores.filter (fun k => k.2.ended)).map (·.1)) }

/-- What a check finds: the location. -/
abbrev Finding := Option Location

/-- The first finding of a list. -/
def firstOf (l : List Finding) : Finding := l.findSome? id

/-- Look at every event, with the number of its entry. -/
def Checked.scan (k : Checked) (f : Nat → List Event → Event → Finding) : Finding :=
  k.traces.zipIdx.findSome? fun l => l.1.findSome? (f l.2 l.1)

/-- The location of an event. -/
def Event.location (k : Checked) (n : Nat) (e : Event) : Location :=
  { variant := k.i.variant, entry := n, core := e.core, word := e.pc, cycle := e.cycle }

/-- Faults that the simulation raises for some reasons, with an object that a test accepts. -/
def Checked.faults (k : Checked) (reasons : List Nat) (obj_ : Nat → Bool) : Finding :=
  k.scan fun n _ e => e.faults.findSome? fun f =>
    if reasons.contains f.1.reason && obj_ f.1.object then
      some { e.location k n with cycle := f.1.cycle, object := f.1.object, detail := f.1.detail } else none

/-- Clashes of claims that a test selects. -/
def Checked.clash (k : Checked) (p : Claim × Claim → Bool) (object : Claim → Nat) : Finding :=
  k.traces.zipIdx.findSome? fun l => ((clashes (l.1.flatMap Event.claims)).find? p).map fun x =>
    let y := laterClaim x
    { variant := k.i.variant, entry := l.2, core := y.user, word := y.pc, cycle := y.cycle, object := object y }

/-- 0x0710: banks, attic ports and declared masks (R63, R64, R131, R167). -/
def Checked.vBank (k : Checked) : Finding :=
  firstOf [
    k.faults [0x0401, 0x0402] (fun _ => true),
    k.clash (fun p => decide (2 ^ 20 ≤ p.1.key)) (fun y => if y.key % 16 = 8 then obj 8 0 else obj 7 (y.key % 16))]

/-- 0x0711: shared paths, Hatch ports, generators (R68, R117, R145). -/
def Checked.vPath (k : Checked) : Finding :=
  firstOf [k.faults [0x0403] (fun _ => true), k.clash (fun p => decide (p.1.key < 2 ^ 20)) (fun y => obj 9 (y.key % 4096))]

/-- The commands of program `n` of controller `m`, none where an entry has no defined kind. -/
def Image.program (i : Image) (m n : Nat) : Option (List DramCmd) :=
  match i.programs.find? (fun p => p.1 == m) with
  | some p => match p.2[n]? with
    | some ws => expandProgram ws [] (0, [])
    | none => some []
  | none => some []

/-- 0x0712: DRAM timing, refresh and scrub windows, column count and the state at the end of the frame (R155 to R157, R160, R161). -/
def Checked.vDram (k : Checked) : Finding :=
  (List.range (160 * mioCount k.s.variant)).findSome? fun m => (List.range k.i.nent).findSome? fun n =>
    let ok := match k.i.program m n with | some l => programOk m k.i.e l | none => false
    if ok then none else some { variant := k.i.variant, entry := n, port := m }

/-! ### Memory in use (R47, R48, R62) -/

/-- An access of a core's store: the core, the store, first byte, length, cycle, whether a write. -/
structure Access where
  core : Nat
  attic : Bool
  addr : Nat
  n : Nat
  cycle : Nat
  write : Bool

/-- Whether a write in flight of an event covers bytes of a core's store. -/
def Event.writesTo (e : Event) (c : Nat) (attic : Bool) (a n : Nat) : Bool :=
  e.pends.any fun p => p.1 == c && p.2.writes.any fun w =>
    w.space == (if attic then Space.attic else .shelf) && rangesMeet w.addr w.bytes.length a n

/-- The accesses of an event: its uses of banks and attic ports. -/
def Event.accesses (e : Event) : List Access :=
  e.uses.map fun u =>
    let attic := u.2.bank == 8
    let n := if attic then 64 else 32
    { core := u.1, attic, addr := u.2.addr, n, cycle := u.2.cycle, write := u.2.src.isSome || e.writesTo u.1 attic u.2.addr n }

/-- The landing entries of table set 0. -/
def Image.landings (i : Image) : List LEntry := (i.sets.find? (fun t => t.index == 0)).elim [] (·.landing)

/-- Whether bytes of a core's store meet a landing buffer. -/
def LEntry.overlaps (b : LEntry) (c : Nat) (attic : Bool) (a n : Nat) : Bool :=
  b.lcore == c && b.attic == attic && rangesMeet b.base (256 * b.count) a n

/-- The source buffer of a `POST` that sends off the package: store, first byte and length. -/
def Event.sourceBuffer (k : Checked) (e : Event) : Option (Bool × Nat × Nat) :=
  match e.q with
  | none => none
  | some q =>
    if q.null || q.desc.cop != 0x40 || !(copySites k.s k.i.sets (q.sa.toNat % 2 ^ 20)).any (fun d => d.1.isSome) then none
    else some (opSpace q.desc.opnd0 == some .attic, opAddr q.desc.opnd0 q.base0, 256 * q.desc.count)

/-- Whether an access writes bytes of a core's store. -/
def Access.hits (a : Access) (c : Nat) (attic : Bool) (b n : Nat) : Bool :=
  a.write && a.core == c && a.attic == attic && rangesMeet a.addr a.n b n

/-- The frames that the lifetime checks look at, each with the frame after it: one turn of the moduli and the entries, or those of a crate with a last
frame. -/
def Image.pairs (i : Image) : List Nat :=
  let n := 8 * Nat.max 1 i.nent
  List.range (if i.nframes = 0 then n else Nat.min n (i.nframes - 1))

/-- R47: a source buffer is written neither in the rest of its frame nor in the next, by a core or by a landing. -/
def Checked.sourceKept (k : Checked) : Finding :=
  k.scan fun n l e => match e.sourceBuffer k with
    | none => none
    | some (attic, b, len) =>
      let after := k.i.pairs.filter (fun f => f % Nat.max 1 k.i.nent == n)
      let here := (l.flatMap Event.accesses).any (fun a => a.hits e.core attic b len && decide (e.cycle < a.cycle))
      let next := !after.isEmpty &&
        ((k.traces.getD ((n + 1) % Nat.max 1 k.i.nent) []).flatMap Event.accesses).any (fun a => a.hits e.core attic b len)
      let lands := k.i.landings.any fun x => x.overlaps e.core attic b len && (after ++ after.map (· + 1)).any fun f => f % Nat.max 1 x.pmod == x.phase
      if here || next || lands then some { e.location k n with detail := b } else none

/-- R48: no landing buffer of frame `f + 1` shares a byte with what frame `f` reads, writes, sends or lands. A buffer of modulus 1 is not judged
against itself. -/
def Checked.landingsApart (k : Checked) : Finding :=
  k.i.pairs.findSome? fun f =>
    let soon := k.i.landings.zipIdx.filter (fun b => b.1.phase == (f + 1) % Nat.max 1 b.1.pmod)
    let now_ := k.i.landings.zipIdx.filter (fun b => b.1.phase == f % Nat.max 1 b.1.pmod)
    let acc := (k.traces.getD (f % Nat.max 1 k.i.nent) []).flatMap Event.accesses
    soon.findSome? fun b =>
      if acc.any (fun a => b.1.overlaps a.core a.attic a.addr a.n) ||
          now_.any (fun x => x.2 != b.2 && x.1.overlaps b.1.lcore b.1.attic b.1.base (256 * b.1.count)) then
        some { variant := k.i.variant, entry := f % Nat.max 1 k.i.nent, core := b.1.lcore, detail := b.1.base } else none

/-- 0x0713: buffer lifetimes. -/
def Checked.vLifetime (k : Checked) : Finding := firstOf [k.sourceKept, k.landingsApart]

/-! ### Flags (R62, R78, R80, R228) -/

/-- The wait of an event on a sync flag. -/
def Event.waits (e : Event) : Option Nat :=
  match e.q with
  | some q => if q.desc.wen then some q.desc.wflag else none
  | none => if e.unit = 0 ∧ opcOf e.word = 0x40 ∧ e.skipped = false then some (e.word % 64) else none

/-- The clearings of sync flag `f` of core `c` by an event, in their cycles. -/
def Event.clears (e : Event) (c f : Nat) : List Nat :=
  let clr := match e.q with | some q => q.desc.wclr | none => bit e.word 6
  (if e.core == c && e.waits == some f && clr then [e.cycle] else []) ++
  (e.pends.filter (fun p => p.1 == c && p.2.clearFlag == some f)).map (fun p => p.2.ready)

/-- The settings of sync flag `f` of core `c` by an event: cycle, unit, and the other core whose SX it is. -/
def Event.sets (e : Event) (c f : Nat) : List (Nat × Nat × Option Nat) :=
  (e.pends.filter (fun p => p.1 == c && p.2.flag == some f)).map (fun p => (p.2.ready, p.2.unit, p.2.src))

/-- Whether a setting comes from the declared setter (R80). -/
def Setter.is (t : Setter) (x : Nat × Nat × Option Nat) : Bool := if t.other then x.2.2 == some t.core else x.2.2.isNone && x.2.1 == t.unit

/-- 0x0714: every wait finds its flag set by its declared setter at least one cycle earlier, and not cleared since. -/
def Checked.vWait (k : Checked) : Finding :=
  k.scan fun n l e => match e.waits with
    | none => none
    | some f =>
      let t := (k.i.cores.find? (fun c => c.lcore == e.core)).elim {} (fun c => spGet {} c.setters f)
      let cl := l.flatMap (fun x => x.clears e.core f)
      let ok := (l.flatMap (fun x => x.sets e.core f)).any fun x =>
        t.is x && decide (x.1 < e.cycle) && !cl.any (fun z => decide (x.1 < z) && decide (z < e.cycle))
      if ok then none else some { e.location k n with object := obj 4 f, detail := f }

/-- 0x0715: latency use and write order (R82, R83, R125). -/
def Checked.vLatency (k : Checked) : Finding := k.faults [0x0101, 0x0102] (fun _ => true)

/-- The `CHKA` of flag `f` that an event is. -/
def Event.checks (e : Event) (c f : Nat) : Bool := e.core == c && e.unit == 0 && opcOf e.word == 0x43 && e.word % 64 == f && !e.skipped

/-- The cycle that the declared arrival of a buffer gives (R300). -/
def Checked.leastCheck (k : Checked) (c f : Nat) : Nat :=
  match (k.i.cores.find? (fun x => x.lcore == c)).bind (fun x => x.afmap.find? (fun e => e.1 == f)) with
  | none => 0
  | some e => match k.c.arrive k.i.variant e.2 with
    | some a => if a ≤ 768 then 0 else ceilDiv ((a - 768).toNat * ceilKhz k.i.mode) 3000000
    | none => 0

/-- 0x0716: checks not before their earliest cycle, reads of landed data at least 16 cycles after them, and flags cleared after them (R33, R62, R228)
(DEDUCED, log entry 19). -/
def Checked.vArrival (k : Checked) : Finding :=
  k.scan fun n l e =>
    let early := e.unit == 0 && opcOf e.word == 0x43 && !e.skipped && decide (e.cycle < k.leastCheck e.core (e.word % 64))
    let read := e.accesses.any fun a => !a.write && k.i.landings.any fun b =>
      b.overlaps a.core a.attic a.addr a.n && !l.any (fun x => x.checks a.core b.aflag && decide (x.cycle + 16 ≤ a.cycle))
    let clr := e.pends.any fun p => match p.2.clearArrival with
      | some f => !l.any (fun x => x.checks p.1 f && decide (x.cycle < e.cycle))
      | none => false
    if early || read || clr then some (e.location k n) else none

/-! ### Accumulation (R98) -/

/-- The products counted in tiles, by 4 × core + tile, and in the partials exported, by core, store and address. -/
structure Counts where
  tiles : List (Nat × Nat) := []
  parts : List ((Nat × Bool × Nat) × Nat) := []

/-- The counts after an event. -/
def Counts.after (m : Counts) (e : Event) : Counts :=
  match e.q with
  | none => m
  | some q =>
    let d := q.desc
    let t := 4 * e.core + d.tile
    let n := spGet 0 m.tiles t
    let place := (e.core, opSpace d.opnd0 == some .attic, opAddr d.opnd0 q.base0)
    if q.null then m
    else match d.cop with
      | 0x01 => { m with tiles := spSet 0 m.tiles t (n + d.count * (mxStep d.fmta d.fmtb).1) }
      | 0x03 => { m with tiles := spSet 0 m.tiles t 0 }
      | 0x04 => if e.retile then { m with tiles := spSet 0 m.tiles t 0 } else m
      | 0x0A => { m with parts := (place, n) :: m.parts }
      | 0x0B => { m with tiles := spSet 0 m.tiles t (n + ((m.parts.find? (fun p => p.1 == place)).elim 0 (·.2))) }
      | _ => m

/-- The first event after which a tile holds more products than its headroom allows. -/
def overCount : Counts → List Event → Option Event
  | _, [] => none
  | m, e :: t =>
    let m1 := m.after e
    let above := match e.q with
      | some q => (q.desc.cop == 1 || q.desc.cop == 0x0B) && decide (2 ^ e.h < spGet 0 m1.tiles (4 * e.core + q.desc.tile))
      | none => false
    if above then some e else overCount m1 t

/-- 0x0717: accumulation counts against headroom. A partial that another core or device has sent counts nothing here, since the image does not say
what it carries (DEDUCED, log entry 19). -/
def Checked.vAccumulate (k : Checked) : Finding :=
  k.traces.zipIdx.findSome? fun l => (overCount {} l.1).map (fun e => e.location k l.2)

/-- 0x0718: arms, loops and skips (R75, R124). The other faults of class 0x03 are left to the run-time checks (DEDUCED, log entry 19). -/
def Checked.vBranch (k : Checked) : Finding :=
  firstOf [
    k.faults [0x0301, 0x0309] (fun _ => true),
    k.scan fun n _ e =>
      if e.unit ≠ 0 ∨ opcOf e.word ≠ 3 then none else
      match k.i.cores.find? (fun c => c.lcore == e.core) with
      | none => none
      | some c =>
        let rejoin := e.pc + bits e.word 50 40 + 1
        let j := (spGet 0 c.code (bits e.word 26 16 + bits e.word 15 0 - 1)).toNat
        let (a, b) := armsOf k.s c.code e.pc
        if a == b && opcOf j == 4 && bits j 26 16 == rejoin then none else some { e.location k n with detail := rejoin }]

/-! ### Staging, spill, departure stores and cellars -/

/-- What an event reads of its core's staging: first byte, and for each byte the cycle of its read (R138). -/
def Event.stagingRead (e : Event) : Option (Nat × Nat × (Nat → Nat)) :=
  match e.q with
  | none => none
  | some q =>
    let d := q.desc
    let a := opAddr d.opnd0 q.base0
    if q.null || opSpace d.opnd0 != some .staging then none
    else match d.cop with
      | 0x31 => some (a, d.count, fun o => e.cycle + 1 + o / (if opSpace d.opnd1 == some .attic then 64 else 32))
      | 0x32 => some (a, d.count, fun o => e.cycle + 1 + o / 32)
      | 0x33 => some (a, d.count, fun o => e.cycle + o / (pathOf d.fn).1)
      | 0x35 | 0x37 => some (a, d.count, fun o => e.cycle + o / 512)
      | 0x38 => some (a, 768 * d.count, fun o => e.cycle + 12 * (o / 768) + 1)
      | _ => none

/-- 0x0719: every byte read from staging was written in the same frame (R131). -/
def Checked.vStaging (k : Checked) : Finding :=
  k.scan fun n l e => match e.stagingRead with
    | none => none
    | some (a, len, at_) =>
      let ws := l.flatMap fun x => x.pends.flatMap fun p =>
        if p.1 = e.core then (p.2.writes.filter (fun w => w.space == .staging)).map (fun w => (w.addr, w.bytes.length, p.2.ready)) else []
      let bad := (List.range len).find? fun o =>
        !ws.any (fun w => decide (w.1 ≤ a + o) && decide (a + o < w.1 + w.2.1) && decide (w.2.2 ≤ at_ o))
      bad.map fun o => { e.location k n with detail := a + o }

/-- 0x071A: nothing ready after cycle E − 1, and one `FRAME_END` of every core in each frame (R53, R54, R168). -/
def Checked.vSpill (k : Checked) : Finding :=
  firstOf [
    k.faults [0x0105] (fun _ => true),
    k.ended.zipIdx.findSome? fun l => (k.i.cores.find? (fun c => !l.1.contains c.lcore)).map fun c =>
      { variant := k.i.variant, entry := l.2, core := c.lcore }]

/-- 0x071B: the copies of this device that wait in a port's departure store (R220): posted and not yet departed at any posting. -/
def Checked.vDeparture (k : Checked) : Finding :=
  k.traces.zipIdx.findSome? fun l =>
    let posts := l.1.flatMap (fun e => e.postings k.s k.i.sets)
    (List.range 22).findSome? fun p =>
      let mine := (posts.filter (fun x => x.port == some p)).map fun x =>
        (768 * floorKhz k.i.mode + 3000000 * x.cycle, ((coveredTimes (k.c.slots k.s k.i.variant p) k.i.sets p x.flow)[x.seq]?).elim 0 (fun t => floorKhz k.i.mode * t))
      if mine.any (fun x => decide (1024 < (mine.filter (fun y => decide (y.1 ≤ x.1) && decide (x.1 ≤ y.2))).length)) then
        some { variant := k.i.variant, entry := l.2, port := p } else none

/-- Whether a beat lies within one MIO's zones, the populated cellar, outside the reservation and outside the ring (R153, R288, R354). -/
def Checked.beatOk (k : Checked) (first b : Beat) : Bool :=
  b.bin || (decide (b.da + 512 ≤ k.s.populated - k.c.reserve) && decide (k.s.ringSize ≤ b.da) &&
    (match findZone k.s.cellar.zones b.da, findZone k.s.cellar.zones first.da with
      | some x, some y => x.1.mio == y.1.mio
      | _, _ => false))

/-- Whether the commands of a program serve a column command: the row of a bin-relative request is its own (R340). -/
def served (l : List DramCmd) (x : ColCmd) : Bool :=
  l.any fun y => y.kind == x.cmd.kind && y.cycle == x.cmd.cycle && y.bank == x.cmd.bank && y.col == x.cmd.col && y.tag == x.cmd.tag
    && (x.bin || y.row == x.cmd.row)

/-- 0x071C: cellar transfers (R146, R153, R159, R288). -/
def Checked.vCellar (k : Checked) : Finding :=
  firstOf [
    k.faults [0x0404] (fun o => o / 4096 == 10),
    k.scan fun n _ e => match e.beats k.s 0 with
      | [] => none
      | b :: t => ((b :: t).find? (fun x => !k.beatOk b x)).map fun x =>
        { e.location k n with object := obj 10 (x.da / 2 ^ 36), detail := x.da / 16 % 2 ^ 32 },
    k.traces.zipIdx.findSome? fun l => ((columnsOf k.s (beatsOf k.s l.1)).find? (fun x =>
        !served ((k.i.program x.1 l.2).getD []) x.2)).map fun x =>
      { variant := k.i.variant, entry := l.2, core := x.2.core, word := x.2.pc, cycle := x.2.cmd.cycle, port := x.1 }]

/-- A reason with its location (DEDUCED, log entry 19). -/
def asReason (r : Nat) (f : Finding) : Option (Nat × Location) := f.map (fun l => (r, l))

/-- The first deep check that fails (R304) (DEDUCED, log entry 19). -/
def Checked.deep (k : Checked) : Option (Nat × Location) :=
  ([asReason 0x0710 k.vBank, asReason 0x0711 k.vPath, asReason 0x0712 k.vDram, asReason 0x0713 k.vLifetime, asReason 0x0714 k.vWait,
    asReason 0x0715 k.vLatency, asReason 0x0716 k.vArrival, asReason 0x0717 k.vAccumulate, asReason 0x0718 k.vBranch,
    asReason 0x0719 k.vStaging, asReason 0x071A k.vSpill, asReason 0x071B k.vDeparture, asReason 0x071C k.vCellar]).findSome? id

end Sys2Proof.Machine
end

