-- ==== Sys2Proof/Machine/Verify.lean ====
section
/-! DEFINITION. VERIFY (R302 to R306): the loader's own checks of a variant (R125, R158, R178, R260, R299, R300, R308, R327, R341), the policy, the
two forms of the command, and its results. -/

namespace Sys2Proof.Machine

open Sys2Proof

/-! ### Checks that hold under every policy -/

/-- The bytes that an area takes in the Hatch: twice its size for a kind with a sealed copy (R178). -/
def Area.extent (a : Area) : Nat := if a.kind = 1 ∨ a.kind = 4 then 2 * a.size else a.size

/-- Whether no two areas of a list overlap. -/
def areasApart : List Area → Bool
  | [] => true
  | a :: t => t.all (fun b => !rangesMeet a.offset a.extent b.offset b.extent) && areasApart t

/-- Whether the areas keep to R176 and R178: at most 16, each of a kind, in units of 64 KiB, within the Hatch and apart. -/
def areasOk (l : List Area) : Bool :=
  decide (l.length ≤ 16) && areasApart l &&
    l.all (fun a => decide (a.kind ≤ 4) && a.size % 65536 == 0 && a.offset % 65536 == 0 && decide (a.offset + a.extent ≤ hatchSize))

/-- Whether the areas serve the streams and the requests of a crate (R327, R341) with `p` batch positions; the token output area holds two frame slots
(R343). -/
def streamAreasOk (c : Crate) (p : Nat) (l : List Area) : Bool :=
  let n := fun k => (l.filter (fun a => a.kind == k)).length
  let sizeOf := fun k => (l.find? (fun a => a.kind == k)).elim 0 (·.size)
  let size := sizeOf 3
  (!(bit c.features 4 || bit c.features 5) || (n 3 == 1 && decide (256 + 1048576 ≤ size))) &&
    (!bit c.features 4 || (n 4 == 1 && within 1 16384 p && decide (256 + 128 * p + 1048576 ≤ size) && decide (1 ≤ dirMaxOf p size)
      && decide (2 ≤ sizeOf 4 / (16 * p))))

/-- Whether every logical region that holds a core has exactly one context owner (R125); a region's seeds are 16 by their form (R283) (DEDUCED, log
entry 19). -/
def ownersOk (l : List (Nat × Bool)) : Bool :=
  l.all fun x => (l.filter (fun y => y.1 / 1280 == x.1 / 1280 && y.2)).length == 1

/-- The batch positions of a variant. -/
def Crate.batchOf (c : Crate) (v : Nat) : Nat := (c.variants.find? (fun x => x.index == v)).elim 0 (·.batch)

/-- The reason for which a variant is unfit before anything is simulated, with its location, none where it passes (DEDUCED, log entry 19). -/
def variantFault (s : State) (c : Crate) (v : Nat) (areas : List Area) (owners : List (Nat × Bool)) (ports : List Nat) : Option (Nat × Location) :=
  let at_ : Location := { variant := v }
  firstFault [
    faultIf (decide (s.fabric.flowCount < c.nflows)) 0x0923 at_,
    faultIf (!streamAreasOk c (c.batchOf v) areas) 0x0908 at_,
    faultIf (!areasOk areas) 0x0904 at_,
    faultIf (decide (8388608 < ((areas.filter (fun a => a.kind == 1 || a.kind == 4)).map Area.size).sum)) 0x090A at_,
    faultIf (!ownersOk owners) 0x0905 at_,
    faultAt ports (profileBad s c v) 0x0707 (fun p => { at_ with port := p })]

/-- A core transfer that reaches a sealed copy (R178). -/
def Checked.sealedUse (k : Checked) : Finding :=
  k.scan fun n _ e => match e.q with
    | none => none
    | some q =>
      let off := q.da - hatchBase
      if !q.null && (q.desc.cop == 0x36 || q.desc.cop == 0x37) &&
          k.i.areas.any (fun a => (a.kind == 1 || a.kind == 4) && rangesMeet off q.desc.count (a.offset + a.size) a.size) then
        some { e.location k n with detail := off } else none

/-- A parcel that is not ready by its departure slot (R300). -/
def Checked.late (k : Checked) : Finding :=
  k.scan fun n _ e => ((e.postings k.s k.i.sets).find? (fun p => !p.inTime (k.c.slots k.s k.i.variant) k.i.sets k.i.mode)).map fun p =>
    { e.location k n with cycle := p.cycle, port := p.port.getD 0xFFFF, detail := p.flow }

/-- Whether the deep checks are made (R303). -/
def State.deepDue (s : State) (signed : Bool) : Bool := !(s.settings.verifyPolicy == 1 && signed)

/-- The checks of an image: deadlines, sealed copies, and the deep checks where they are due. The tables are judged at LOAD_TIMETABLE (DEDUCED, log
entry 19). -/
def imageReason (s : State) (c : Crate) (i : Image) : Option (Nat × Location) :=
  let k := checkedOf s c i
  match asReason 0x0706 k.late, asReason 0x0904 k.sealedUse with
    | some x, _ => some x
    | none, some x => some x
    | none, none => if s.deepDue i.signed then k.deep else none

/-! ### The two forms -/

/-- An unfit variant with its reason and location. -/
def unfit (v r : Nat) (l : Location) : Image := { variant := v, fit := false, reason := r, detail := l.detail, location := resAt 24 l.bytes }

/-- A variant as `VERIFY` leaves it: its checked image, or unfit. -/
def verifyVariant (s : State) (c : Crate) (v : Nat) : Image :=
  let rs := (c.cores v).getD []
  let ports := ((c.sets v).getD []).flatMap TableSet.ports
  match variantFault s c v (readAreas (c.data 0x30 v)) (rs.map (fun x => (coreOfHead x.head, bit (le x.head 2 2) 0))) ports with
  | some (r, l) => unfit v r l
  | none => match Job.translate { s, c, v, dat := c.data 0x02 v } with
    | .error (r, l) => unfit v r l
    | .ok (i, ws) => match imageReason s c i with
      | some (r, l) => unfit v r (opLocated ws l)
      | none => i

/-- Whether the programs of an image have their form (R154, R158). -/
def Image.programsOk (i : Image) : Bool :=
  i.programs.all fun p => decide ((p.2.map List.length).sum ≤ 32768) && p.2.all (fun ws => (expandProgram ws [] (0, [])).isSome)

/-- The reason for which an image that the host supplies is refused before it is simulated, with its location (R301 to R303, R467) (DEDUCED, log entry
19). -/
def hostFault (s : State) (c : Crate) (f : List Byte) (sg : SigResult) : Option (Nat × Location) :=
  let i := imageIn f
  let (x, y, z) := s.coords
  let at_ : Location := { variant := if imageForm f then i.variant else 0xFF }
  firstFault [
    faultIf (!imageForm f || decide (c.nvar ≤ i.variant) || i.origin != 1) 0x0701 at_,
    faultIf (!(imageDir f).all Section.digestOk) 0x0709 at_,
    faultIf (sg == .failed) 0x0831 at_,
    (let r := bindingReason s i; faultIf (r != 0) r at_),
    faultIf (i.crateDigest != c.digest || (i.devX, i.devY, i.devZ) != s.relative x y z) 0x0708 at_,
    variantFault s c i.variant i.areas (i.cores.map (fun k => (k.lcore, k.owner))) (i.sets.flatMap TableSet.ports),
    faultIf (!i.programsOk) 0x070B at_,
    faultIf (decide (budgetOf i.frameRounds i.mode i.guardPm < i.e)) 0x0703 at_]

/-- The message of an image's signature: H of its header and directory (R467). -/
def imageMessage (f : List Byte) : List Byte := hashH (f.take (256 + 64 * (imageDir f).length))

/-- The check of the signature of an image. -/
def imageSignature (s : State) (f : List Byte) : SigResult :=
  if imageForm f then checkSignature s (imageDir f) "D1-IMAGE" (imageMessage f) else .unsigned false

/-- An image that the host supplies as `VERIFY` leaves it: `ORIGIN` 1, and its digest that of its bytes. -/
def verifyHost (s : State) (c : Crate) (f : List Byte) (sg : SigResult) : Image :=
  let i := { imageIn f with signed := match sg with | .signed _ => true | _ => false }
  match hostFault s c f sg with
  | some (r, l) => unfit (if imageForm f then i.variant else 0xFF) r l
  | none => match imageReason s c i with
    | some (r, l) => unfit i.variant r l
    | none => i

/-! ### VERIFY -/

/-- The preference of an image's variant, the lower index first among equals (R292). -/
def Crate.prefOf (c : Crate) (i : Image) : Nat := (c.variants.find? (fun x => x.index == i.variant)).elim 65535 (·.pref) * 256 + i.variant

/-- The results of a `VERIFY` that succeeds (R305). -/
def verifyResults (c : Crate) (l : List Image) : List (Nat × Byte) :=
  let fit := l.filter (·.fit)
  resAt 24 (leBytes 1 ((fit.map (fun i => 2 ^ i.variant)).sum) ++ zeros 3
    ++ (List.range 8).flatMap (fun v => leBytes 4 ((fit.find? (fun i => i.variant == v)).elim 0 (·.e)))
    ++ (match leastBy c.prefOf fit with | some i => slice i.digest 0 64 | none => zeros 64))

/-- The final reply of `VERIFY`: `OK` where a variant is fit, else the reason of the most preferred one. -/
def verifyReply (c : Crate) (l : List Image) : Final :=
  if l.any (·.fit) then (stOk, 0, verifyResults c l)
  else match leastBy c.prefOf l with
    | some i => (stRejected, i.reason, i.location)
    | none => rejectAt 0x0701 {}

/-- The images that `VERIFY` leaves replace every earlier image and placement (R306); they hold under the settings in force (R23). -/
def keepImages (s : State) (l : List Image) : State :=
  { s with mgmt := { s.mgmt with
      images := l, verified := l.any (·.fit), verifiedSettings := s.settingsInForce.digest, placed := none, loadedImage := none } }

/-- The end of `VERIFY`. The pull of an image is recorded with purpose 1 (R349). -/
def finishVerify (k : Packet) (s : State) : State × Final :=
  match s.mgmt.crate with
  | none => (s, stBadState, 0, [])
  | some c =>
    if k.par 16 1 = 0 then
      let l := (List.range c.nvar).map (verifyVariant s c)
      (keepImages s l, verifyReply c l)
    else
      let f := slice k.pulled 0 (k.par 32 8)
      let s1 := pullRecord s 1 (k.par 24 8) f
      let sg := imageSignature s1 f
      let s2 := if sg = .failed then countSigFail s1 else s1
      let s3 := { s2 with sec := { s2.sec with
        imageSigned := (match sg with | .signed _ => true | _ => false), imageKey := (match sg with | .signed n => n | _ => 0) } }
      let l := [verifyHost s3 c f sg]
      (keepImages s3 l, verifyReply c l)

/-- `VERIFY`: it needs a crate. -/
def cVerify : Cmd := {
  opcode := 0x21, allowed := [.idle], single := true
  run := fun k s =>
    if s.mgmt.crate.isNone then refuse s stBadState 0
    else if 1 < k.par 16 1 then refuse s stBadParam 0
    else .long s id }

/-- VERIFY: it ends with LONG_COMMAND_DONE. -/
def execVerify (k : Packet) (s : State) : Out := hostCommand cVerify k s

end Sys2Proof.Machine
end

