-- ==== Sys2Proof/Machine/Intake.lean ====
section
/-! DEFINITION. The intake of commands (R411 to R414, R429, R433), the writing of replies (R412, R413), the end of the long commands (R416), and
the frame tick as a whole (R39). -/

namespace Sys2Proof.Machine

open Sys2Proof

/-- The commands of R419. -/
def cmdTable : List Cmd :=
  [cPing, cIdentify, cNegotiate, cSetMode, cGetSettings, cStageSettings, cCommitSettings, cLoadCrate, cVerify, cPlace, cLoadTimetable, cStart,
   cHold, cResume, cAbort, cRunToFrame, cCheckpoint, cRestore, cAdmit, cRetire, cStreamStatus, cReadInventory, cReplayBegin, cGetCertificate,
   cAttest, cDebugUnlock, cSetSlice, cLoadTransit, cPortControl, cDiscover, cReset, cTimeSetUtc, cTimeStatus, cFirmwareStage,
   cFirmwareActivate]

/-- The command of an opcode. -/
def cmdOf (op : Nat) : Option Cmd := cmdTable.find? (fun c => c.opcode == op)

/-! ### Intake (R411, R412, R429, R433) -/

/-- The slots of a ring. -/
def CmdWin.slots (w : CmdWin) : Nat := 2 ^ w.log2Slots

/-- Replies that the host has not consumed. -/
def CmdWin.unread (w : CmdWin) : Nat := (w.rplWritten - w.rplConsumed).toNat

/-- The sequence number after another: it skips 0. -/
def nextSeqOf (q : BitVec 32) : BitVec 32 := if q + 1 = 0 then 1 else q + 1

/-- The packet of a fabric-owner message. -/
def messagePacket (b : List Byte) : Packet :=
  { seq := 0, role := 1, pblk := true, plen := le b 4 4, readOk := decide (8 + le b 4 4 ≤ b.length), params := b.drop 8 }

/-- Whether a fabric-owner message may carry a command (DEDUCED, log entry 53). -/
def messageMay (op : Nat) (k : Packet) : Bool := (decide (0x70 ≤ op) && decide (op ≤ 0x73)) || (op == 0x80 && k.par 16 1 == 2)

/-- Take in the command of a fabric-owner message (DEDUCED, log entry 79). -/
def takeMessage (s : State) (b : List Byte) : State :=
  let op := le b 0 2
  let k := messagePacket b
  if messageMay op k then takeCommand op (cmdOf op) .message k s
  else postReply { s with cmd := { s.cmd with commands := s.cmd.commands + 1 } } 0 stBadParam 0 []

/-- Whether an intake can go on: the window is open, and enabled (DEDUCED, log entry 79). -/
def State.intakeOpen (s : State) : Bool := s.takesCommands && s.cmd.en

/-- Take in fabric-owner messages in order of delivery, at most `n`; with the number left. -/
def takeMessages : Nat → State → Nat × State
  | 0, s => (0, s)
  | n + 1, s =>
    if !s.intakeOpen then (n + 1, s) else
    match s.cmd.foMsgs with
    | [] => (n + 1, s)
    | (_, _, _, b) :: rest => takeMessages n (takeMessage { s with cmd := { s.cmd with foMsgs := rest } } b)

/-- Take in the commands of the ring, at most `n`: it ends at the first slot whose `SEQ` is not the next (DEDUCED, log entry 79). -/
def takeRing : Nat → List RingSlot → State → State
  | 0, _, s => s
  | _ + 1, [], s => s
  | n + 1, q :: rest, s =>
    if s.intakeOpen && q.packet.seq == s.cmd.nextSeq.toNat then
      takeRing n rest
        (takeCommand q.opcode (cmdOf q.opcode) .ring q.packet { s with cmd := { s.cmd with nextSeq := nextSeqOf s.cmd.nextSeq } })
    else s

/-- One intake: skipped while the reply ring has no space, otherwise messages, then the ring, at most 16 commands together (DEDUCED, log entry 79). -/
def intake (ring : List RingSlot) (s : State) : State :=
  if !s.intakeOpen then s
  else if s.cmd.slots - 32 < s.cmd.unread then { s with cmd := { s.cmd with rplFull := true } }
  else
    let (n, s1) := takeMessages 16 { s with cmd := { s.cmd with rplFull := false, intakes := s.cmd.intakes + 1 } }
    takeRing n ring s1

/-- INTAKE: outside a run, every `INTAKE_PERIOD` (R414) (DEDUCED, log entry 79). -/
def execIntake (ring : List RingSlot) (s : State) : Out :=
  .next (if !s.intakeOpen || s.inRun then s else intake ring (s.advanceTo (s.now + s.cmd.intakePeriod)))

/-! ### Replies (R412, R413) -/

/-- The 128 bytes of a reply. -/
def replyBytes (s : State) (r : Reply) : List Byte :=
  let h := leBytes 4 r.seq ++ leBytes 2 r.status ++ leBytes 2 r.reason ++ leBytes 8 s.frameIndex ++ leBytes 8 s.now ++ zeros 104
  (r.results.filter (fun e => decide (24 ≤ e.1) && decide (e.1 < 128))).foldl (fun l e => putAt l e.1 [e.2]) h

/-- Write a reply into the next reply slot: bytes 64 to 127, then bytes 0 to 63, then the counter and the interrupt (DEDUCED, log entry 80). -/
def writeReply (s : State) (r : Reply) : State :=
  let a := s.cmd.rplBase.toNat + 128 * (s.cmd.rplWritten.toNat % s.cmd.slots)
  let b := replyBytes s r
  let s1 := hostWrite (hostWrite s (a + 64) (slice b 64 64)) a (slice b 0 64)
  { s1 with cmd := { s1.cmd with rplWritten := s1.cmd.rplWritten + 1, irqs := s1.cmd.irqs + b2n s1.cmd.irqEn } }

/-- Whether the reply ring has a free slot (DEDUCED, log entry 79). -/
def CmdWin.replySpace (w : CmdWin) : Bool := w.en && decide (w.unread < w.slots)

/-- REPLY_WRITE: the oldest queued reply is written once there is space (DEDUCED, log entry 80). -/
def execReplyWrite (s : State) : Out :=
  .next (match s.cmd.queue with
    | [] => s
    | r :: rest =>
      if !s.cmd.replySpace || s.ideWaits then s
      else replyVisible (writeReply { s with cmd := { s.cmd with queue := rest } } r))

/-! ### The end of the long commands (R416) -/

/-- What the long command in progress does and answers at its end; none while it waits for a device commit (R453, R461) (DEDUCED, log entry 80). -/
def longFinal (o : Outstanding) (s : State) : Option (State × Final) :=
  match o.opcode with
  | 0x13 => if s.settings.deviceDue = 0 then some (finishCommit s) else none
  | 0x20 => some (finishLoadCrate o.packet s)
  | 0x21 => some (finishVerify o.packet s)
  | 0x22 => some (finishPlace o.packet s)
  | 0x23 => some (finishLoad s)
  | 0x35 => some ({ s with capture := false }, o.final.getD (stOk, 0, []))
  | 0x36 => some (finishRestore o.packet s)
  | 0x51 => some (finishReplay o.packet s)
  | 0xA0 => if s.settings.deviceDue = 0 then some (finishFirmwareStage o.packet s) else none
  | 0xA1 => some (activateStaged s, stOk, 0, [])
  | _ => none

/-- The end of a long command: its effect, its final reply, and the system reset that a `FIRMWARE_ACTIVATE` asks for (R462) (DEDUCED, log entry 80).
-/
def longDone (s : State) : State :=
  match s.cmd.out.find? (·.long) with
  | none => s
  | some o => match longFinal o s with
    | none => s
    | some (s1, st, r, res) =>
      let s2 := finishCommand s1 o.opcode st r res
      if o.opcode = 0xA1 ∧ o.packet.par 16 1 = 1 then resetAfterReply 11 s2 else s2

/-- LONG_COMMAND_DONE (DEDUCED, log entry 80; DESIGN CHOICE, log entry 88). -/
def execLongCommandDone (s : State) : Out := .next (longDone s)

/-! ### The frame tick (R39) -/

/-- Whether a tick was taken between two states: a frame was sealed, or one began (DEDUCED, log entry 81). -/
def tookTick (s s1 : State) : Bool := s1.fabric.frameIndex != s.fabric.frameIndex || (s1.inFrame && (s.frame.waitStart || s.paused))

/-- Step 5 of a tick that was taken: a replay's own commands, the intake, and the batch table of the frame after the one that begins (R336, R368,
R429) (DEDUCED, log entry 81). -/
def tickIntake (ring : List RingSlot) (s : State) : State :=
  let s1 := intake ring (if s.inFrame then replayCommands s s.frameIndex else s)
  if s1.inFrame then buildTable s1 (s1.frameIndex + 1) else s1

/-- A frame tick: steps 1 to 4, the port disables that waited for it (R426), and step 5; an `ABORT` with `UNLOAD` that reached its tick unloads the
job (R422) (DEDUCED, log entry 81). -/
def frameTick (ring : List RingSlot) (s : State) : State :=
  let unload := s.frame.abortAt.isSome && s.frame.abortUnload
  let s1 := tickBody s
  if tookTick s s1 then tickIntake ring (disableAtTick s1)
  else if unload && s1.dev == .loaded then unloadJob s1
  else s1

/-- FRAME_TICK. -/
def execFrameTick (ring : List RingSlot) (s : State) : Out := .next (frameTick ring s)

end Sys2Proof.Machine
end

