-- ==== Sys2Proof/Machine/PortRows.lean ====
section
/-! DEFINITION. The events of the ports (R186 to R213, R216 to R245, R264, R271, R499): slot rounds, slots, containers, landing, link-local
notes, training, discovery, and Ethernet frames. -/

namespace Sys2Proof.Machine

open Sys2Proof

/-! ### Rounds and slots -/

/-- A `SAMPLE_CFG` that was written takes effect (R245, R246): a `DIR` of 3 and an `N` above 24 are ignored. -/
def Port.applySample (q : Port) : Port :=
  match q.sampleNext with
  | none => q
  | some v =>
    let d := bits v.toNat 30 29
    let n := bits v.toNat 4 0
    { q with sampleNext := none, sampleEn := bit v.toNat 31, sampleDir := if d = 3 then q.sampleDir else d,
             sampleN := if 24 < n then q.sampleN else n }

/-- The start of a round on one port: counters, the `HEARTBEAT` in front of the notes due, and every 64 rounds the `SYNC` (R200, R246, R391). -/
def portRound (s : State) (p : Nat) : State :=
  let q := (s.port p).applySample
  if !q.talks then s.setPort p q else
  let r := s.round
  let q1 := { q with
    hbMisses := if q.hbSeen.contains (r - 1) then q.hbMisses else q.hbMisses + 1,
    xoffRounds := if q.peerXoff then q.xoffRounds + 1 else q.xoffRounds,
    hbSeen := q.hbSeen.filter (fun n => decide (r ≤ n + 5)) }
  let sync := q.state == .up && r % 64 == 0
  let first := s.heartbeatNote p :: (if sync then [s.syncNote p] else [])
  s.setPort p { q1 with localNotes := first ++ q1.localNotes, ssent := if sync then q1.ssent + 1 else q1.ssent }

/-- ROUND_START: the next slot round begins (R27). Markers are sent; each trained port has its heartbeat due; held requests whose flip is over
and the resend queue go on (R272, R273). -/
def execRoundStart (s : State) : Out :=
  if s.dev = .off then .next s else
  let s1 := s.advanceTo ((s.round + 1) * 1024)
  let s2 := s1.portList.foldl portRound s1
  let s3 := { s2 with resendPosted := 0, fabric := if s2.xoff then { s2.fabric with hubXoff := s2.fabric.hubXoff + 1 } else s2.fabric }
  let s4 := serveQueue 64 s3
  .next (if s4.fabric.flipRound.isSome then s4 else releaseRequests s4)

/-- ROUND_MARKER: a lane's round marker. One whose version or CRC fails is counted and changes nothing; a good one keeps the alignment and
gives the lag of the partner's marker (R187, R200, R207). -/
def execRoundMarker (p : Nat) (lane : Nat) (marker : List Byte) (s : State) : Out :=
  onPort p s fun s =>
    let q := s.port p
    if q.ethernet || q.state == .off || q.state == .disabled || decide (fullWidth p ≤ lane) then s else
    let bad := bits (le marker 8 1) 7 4 != 1 || crc32c (slice marker 8 15) != ofBe (slice marker 23 4)
    if bad then s.setPort p { q with markerErr := q.markerErr + 1 } else
    let d := sext 32 (s.round % 2 ^ 32 + 2 ^ 32 - ofBe (slice marker 10 4)) * 1024 + (s.now % 1024 : Nat)
    s.setPort p { q with ownLag := some (sext 32 (wrap 32 (d * 256))) }

/-- DATA_SLOT: a data slot of a port (R223, R264). -/
def execDataSlot (p slot : Nat) (s : State) : Out := onPort p s fun s => dataSlot s p slot

/-- SERVICE_SLOT: a service slot of a port (R224) (DEDUCED, log entry 50). -/
def execServiceSlot (p slot : Nat) (s : State) : Out := onPort p s fun s => serviceSlot s p slot

/-! ### Link-local notes (R191) -/

/-- Receipt of a `HEARTBEAT` (R200, R201, R263): the partner's state, lag and delays. From a partner of this slice in core reset it stops a
run, at once if frozen. -/
def receiveHeartbeat (s : State) (p : Nat) (b : List Byte) : State :=
  let q := s.port p
  if !q.talks then s else
  let h := le b 0 1
  let lag := le b 8 4
  let s1 := s.setPort p { q with
    peer := if h < 3 then h + 1 else q.peer, hbSeen := s.round :: q.hbSeen, peerLag := if lag = 0x80000000 then none else some (sext 32 lag),
    peerPhyTx := BitVec.ofNat 32 (le b 12 4), peerPhyRx := BitVec.ofNat 32 (le b 16 4) }
  if h = 1 ∧ q.peerSlice.toNat = s.fabric.slice ∧ s.runOn then
    (if s1.freeze.halted then stopNow s1 0x0205 else stopAtTick s1 0x0205)
  else s1

/-- HEARTBEAT: a partner's heartbeat note (R200) (DEDUCED, log entry 39). -/
def execHeartbeat (p : Nat) (body : List Byte) (s : State) : Out := onPort p s fun s => receiveHeartbeat s p body

/-- Receipt of an `IDENTITY` (R204 to R206): kept, answered where asked, and judged. -/
def receiveIdentity (s : State) (p : Nat) (b : List Byte) : State :=
  let q := s.port p
  if !q.talks then s else
  let s1 := s.setPort p { q with
    peerIdentity := slice b 0 28, peerSerial := BitVec.ofNat 64 (le b 0 8), peerX := le b 8 1 % 64, peerY := le b 9 1 % 64,
    peerZ := le b 10 1 % 64, peerPort := BitVec.ofNat 8 (le b 11 1), peerSlice := BitVec.ofNat 8 (le b 12 1) }
  judgeIdentity (if bit (le b 13 1) 1 then sendIdentity s1 p false else s1) p b

/-- IDENTITY: a partner's identity note (R204). -/
def execIdentity (p : Nat) (body : List Byte) (s : State) : Out := onPort p s fun s => receiveIdentity s p body

/-- Keep one numbered piece. -/
def putPiece (l : List (Nat × List Byte)) (i n : Nat) (b : List Byte) : List (Nat × List Byte) :=
  if n ≤ i then l else l.filter (fun e => e.1 != i) ++ [(i, slice b 0 28)]

/-- A piece of a key. -/
def receiveKey (s : State) (p i : Nat) (b : List Byte) : State :=
  if (s.port p).talks then s.modPort p fun q => { q with keyPieces := putPiece q.keyPieces i 70 b } else s

/-- A piece of a signature. -/
def receiveSig (s : State) (p i : Nat) (b : List Byte) : State :=
  if (s.port p).talks then s.modPort p fun q => { q with sigPieces := putPiece q.sigPieces i 119 b } else s

/-- IDKEY: one piece of a partner's public key (R205). -/
def execIdkey (p idx : Nat) (piece : List Byte) (s : State) : Out := onPort p s fun s => receiveKey s p idx piece

/-- IDSIG: one piece of a partner's signature (R205). -/
def execIdsig (p idx : Nat) (piece : List Byte) (s : State) : Out := onPort p s fun s => receiveSig s p idx piece

/-- IDENT_PROOF_CHECKED: the check of a partner's proof completes within 5 ms: `UP`, or `QUIET` with 0x0516 (R205, R206). -/
def execIdentProofChecked (p : Nat) (s : State) : Out :=
  onPort p s fun s =>
    match s.planEntry p with
    | none => s
    | some e =>
      if !(s.port p).talks || !e.sigReq || (s.port p).signed then s
      else if proofOk s p then admitPort (s.modPort p fun q => { q with signed := true }) p
      else quietPort s p 0x0516

/-- Receipt of a `LOSS` note (R196, R272): a request for the parcel of the sending record, where it still exists. -/
def receiveLoss (s : State) (p round slot : Nat) : State :=
  match (s.port p).retry.find? (fun r => r.round % 2 ^ 32 == round && r.slot == slot) with
  | some r => if r.cont = 1 ∨ r.cont = 3 then requestResend s r.hdr.flow (s.nearFrame r.hdr.framelo) r.hdr.seq 1 else s
  | none => s

/-- LOSS: a loss note naming a lost container (R196, R272). -/
def execLoss (p round slot cause : Nat) (s : State) : Out :=
  let _ := cause
  onPort p s fun s => if (s.port p).talks then receiveLoss s p round slot else s

/-! ### Received containers (R189 to R196, R215 to R219, R232, R235) -/

/-- One note of a bundle (R191): a link-local note is consumed by the port, a routed note enters its store on an `UP` torus port (DEDUCED, log entry
42). -/
def receiveBundleNote (t : Nat) (p : Nat) (s : State) (b : List Byte) : State :=
  let h := ofBe (slice b 0 4)
  if bits h 31 28 ≠ 1 then s
  else if bit h 21 then
    let i := bits h 17 0
    let body := b.drop 4
    match bits h 27 22 with
    | 1 => receiveHeartbeat s p body
    | 2 => receiveIdentity s p body
    | 3 => receiveKey s p i body
    | 4 => receiveSig s p i body
    | 5 => receiveLoss s p (le body 0 4) (le body 4 2)
    | 6 => receiveSync s p body t
    | _ => s
  else if p < 6 && s.portUp p then receiveNote s p (noteOf b) else s

/-- A note bundle: credits and `XOFF`, then its notes (R239, R240) (DEDUCED, log entry 42). -/
def receiveBundle (s : State) (p : Nat) (h : Hdr) (payload : List Byte) : State :=
  let s1 := s.modPort p fun q => { q with noteCredit := BitVec.ofNat 12 h.credit, peerXoff := h.xoff }
  let t := s1.now * 65536 + s1.time.mtFrac.toNat / 65536
  drainNotes ((chunks 32 (slice payload 0 256)).foldl (receiveBundleNote t p) s1)

/-- A discard of a parcel whose header passed its checks: a loss, and a request for the copy (R196, R272) (DEDUCED, log entry 40). -/
def discardParcel (s : State) (p : Nat) (h : Hdr) : State :=
  requestResend (portLoss s p) h.flow (s.nearFrame h.framelo) h.seq 1

/-- A copy to each port of the mask; without hops left each is discarded (R219). -/
def forwardCopies (s : State) (p : Nat) (e : XEntry) (h : Hdr) (payload : List Byte) (straggler : Bool) : State :=
  (maskPorts e.dmask).foldl (fun m i =>
    if h.hops = 0 then discardParcel (m.modPort p fun q => { q with dropHops := q.dropHops + 1 }) p h
    else enqueueCopy m i { h with hops := h.hops - 1, cls := if e.outclass then 2 else 0 } payload straggler) s

/-- A received parcel: the slice filter (R235), the rewritten version (R232), the crossbar (R219). -/
def receiveParcel (s : State) (p : Nat) (h : Hdr) (payload : List Byte) (straggler : Bool) : State :=
  if !bit (s.port p).permit.toNat h.slice || (h.cls == 0 && h.slice != s.fabric.slice) then
    raiseAlarm (s.modPort p fun q => { q with dropSlice := q.dropSlice + 1 }) 0x0525 p [] false true
  else if s.fabric.writing.isSome && h.epoch != s.fabric.active then
    discardParcel (s.modPort p fun q => { q with dropStale := q.dropStale + 1 }) p h
  else
    match (s.version h.epoch).lookup p h.flow with
    | none => discardParcel (s.modPort p fun q => { q with dropHdr := q.dropHdr + 1 }) p h
    | some e =>
      if e.transit != (h.cls == 2) then discardParcel (s.modPort p fun q => { q with dropHdr := q.dropHdr + 1 }) p h
      else
        let s1 := forwardCopies s p e h payload straggler
        if bit e.dmask.toNat 23 && h.cls == 0 then enqueueLanding s1 p h payload else s1

/-- A NAK in a received slot word (R194): the container it names is resent once; a record of no container or one served is ignored, and a NAK without
a record makes the container lost (R196) (DEDUCED, log entry 40). -/
def receiveNak (s : State) (p rnd slot : Nat) : State :=
  let q := s.port p
  match q.retry.reverse.find? (fun r => r.round % 256 == rnd && r.slot == slot) with
  | none => lostContainer s p (s.round - (s.round + 256 - rnd) % 256) slot 2
  | some r =>
    if r.cont = 0 ∨ r.cont = 3 ∨ r.served then s
    else s.setPort p { q with
      retry := q.retry.map (fun t => if t.round = r.round ∧ t.slot = r.slot then { t with served := true } else t), resends := q.resends ++ [r] }

/-- A failed container (R193, R196): a NAK, or a loss without retry or where a resend failed. A `QUIET` port reports no loss (R206) (DEDUCED, log
entries 40 and 50). -/
def failedContainer (s : State) (p round slot cont : Nat) : State :=
  let q := s.port p
  if q.state = .quiet ∧ (!q.retryOn ∨ cont = 3) then s
  else if !q.retryOn then lostContainer s p round slot 0
  else if cont = 3 then lostContainer s p round slot 1
  else s.setPort p { q with naks := q.naks ++ [{ round, slot, left := 2 }], naksSent := q.naksSent + 1 }

/-- A container that passed its checks. -/
def goodContainer (s : State) (p round slot cont : Nat) (h : Hdr) (payload : List Byte) : State :=
  if cont = 0 then s
  else if h.hver ≠ 1 ∨ h.cls = 3 then (if (s.port p).state = .quiet then s else dropHdr s p)
  else if h.cls = 1 then receiveBundle s p h payload
  else if (s.port p).state != .up then s
  else
    let service := slot % 32 == 0
    let straggler := service && cont == 1
    let s1 := sampleHdr s p false (round * 1024 + (s.port p).slotTime slot / 65536) slot (cont == 3) straggler service h
    receiveParcel s1 p h payload straggler

/-- CONTAINER_RECEIVE: the code words of a container of a trained port are decoded and counted, the container is checked, its NAK served, and its
content handled at once: a parcel through the crossbar, a bundle note by note (R188 to R196, R211, R216 to R219) (DEDUCED, log entry 89). -/
def execContainerReceive (p round slot : Nat) (words : List (List (BitVec 10))) (s : State) : Out :=
  onPort p s fun s =>
    if !(s.port p).talks || decide ((s.port p).slots ≤ slot) || !wordsFit slot words then s else
    let line := lineContainer slot words
    let container := line.bytes
    let s0 := (s.advanceTo (round * 1024 + (s.port p).slotTime slot / 65536)).modPort p fun q =>
      { q with fecCorr := q.fecCorr + BitVec.ofNat 64 line.corrected, fecUncorr := q.fecUncorr + BitVec.ofNat 32 line.failed }
    let w := ofBe (slice container 0 4)
    let cont := bits w 29 28
    let wordOk := crc8 (slice container 0 3) == bits w 7 0 && bits w 31 30 == 1
    let trailerOk := (cont != 1 && cont != 3) || crc32c (slice container 4 272) == le container 276 4
    if !line.ok then failedContainer s0 p round slot cont
    else if !(wordOk && trailerOk) then failedContainer (s0.modPort p fun q => { q with crcErr := q.crcErr + 1 }) p round slot cont
    else
      let s1 := if bit w 27 then receiveNak s0 p (bits w 15 8) (bits w 26 16) else s0
      goodContainer s1 p round slot cont (hdrOf (slice container 4 16)) (slice container 20 256)

/-- PARCEL_LANDING: the parcel at the head of the landing queue lands; a checkpoint in capture holds the queue (R227, R363) (DESIGN CHOICE, log entry
86). -/
def execParcelLanding (s : State) : Out :=
  match s.landQueue with
  | [] => .next s
  | l :: t => .next (if s.capture then s else landParcel { s with landQueue := t } l)

/-! ### Ports as a whole -/

/-- PORT_DOWN: no valid heartbeat in the four rounds before this one (R201). -/
def execPortDown (p : Nat) (s : State) : Out :=
  onPort p s fun s =>
    let q := s.port p
    if !q.talks || q.hbSeen.any (fun n => decide (s.round ≤ n + 4)) then s else portGoesDown s p .down

/-- PORT_TRAIN: an enabled port that is not trained runs the steps of training (R197, R198). -/
def execPortTrain (p : Nat) (r : TrainResult) (s : State) : Out :=
  onPort p s fun s =>
    let q := s.port p
    if !q.enable || q.talks || q.state == .disabled || (q.state == .up) || !s.time.refSys && !q.ethernet then s else trainPort s p r

/-- TRAIN_RETRY: a `DOWN` port that failed its attempts tries again, once per second (R197). -/
def execTrainRetry (p : Nat) (r : TrainResult) (s : State) : Out :=
  onPort p s fun s =>
    let q := s.port p
    if !q.enable || q.state != .down || !s.time.refSys && !q.ethernet then s else trainPort s p r

/-- FLIGHT_MEASURE: every 64 rounds the flight is measured; above `FLIGHT_DECL` it raises 0x0517 and the state stays (R207). -/
def execFlightMeasure (p : Nat) (s : State) : Out :=
  onPort p s fun s =>
    let q := s.port p
    match q.measure with
    | none => s
    | some f =>
      if !q.talks then s else
      let s1 := s.setPort p { q with flight := BitVec.ofNat 24 (Nat.min f (2 ^ 24 - 1)) }
      if (s1.port p).tooFar && q.state != .discovery then raiseAlarm s1 0x0517 p else s1

/-- Discard the transit copies of a port whose flow has no transmit entry left (R499). -/
def dropTransit (old : List XEntry) (s : State) (p : Nat) : State :=
  let v := s.activeVersion
  let gone := fun (c : Copy) => old.any (fun e => e.flow == c.hdr.flow) && !(v.ttx.any (fun e => e.port == p && e.flow == c.hdr.flow)) &&
    !(v.tx.any (fun e => e.port == p && e.flow == c.hdr.flow))
  let n := ((s.port p).departure.filter gone).length
  let s1 := s.modPort p fun q => { q with departure := q.departure.filter (fun c => !gone c) }
  (List.range n).foldl (fun m _ => dropHdr m p) s1

/-- TRANSIT_APPLY: at the slot-round boundary after its checks a transit plan replaces the transit entries of its version (R425, R499). -/
def execTransitApply (s : State) : Out :=
  match s.transit with
  | none => .next s
  | some (v, tx, xb) =>
    let s1 := s.advanceTo ((s.round + 1) * 1024)
    let old := (s1.version v).txbar
    let s2 := { s1.setVersion v { s1.version v with ttx := tx, txbar := xb } with transit := none }
    .next (if v = s2.fabric.active then s2.portList.foldl (dropTransit old) s2 else s2)

/-! ### Ethernet (R208 to R210, R212) -/

/-- A dropped frame: `ETH_DROPS` and the counter of its cause (R209, R477). -/
def ethDrop (s : State) (p cause : Nat) : State :=
  s.modPort p fun q => { q with ethDrops := q.ethDrops + 1, ethCause := spModify 0 q.ethCause cause (· + 1) }

/-- The bytes of requests waiting for the ring, each padded to 32 (R341) (DEDUCED, log entry 52). -/
def State.requestBytes (s : State) : Nat := (s.hatch.requests.map (fun r => roundUp r.length 32)).sum

/-- A request frame's content after its EtherType (R210): version, length, then the timetable and its area (DEDUCED, log entry 52). -/
def ethRequest (s : State) (p : Nat) (b : List Byte) : State :=
  let n := 8 + le b 2 2
  if b.length < 8 ∨ le b 0 1 ≠ 1 ∨ b.length < n then ethDrop s p 4
  else if !s.ttLoaded || (s.areaOf 3).isNone || decide (1048576 < s.requestBytes + roundUp n 32) then
    let s1 := ethDrop s p 5
    { s1 with hatch := { s1.hatch with reqDropped := s1.hatch.reqDropped + 1 } }
  else
    let s1 := s.modPort p fun q => { q with ethAccept := q.ethAccept + 1 }
    { s1 with hatch := { s1.hatch with requests := s1.hatch.requests ++ [slice b 0 n] } }

/-- Whether an IP packet is an IEEE 1588 message for this port (R209, R212). -/
def ptpPacket (q : Port) (etype : Nat) (b : List Byte) : Bool :=
  if etype = 0x0800 then
    let dst := ofBe (slice b 16 4)
    let dport := ofBe (slice b 22 2)
    decide (le b 0 1 = 0x45) && ofBe (slice b 6 2) % 0x4000 == 0 && le b 9 1 == 17 && (dport == 319 || dport == 320) &&
      ((q.ethIp4 != 0 && dst == q.ethIp4.toNat) || dst == 0xE0000181 || dst == 0xE000006B)
  else if etype = 0x86DD then
    let dst := ofBe (slice b 24 16)
    let dport := ofBe (slice b 42 2)
    bits (le b 0 1) 7 4 == 6 && le b 6 1 == 17 && (dport == 319 || dport == 320) &&
      ((q.ethIp6 != 0 && dst == q.ethIp6.toNat) || dst == 0xFF0E * 2 ^ 112 + 0x181 || dst == 0xFF02 * 2 ^ 112 + 0x6B)
  else false

/-- ETH_FRAME_RECEIVE: a frame without its FCS on an Ethernet-mode ingest port. The first row of R209 that applies decides it; a message of IEEE 1588
is handed to the time-receiver, whose row is PTP_MESSAGE (DEDUCED, log entry 52). -/
def execEthFrameReceive (p : Nat) (fcsOk : Bool) (frame : List Byte) (s : State) : Out :=
  onPort p s fun s =>
    let q := s.port p
    if !isIngest p || !q.ethernet || q.state != .up then s else
    let dst := ofBe (slice frame 0 6)
    let tagged := ofBe (slice frame 12 2) == 0x8100
    let twice := tagged && (ofBe (slice frame 16 2) == 0x8100 || ofBe (slice frame 16 2) == 0x88A8) || ofBe (slice frame 12 2) == 0x88A8
    let vid := ofBe (slice frame 14 2) % 4096
    let vlan := q.ethVlan.toNat % 4096
    let off := if tagged then 16 else 12
    let etype := ofBe (slice frame off 2)
    let body := frame.drop (off + 2)
    let accept := s.modPort p fun q => { q with ethAccept := q.ethAccept + 1 }
    if !fcsOk || decide (2048 < frame.length + 4) then ethDrop s p 0
    else if !((q.ethMac != 0 && dst == q.ethMac.toNat) || dst == 0x011B19000000 || dst == 0x0180C200000E) then ethDrop s p 1
    else if twice || (tagged && (vlan == 0 || vid != vlan)) then ethDrop s p 2
    else if etype = q.ethReqType.toNat % 65536 then ethRequest s p body
    else if etype = 0x88F7 ∨ ptpPacket q etype body then accept
    else ethDrop s p 3

end Sys2Proof.Machine
end

