-- ==== Sys2Proof/Machine/RingRows.lean ====
section
/-! DEFINITION. The writers of stored records: the inventory ring (R354, R355), the box room and its overflow region (R478 to R481), and the queue
of PLDM events (R488). -/

namespace Sys2Proof.Machine

open Sys2Proof

/-! ### The ring writer (R355) -/

/-- Whether the ring writer may act now: without a timetable or in `LOADED`, in a stop, or between frames up to the quiet interval before the
next cycle 0. -/
def State.ringInterval (s : State) : Bool :=
  let quiet := match s.nextCycle0 with
    | some c => decide (c < s.now + s.cellar.quietNs)
    | none => false
  match s.dev with
  | .off | .boot => false
  | .idle | .loaded => true
  | .faulted => s.frame.stopped || !s.ttLoaded
  | .held => s.frame.stopped || (s.frame.tickWait && !quiet)
  | .running | .replay => (s.frame.tickWait || s.frame.waitStart) && !s.frame.stopped && !quiet

/-- Append a record at the head of the ring. -/
def ringAppend (s : State) (r : InvRec) : State :=
  let s1 := s.cellarWrite s.inv.head r.bytes
  { s1 with inv := { s1.inv with
      ring := s1.inv.ring ++ [r], ringBytes := s1.inv.ringBytes + r.recLen, head := (s1.inv.head + r.recLen) % s1.ringSize } }

/-- The `PAD` record that fills the ring to its end in front of a record (R354); it has the number of that record (DEDUCED, log entries 45 and 64). -/
def padRecord (s : State) (r : InvRec) : InvRec :=
  let n := s.ringSize - s.inv.head
  { r with kind := 0x7F, flags := 0, sub := 0, length := 0, src := 0, digest := hashH [], content := zeros (n - 128), read := false }

/-- The ring bytes that a record needs, its `PAD` among them (DEDUCED, log entry 64). -/
def ringNeed (s : State) (r : InvRec) : Nat :=
  if s.ringSize < s.inv.head + r.recLen then s.ringSize - s.inv.head + r.recLen else r.recLen

/-- Write the oldest record of the buffer into the ring, where the ring has room for it. -/
def ringRecord (s : State) (r : InvRec) (rest : List InvRec) : State :=
  if s.ringSize < s.inv.ringBytes + ringNeed s r then s
  else
    let s0 := { s with inv := { s.inv with buffer := rest, bufBytes := s.inv.bufBytes - r.recLen } }
    let s1 := if s0.ringSize < s0.inv.head + r.recLen then ringAppend s0 (padRecord s0 r) else s0
    ringAppend s1 r

/-! ### The box room (R478, R481) -/

/-- A partition of the box room: its offset, its size, the size of its records, and its share of the overflow region in 32nds. -/
structure Partition where
  base : Nat
  size : Nat
  len : Nat
  from32 : Nat
  of32 : Nat

/-- The partitions of R478, with the shares of R480. -/
def partition : Nat → Partition
  | 0 => { base := 0, size := 0x100000, len := 1024, from32 := 0, of32 := 1 }
  | 1 => { base := 0x100000, size := 0x700000, len := 64, from32 := 1, of32 := 7 }
  | _ => { base := 0x800000, size := 0x1800000, len := 32, from32 := 8, of32 := 24 }

/-- The bytes written to a partition (`BR_HEAD`). -/
def Alarms.headOf (a : Alarms) : Nat → Nat
  | 0 => a.headSeal.toNat
  | 1 => a.headEvent.toNat
  | _ => a.headSample.toNat

/-- The bytes of a partition copied to the overflow region (`BR_COPIED`). -/
def Alarms.copiedOf (a : Alarms) : Nat → Nat
  | 0 => a.copiedSeal.toNat
  | 1 => a.copiedEvent.toNat
  | _ => a.copiedSample.toNat

/-- Set `BR_COPIED`. -/
def Alarms.setCopied (a : Alarms) (p n : Nat) : Alarms :=
  match p with
  | 0 => { a with copiedSeal := BitVec.ofNat 64 n }
  | 1 => { a with copiedEvent := BitVec.ofNat 64 n }
  | _ => { a with copiedSample := BitVec.ofNat 64 n }

/-- Set `BR_HEAD`. -/
def Alarms.setHead (a : Alarms) (p n : Nat) : Alarms :=
  match p with
  | 0 => { a with headSeal := BitVec.ofNat 64 n }
  | 1 => { a with headEvent := BitVec.ofNat 64 n }
  | _ => { a with headSample := BitVec.ofNat 64 n }

/-- Count a lost record of a partition (`BR_LOST`). -/
def Alarms.lose (a : Alarms) (p : Nat) : Alarms :=
  match p with
  | 0 => { a with lostSeal := a.lostSeal + 1 }
  | 1 => { a with lostEvent := a.lostEvent + 1 }
  | _ => { a with lostSample := a.lostSample + 1 }

/-- Whether the place of the next record of a partition holds data that has not been copied. -/
def Alarms.placeHeld (a : Alarms) (p : Nat) : Bool :=
  let q := partition p
  decide (q.size ≤ a.headOf p) && decide (a.copiedOf p < a.headOf p - q.size + q.len)

/-- Write a record into its partition, or drop it; an event gets its number in the partition (R479). -/
def Alarms.writeBox (a : Alarms) (r : BoxRec) : Alarms :=
  let q := partition r.part
  let h := a.headOf r.part
  if a.placeHeld r.part && decide (0 < a.ovfGib) then a.lose r.part
  else
    let a1 := if a.placeHeld r.part then a.lose r.part else a
    let bs := if r.part = 1 then putAt r.bytes 4 (leBytes 4 (h / 64)) else r.bytes
    { a1.setHead r.part (h + q.len) with box := spSet [] a1.box (q.base + h % q.size) (slice bs 0 q.len) }

/-- The rank in which a queued record is served: seals, events, then the sample queues by port. -/
def BoxRec.rank (r : BoxRec) : Nat := if r.part < 2 then r.part else 2 + r.port

/-- The record that the box room serves next, with the others. -/
def nextBox : List BoxRec → Option (BoxRec × List BoxRec)
  | [] => none
  | r :: t => match nextBox t with
    | none => some (r, [])
    | some (b, l) => if b.rank < r.rank then some (b, r :: l) else some (r, t)

/-! ### The overflow region (R480) -/

/-- The first byte of a partition that is still in the box room and not copied. -/
def Alarms.copyFrom (a : Alarms) (p : Nat) : Nat := Nat.max (a.copiedOf p) (a.headOf p - (partition p).size)

/-- The bytes of block `b` of a partition as they stand in the box room. -/
def Alarms.blockBytes (a : Alarms) (p b : Nat) : List Byte :=
  let q := partition p
  (List.range (65536 / q.len)).flatMap fun i => slice (spGet [] a.box (q.base + (b * 65536 + i * q.len) % q.size)) 0 q.len

/-- Copy block `b` of a partition into its sub-ring, up to the bytes written (DEDUCED, log entry 64). -/
def copyBlock (s : State) (p b : Nat) : State :=
  let q := partition p
  let n := Nat.min (s.alarms.headOf p) ((b + 1) * 65536)
  let unit := s.alarms.ovfGib * 2 ^ 30 / 32
  let da := s.overflow.1 + unit * q.from32 + b * 65536 % (unit * q.of32)
  let s1 := s.cellarWrite da ((s.alarms.blockBytes p b).take (n - b * 65536))
  { s1 with alarms := s1.alarms.setCopied p n }

/-- The partition whose oldest block is to be copied: one with a full block, or, where partial blocks are due, one with any byte. -/
def Alarms.toCopy (a : Alarms) : Option Nat :=
  [0, 1, 2].find? fun p =>
    decide ((a.copyFrom p / 65536 + 1) * 65536 ≤ a.headOf p) || (a.partialDue && decide (a.copyFrom p < a.headOf p))

/-- Copy the next block of the box room to the overflow region (DEDUCED, log entry 64). -/
def boxCopy (s : State) : State :=
  if s.alarms.ovfGib = 0 then { s with alarms := { s.alarms with partialDue := false } } else
  match s.alarms.toCopy with
  | some p => copyBlock s p (s.alarms.copyFrom p / 65536)
  | none => { s with alarms := { s.alarms with partialDue := false } }

/-! ### The rows -/

/-- RING_WRITE: in an interval of R355 the writer takes the oldest record of the inventory buffer, and, where none waits, a block of the box room
(DEDUCED, log entry 64). -/
def execRingWrite (s : State) : Out :=
  .next (if !s.ringInterval then s else
    match s.inv.buffer with
    | r :: rest => ringRecord s r rest
    | [] => boxCopy s)

/-- BOX_ROOM_WRITE: the next queued record is written to its partition, or dropped (R478, R481) (DEDUCED, log entry 64). -/
def execBoxRoomWrite (s : State) : Out :=
  .next (match nextBox s.alarms.boxQueue with
    | none => s
    | some (r, l) => { s with alarms := { s.alarms with boxQueue := l }.writeBox r })

/-- PLDM_EVENT_SEND: the oldest queued event message goes to the event receiver (R488). -/
def execPldmEventSend (s : State) : Out :=
  .next (match s.sec.eventReceiver, s.sec.events with
    | some _, (c, b) :: rest => { s with sec := { s.sec with events := rest, lastResponse := leBytes 1 c ++ b } }
    | _, _ => s)

end Sys2Proof.Machine
end

