-- ==== Sys2Proof/Machine/Dispatch.lean ====
section
/-! DEFINITION. The dispatcher: one arm per command. -/

namespace Sys2Proof.Machine

open Sys2Proof

/-- The effect of a command on everything but the queue. -/
def exec (i : Instr) (s : State) : Host.Outcome State Fault Refusal :=
  match i with
  | .nop c => Sys2Proof.Machine.execNop c s
  | .frameEnd c => Sys2Proof.Machine.execFrameEnd c s
  | .loop c len cnt => Sys2Proof.Machine.execLoop c len cnt s
  | .brb c cond len tgt cnt => Sys2Proof.Machine.execBrb c cond len tgt cnt s
  | .jmp c tgt => Sys2Proof.Machine.execJmp c tgt s
  | .skip c cond len => Sys2Proof.Machine.execSkip c cond len s
  | .call c tgt => Sys2Proof.Machine.execCall c tgt s
  | .ret c => Sys2Proof.Machine.execRet c s
  | .add c rd ra rb => Sys2Proof.Machine.execAdd c rd ra rb s
  | .sub c rd ra rb => Sys2Proof.Machine.execSub c rd ra rb s
  | .and c rd ra rb => Sys2Proof.Machine.execAnd c rd ra rb s
  | .or c rd ra rb => Sys2Proof.Machine.execOr c rd ra rb s
  | .xor c rd ra rb => Sys2Proof.Machine.execXor c rd ra rb s
  | .shl c rd ra rb => Sys2Proof.Machine.execShl c rd ra rb s
  | .shr c rd ra rb => Sys2Proof.Machine.execShr c rd ra rb s
  | .sra c rd ra rb => Sys2Proof.Machine.execSra c rd ra rb s
  | .mul c rd ra rb => Sys2Proof.Machine.execMul c rd ra rb s
  | .mulhu c rd ra rb => Sys2Proof.Machine.execMulhu c rd ra rb s
  | .min c rd ra rb => Sys2Proof.Machine.execMin c rd ra rb s
  | .max c rd ra rb => Sys2Proof.Machine.execMax c rd ra rb s
  | .slt c rd ra rb => Sys2Proof.Machine.execSlt c rd ra rb s
  | .sltu c rd ra rb => Sys2Proof.Machine.execSltu c rd ra rb s
  | .seq c rd ra rb => Sys2Proof.Machine.execSeq c rd ra rb s
  | .csel c rd ra rb => Sys2Proof.Machine.execCsel c rd ra rb s
  | .addi c rd ra imm => Sys2Proof.Machine.execAddi c rd ra imm s
  | .andi c rd ra imm => Sys2Proof.Machine.execAndi c rd ra imm s
  | .ori c rd ra imm => Sys2Proof.Machine.execOri c rd ra imm s
  | .xori c rd ra imm => Sys2Proof.Machine.execXori c rd ra imm s
  | .shli c rd ra imm => Sys2Proof.Machine.execShli c rd ra imm s
  | .shri c rd ra imm => Sys2Proof.Machine.execShri c rd ra imm s
  | .srai c rd ra imm => Sys2Proof.Machine.execSrai c rd ra imm s
  | .muli c rd ra imm => Sys2Proof.Machine.execMuli c rd ra imm s
  | .li c rd imm => Sys2Proof.Machine.execLi c rd imm s
  | .lds c rd ra bankm imm => Sys2Proof.Machine.execLds c rd ra bankm imm s
  | .sts c rd ra bankm imm => Sys2Proof.Machine.execSts c rd ra bankm imm s
  | .rdid c rd => Sys2Proof.Machine.execRdid c rd s
  | .tget c rd imm => Sys2Proof.Machine.execTget c rd imm s
  | .waitf c imm => Sys2Proof.Machine.execWaitf c imm s
  | .setf c imm => Sys2Proof.Machine.execSetf c imm s
  | .clrf c imm => Sys2Proof.Machine.execClrf c imm s
  | .chka c imm => Sys2Proof.Machine.execChka c imm s
  | .clra c imm => Sys2Proof.Machine.execClra c imm s
  | .pset c rd ra => Sys2Proof.Machine.execPset c rd ra s
  | .pget c rd ra => Sys2Proof.Machine.execPget c rd ra s
  | .gload c ra bankm imm => Sys2Proof.Machine.execGload c ra bankm imm s
  | .gstep c ra imm => Sys2Proof.Machine.execGstep c ra imm s
  | .enq c daddr => Sys2Proof.Machine.execEnq c daddr s
  | .illegalOpcode c opc => Sys2Proof.Machine.execIllegalOpcode c opc s
  | .enqueueAfterStall c => Sys2Proof.Machine.execEnqueueAfterStall c s
  | .engineDispatch c e => Sys2Proof.Machine.execEngineDispatch c e s
  | .commandComplete c e => Sys2Proof.Machine.execCommandComplete c e s
  | .mma c => Sys2Proof.Machine.execMma c s
  | .maxexp c => Sys2Proof.Machine.execMaxexp c s
  | .tclr c => Sys2Proof.Machine.execTclr c s
  | .tset c => Sys2Proof.Machine.execTset c s
  | .texp c => Sys2Proof.Machine.execTexp c s
  | .texpmx c => Sys2Proof.Machine.execTexpmx c s
  | .toutp c => Sys2Proof.Machine.execToutp c s
  | .taddp c => Sys2Proof.Machine.execTaddp c s
  | .vld c => Sys2Proof.Machine.execVld c s
  | .vst c => Sys2Proof.Machine.execVst c s
  | .vadd c => Sys2Proof.Machine.execVadd c s
  | .vsub c => Sys2Proof.Machine.execVsub c s
  | .vmul c => Sys2Proof.Machine.execVmul c s
  | .vfma c => Sys2Proof.Machine.execVfma c s
  | .vdiv c => Sys2Proof.Machine.execVdiv c s
  | .vmin c => Sys2Proof.Machine.execVmin c s
  | .vmax c => Sys2Proof.Machine.execVmax c s
  | .vcmp c => Sys2Proof.Machine.execVcmp c s
  | .sel c => Sys2Proof.Machine.execSel c s
  | .vcvt c => Sys2Proof.Machine.execVcvt c s
  | .vfn c => Sys2Proof.Machine.execVfn c s
  | .vasum c => Sys2Proof.Machine.execVasum c s
  | .vainit c => Sys2Proof.Machine.execVainit c s
  | .vacvt c => Sys2Proof.Machine.execVacvt c s
  | .vmaxe c => Sys2Proof.Machine.execVmaxe c s
  | .vargmax c => Sys2Proof.Machine.execVargmax c s
  | .vmovs c => Sys2Proof.Machine.execVmovs c s
  | .vbcast c => Sys2Proof.Machine.execVbcast c s
  | .draw c => Sys2Proof.Machine.execDraw c s
  | .gather c => Sys2Proof.Machine.execGather c s
  | .scatter c => Sys2Proof.Machine.execScatter c s
  | .xmov c => Sys2Proof.Machine.execXmov c s
  | .xput c => Sys2Proof.Machine.execXput c s
  | .xcrd c => Sys2Proof.Machine.execXcrd c s
  | .xcwr c => Sys2Proof.Machine.execXcwr c s
  | .xhrd c => Sys2Proof.Machine.execXhrd c s
  | .xhwr c => Sys2Proof.Machine.execXhwr c s
  | .xovl c => Sys2Proof.Machine.execXovl c s
  | .xstream c => Sys2Proof.Machine.execXstream c s
  | .post c => Sys2Proof.Machine.execPost c s
  | .nclra c => Sys2Proof.Machine.execNclra c s
  | .streamElement c prog => Sys2Proof.Machine.execStreamElement c prog s
  | .streamElementReady c prog => Sys2Proof.Machine.execStreamElementReady c prog s
  | .scheduleEnd => Sys2Proof.Machine.execScheduleEnd s
  | .freezeHalt => Sys2Proof.Machine.execFreezeHalt s
  | .freezeResume periods => Sys2Proof.Machine.execFreezeResume periods s
  | .freezeOver => Sys2Proof.Machine.execFreezeOver s
  | .circularWait => Sys2Proof.Machine.execCircularWait s
  | .arrivalTimeout => Sys2Proof.Machine.execArrivalTimeout s
  | .faultHalt => Sys2Proof.Machine.execFaultHalt s
  | .frameTick ring => Sys2Proof.Machine.execFrameTick ring s
  | .frameStart => Sys2Proof.Machine.execFrameStart s
  | .holdHorizon => Sys2Proof.Machine.execHoldHorizon s
  | .holdTimeout x y z => Sys2Proof.Machine.execHoldTimeout x y z s
  | .holdNote x y z frame cause pause => Sys2Proof.Machine.execHoldNote x y z frame cause pause s
  | .ready x y z frame tick => Sys2Proof.Machine.execReady x y z frame tick s
  | .stop x y z frame reason => Sys2Proof.Machine.execStop x y z frame reason s
  | .detour x y z flipRound lostPort frame => Sys2Proof.Machine.execDetour x y z flipRound lostPort frame s
  | .detourFlip => Sys2Proof.Machine.execDetourFlip s
  | .tableSetWritten => Sys2Proof.Machine.execTableSetWritten s
  | .resend x y z flow frame first count => Sys2Proof.Machine.execResend x y z flow frame first count s
  | .resendWaitExpiry c flag => Sys2Proof.Machine.execResendWaitExpiry c flag s
  | .foMsg x y z msg => Sys2Proof.Machine.execFoMsg x y z msg s
  | .routedNoteReceive p n => Sys2Proof.Machine.execRoutedNoteReceive p n s
  | .noteGap x y z => Sys2Proof.Machine.execNoteGap x y z s
  | .roundStart => Sys2Proof.Machine.execRoundStart s
  | .roundMarker p lane marker => Sys2Proof.Machine.execRoundMarker p lane marker s
  | .dataSlot p slot => Sys2Proof.Machine.execDataSlot p slot s
  | .serviceSlot p slot => Sys2Proof.Machine.execServiceSlot p slot s
  | .containerReceive p round slot words => Sys2Proof.Machine.execContainerReceive p round slot words s
  | .parcelLanding => Sys2Proof.Machine.execParcelLanding s
  | .heartbeat p body => Sys2Proof.Machine.execHeartbeat p body s
  | .portDown p => Sys2Proof.Machine.execPortDown p s
  | .portTrain p r => Sys2Proof.Machine.execPortTrain p r s
  | .trainRetry p r => Sys2Proof.Machine.execTrainRetry p r s
  | .identity p body => Sys2Proof.Machine.execIdentity p body s
  | .idkey p idx piece => Sys2Proof.Machine.execIdkey p idx piece s
  | .idsig p idx piece => Sys2Proof.Machine.execIdsig p idx piece s
  | .identProofChecked p => Sys2Proof.Machine.execIdentProofChecked p s
  | .loss p round slot cause => Sys2Proof.Machine.execLoss p round slot cause s
  | .flightMeasure p => Sys2Proof.Machine.execFlightMeasure p s
  | .sync p body arrival => Sys2Proof.Machine.execSync p body arrival s
  | .holdoverExpiry => Sys2Proof.Machine.execHoldoverExpiry s
  | .ethFrameReceive p fcsOk frame => Sys2Proof.Machine.execEthFrameReceive p fcsOk frame s
  | .ptpMessage p m => Sys2Proof.Machine.execPtpMessage p m s
  | .ptpAnnounceTimeout => Sys2Proof.Machine.execPtpAnnounceTimeout s
  | .transitApply => Sys2Proof.Machine.execTransitApply s
  | .sectorReturn k => Sys2Proof.Machine.execSectorReturn k s
  | .act k delta bank row => Sys2Proof.Machine.execAct k delta bank row s
  | .pre k delta bank => Sys2Proof.Machine.execPre k delta bank s
  | .rd k delta bank row col tag => Sys2Proof.Machine.execRd k delta bank row col tag s
  | .wr k delta bank row col tag => Sys2Proof.Machine.execWr k delta bank row col tag s
  | .bact k delta bank tag => Sys2Proof.Machine.execBact k delta bank tag s
  | .repeat k n m colInc rowInc => Sys2Proof.Machine.execRepeat k n m colInc rowInc s
  | .gap k delay => Sys2Proof.Machine.execGap k delay s
  | .progEnd k => Sys2Proof.Machine.execProgEnd k s
  | .pinnedRefresh k => Sys2Proof.Machine.execPinnedRefresh k s
  | .scrubWindow k => Sys2Proof.Machine.execScrubWindow k s
  | .retentionRefresh k bank => Sys2Proof.Machine.execRetentionRefresh k bank s
  | .hostHatchWrite off data => Sys2Proof.Machine.execHostHatchWrite off data s
  | .hostHatchRead off len => Sys2Proof.Machine.execHostHatchRead off len s
  | .cellarWindowRead off => Sys2Proof.Machine.execCellarWindowRead off s
  | .cellarWindowWrite off data => Sys2Proof.Machine.execCellarWindowWrite off data s
  | .intake ring => Sys2Proof.Machine.execIntake ring s
  | .replyWrite => Sys2Proof.Machine.execReplyWrite s
  | .longCommandDone => Sys2Proof.Machine.execLongCommandDone s
  | .ping k => Sys2Proof.Machine.execPing k s
  | .identify k => Sys2Proof.Machine.execIdentify k s
  | .negotiate k => Sys2Proof.Machine.execNegotiate k s
  | .setMode k => Sys2Proof.Machine.execSetMode k s
  | .getSettings k => Sys2Proof.Machine.execGetSettings k s
  | .stageSettings k => Sys2Proof.Machine.execStageSettings k s
  | .commitSettings k => Sys2Proof.Machine.execCommitSettings k s
  | .loadCrate k => Sys2Proof.Machine.execLoadCrate k s
  | .verify k => Sys2Proof.Machine.execVerify k s
  | .place k => Sys2Proof.Machine.execPlace k s
  | .loadTimetable k => Sys2Proof.Machine.execLoadTimetable k s
  | .start k => Sys2Proof.Machine.execStart k s
  | .hold k => Sys2Proof.Machine.execHold k s
  | .resume k => Sys2Proof.Machine.execResume k s
  | .abort k => Sys2Proof.Machine.execAbort k s
  | .runToFrame k => Sys2Proof.Machine.execRunToFrame k s
  | .checkpoint k => Sys2Proof.Machine.execCheckpoint k s
  | .restore k => Sys2Proof.Machine.execRestore k s
  | .admitStream k => Sys2Proof.Machine.execAdmitStream k s
  | .retireStream k => Sys2Proof.Machine.execRetireStream k s
  | .streamStatus k => Sys2Proof.Machine.execStreamStatus k s
  | .readInventory k => Sys2Proof.Machine.execReadInventory k s
  | .replayBegin k => Sys2Proof.Machine.execReplayBegin k s
  | .getCertificate k => Sys2Proof.Machine.execGetCertificate k s
  | .attest k => Sys2Proof.Machine.execAttest k s
  | .debugUnlockChallenge k => Sys2Proof.Machine.execDebugUnlockChallenge k s
  | .debugUnlockResponse k => Sys2Proof.Machine.execDebugUnlockResponse k s
  | .challengeLapse => Sys2Proof.Machine.execChallengeLapse s
  | .setSlice k => Sys2Proof.Machine.execSetSlice k s
  | .loadTransit k => Sys2Proof.Machine.execLoadTransit k s
  | .portDisable k => Sys2Proof.Machine.execPortDisable k s
  | .portEnable k => Sys2Proof.Machine.execPortEnable k s
  | .portRetrain k => Sys2Proof.Machine.execPortRetrain k s
  | .discover k => Sys2Proof.Machine.execDiscover k s
  | .resetSystem k => Sys2Proof.Machine.execResetSystem k s
  | .resetCore k => Sys2Proof.Machine.execResetCore k s
  | .timeSetUtc k => Sys2Proof.Machine.execTimeSetUtc k s
  | .timeStatus k => Sys2Proof.Machine.execTimeStatus k s
  | .firmwareStage k => Sys2Proof.Machine.execFirmwareStage k s
  | .firmwareActivateMark k => Sys2Proof.Machine.execFirmwareActivateMark k s
  | .firmwareActivateNow k => Sys2Proof.Machine.execFirmwareActivateNow k s
  | .cmdEnable value => Sys2Proof.Machine.execCmdEnable value s
  | .cmdDisable value => Sys2Proof.Machine.execCmdDisable value s
  | .rplConsumedWrite value => Sys2Proof.Machine.execRplConsumedWrite value s
  | .reacquire => Sys2Proof.Machine.execReacquire s
  | .mtNsRead => Sys2Proof.Machine.execMtNsRead s
  | .alarmAck slot => Sys2Proof.Machine.execAlarmAck slot s
  | .alarmClear => Sys2Proof.Machine.execAlarmClear s
  | .rstCauseClear mask => Sys2Proof.Machine.execRstCauseClear mask s
  | .sampleCfgWrite p value => Sys2Proof.Machine.execSampleCfgWrite p value s
  | .ovfGibWrite value => Sys2Proof.Machine.execOvfGibWrite value s
  | .registerWrite addr value => Sys2Proof.Machine.execRegisterWrite addr value s
  | .blockReset kind index => Sys2Proof.Machine.execBlockReset kind index s
  | .blockQuiesceTimeout => Sys2Proof.Machine.execBlockQuiesceTimeout s
  | .blockResetDone us ok => Sys2Proof.Machine.execBlockResetDone us ok s
  | .ringWrite => Sys2Proof.Machine.execRingWrite s
  | .boxRoomWrite => Sys2Proof.Machine.execBoxRoomWrite s
  | .pldmEventSend => Sys2Proof.Machine.execPldmEventSend s
  | .marginCheck region margins => Sys2Proof.Machine.execMarginCheck region margins s
  | .stretchEventApply region => Sys2Proof.Machine.execStretchEventApply region s
  | .beatCapture region lateHalfCycles => Sys2Proof.Machine.execBeatCapture region lateHalfCycles s
  | .governorStep power => Sys2Proof.Machine.execGovernorStep power s
  | .autoThrottle => Sys2Proof.Machine.execAutoThrottle s
  | .targetApply => Sys2Proof.Machine.execTargetApply s
  | .avsConfirm ok => Sys2Proof.Machine.execAvsConfirm ok s
  | .sensorSample readings => Sys2Proof.Machine.execSensorSample readings s
  | .thermalThrottle => Sys2Proof.Machine.execThermalThrottle s
  | .thermalTrip sn temp => Sys2Proof.Machine.execThermalTrip sn temp s
  | .thermalTripRelease => Sys2Proof.Machine.execThermalTripRelease s
  | .refclkLoss r => Sys2Proof.Machine.execRefclkLoss r s
  | .refclkRestore r => Sys2Proof.Machine.execRefclkRestore r s
  | .ppsInEdge => Sys2Proof.Machine.execPpsInEdge s
  | .ppsMissing => Sys2Proof.Machine.execPpsMissing s
  | .ppsOutEdge => Sys2Proof.Machine.execPpsOutEdge s
  | .railFail rail => Sys2Proof.Machine.execRailFail rail s
  | .powerOnRelease => Sys2Proof.Machine.execPowerOnRelease s
  | .hbmEnSequence => Sys2Proof.Machine.execHbmEnSequence s
  | .porst asserted => Sys2Proof.Machine.execPorst asserted s
  | .sysrst asserted => Sys2Proof.Machine.execSysrst asserted s
  | .debugReset asserted => Sys2Proof.Machine.execDebugReset asserted s
  | .wdog pc sp => Sys2Proof.Machine.execWdog pc sp s
  | .cxlHot => Sys2Proof.Machine.execCxlHot s
  | .cxlLdn => Sys2Proof.Machine.execCxlLdn s
  | .resetRelease f => Sys2Proof.Machine.execResetRelease f s
  | .tapInstruction code => Sys2Proof.Machine.execTapInstruction code s
  | .setEndpointId eid => Sys2Proof.Machine.execSetEndpointId eid s
  | .setEventReceiver eid => Sys2Proof.Machine.execSetEventReceiver eid s
  | .pldmRequest ptype command data => Sys2Proof.Machine.execPldmRequest ptype command data s
  | .requestUpdate => Sys2Proof.Machine.execRequestUpdate s
  | .activateFirmware => Sys2Proof.Machine.execActivateFirmware s
  | .spdmGetVersion => Sys2Proof.Machine.execSpdmGetVersion s
  | .spdmGetCapabilities => Sys2Proof.Machine.execSpdmGetCapabilities s
  | .spdmNegotiateAlgorithms => Sys2Proof.Machine.execSpdmNegotiateAlgorithms s
  | .spdmGetCertificate slot off len => Sys2Proof.Machine.execSpdmGetCertificate slot off len s
  | .spdmChallenge slot nonce => Sys2Proof.Machine.execSpdmChallenge slot nonce s
  | .spdmGetMeasurements index nonce => Sys2Proof.Machine.execSpdmGetMeasurements index nonce s
  | .spdmKeyExchange => Sys2Proof.Machine.execSpdmKeyExchange s
  | .spdmFinish session => Sys2Proof.Machine.execSpdmFinish session s
  | .spdmKeyUpdate session => Sys2Proof.Machine.execSpdmKeyUpdate session s
  | .spdmHeartbeat session => Sys2Proof.Machine.execSpdmHeartbeat session s
  | .spdmEndSession session => Sys2Proof.Machine.execSpdmEndSession session s
  | .ideKm session protocol => Sys2Proof.Machine.execIdeKm session protocol s
  | .certSigned => Sys2Proof.Machine.execCertSigned s
  | .timeErrExceeded => Sys2Proof.Machine.execTimeErrExceeded s
  | .delayReq => Sys2Proof.Machine.execDelayReq s
  | .activeToggle => Sys2Proof.Machine.execActiveToggle s
  | .deviceCommitWritten ok => Sys2Proof.Machine.execDeviceCommitWritten ok s
  | .pldmFirmwareData data last => Sys2Proof.Machine.execPldmFirmwareData data last s

end Sys2Proof.Machine
end

