-- ==== Sys2Proof/Machine/Step.lean ====
section
/-! DEFINITION. One step of the block: the command at the front of the queue, or, where none waits, one tick of the 1 GHz clock (DESIGN CHOICE, log entry 11);
and the place of a table word, which spells no command (DESIGN CHOICE, log entry 14). -/

namespace Sys2Proof.Machine

open Sys2Proof

/-- One step: the first waiting command is taken from the queue and executed (DESIGN CHOICE, log entries 11 and 86). -/
def step (s : State) : Host.Outcome State Fault Refusal :=
  match s.pending with
  | [] => .next (idleTick s)
  | c :: rest => exec c { s with pending := rest }

/-- The state with the command that a table word spells in front of its queue; a word that spells none changes nothing (DESIGN CHOICE, log entry 14).
-/
def State.withFetchWord (s : State) (nbits w : Nat) : State :=
  match decodeTableWord nbits w with
  | some c => { s with pending := c :: s.pending }
  | none => s

end Sys2Proof.Machine
end

