-- ==== Sys2Proof/Safety.lean ====
section
/-! DEFINITION. What claims call safe: a step that ends in a next state, memories in canonical form, and a command window whose fields lie in the
ranges of R409 and R412. -/

namespace Sys2Proof.Machine

open Sys2Proof

/-- The canonical form of a byte memory: addresses strictly rise, and no entry holds the 0 that an unlisted address reads as (log entry 8). -/
def Memory.wf (m : List Host.Cell) : Bool := spWf 0 m

/-- The Hatch and the cellars are in canonical form. -/
def State.memoryOk (s : State) : Prop := Memory.wf s.hatch.bytes = true ∧ Memory.wf s.cellar.bytes = true

/-- The command window holds legal values: 64 to 1,024 slots, an intake period of 500 to 50,000 ns (R409), and at most 1,024 waiting replies
(R412). -/
def CmdWin.ok (w : CmdWin) : Prop :=
  6 ≤ w.log2Slots ∧ w.log2Slots ≤ 10 ∧ 500 ≤ w.intakePeriod ∧ w.intakePeriod ≤ 50000 ∧ w.queue.length ≤ 1024

/-- A command runs: it ends in a next state, not in a fault or a refusal. -/
def runs (c : Instr) (s : State) : Prop := ∃ t, exec c s = .next t


/-! ### Words of the statements about the sequencer -/

/-- The package in which a sequencer instruction of core `c` acts: that core is brought to its cycle, so that the flag actions of
earlier cycles are done and the writes readable now are applied (R78, R128). -/
def atIssue (s : State) (c : Nat) : State := settle s c (s.core c).cyc

/-- The core in which a sequencer instruction of core `c` acts. -/
def issuing (s : State) (c : Nat) : Core := (atIssue s c).core c

/-- The sequencer of core `c` issues now: the core exists and may issue, it waits for no flag, no fault stops it on the way to its
cycle, its word lies in the code shelf (R65) and in a page that is ready (R66), and it is not in the range of a `SKIP` (R76). -/
structure Issues (s : State) (c : Nat) : Prop where
  exists_ : c < 81920
  can : s.canIssue c = true
  noWait : (s.core c).waitFlag = none
  alive : (issuing s c).halted = false
  word : (issuing s c).pc ≤ 1535
  page : ((issuing s c).tag 6 ((issuing s c).pc / 96)).ready ≤ (issuing s c).cyc
  unskipped : (issuing s c).skip = 0

/-- Register `n` of a kind (0 scalar, 1 vector, 2 predicate, 3 tile) may be read at cycle `t` (R82); s0 and p0 carry no tag (R59). -/
def Readable (k : Core) (kind n t : Nat) : Prop := ((kind = 0 ∨ kind = 2) ∧ n = 0) ∨ (k.tag kind n).ready ≤ t

/-- Register `n` of a kind may be written with ready cycle `r`: later than every outstanding write (R83), and before the end of the
schedule (R54). -/
def Writable (s : State) (k : Core) (kind n r : Nat) : Prop :=
  (((kind = 0 ∨ kind = 2) ∧ n = 0) ∨ (k.tag kind n).ready < r) ∧ r < s.frame.e

/-- The package after core `c` has issued an instruction that left its core as `k`: nothing else changes but `CUR_CYCLE` (R50). -/
def issued (s : State) (c : Nat) (k : Core) : State :=
  let s1 := (atIssue s c).setCore c k
  { s1 with fabric := { s1.fabric with curCycle := Nat.max s1.fabric.curCycle (issuing s c).cyc } }

/-- Core `k` with the scalar result `v` for register `n`, ready `lat` cycles after its cycle. -/
def withScalar (k : Core) (n : Nat) (v : Word) (lat : Nat) : Core := (k.setSreg n v).setTag 0 n (k.cyc + lat) 0 k.pc

/-- Core `k` with an action in flight. -/
def withPending (k : Core) (p : Pending) : Core := { k with pend := k.pend ++ [p] }

/-- Core `k` leaves its word for word `n`, and is then core `k'` (R74, R75, R124). -/
def LeavesFor (k : Core) (n : Nat) (ex : Exit) (k' : Core) : Prop := k.advance k.pc n ex = .ok k'

/-- Core `k` leaves its word for the next one. -/
def Falls (k k' : Core) : Prop := LeavesFor k (k.pc + 1) .fall k'

/-- The instructions of form R that compute a scalar from two, with their latency and their result (R122, R134). -/
def aluRowsR (c : Nat) (rd ra rb : Fin 32) : List (Instr × Nat × (Word → Word → Word)) :=
  [(.add c rd ra rb, 1, fun a b => a + b), (.sub c rd ra rb, 1, fun a b => a - b), (.and c rd ra rb, 1, fun a b => a &&& b),
   (.or c rd ra rb, 1, fun a b => a ||| b), (.xor c rd ra rb, 1, fun a b => a ^^^ b),
   (.shl c rd ra rb, 1, fun a b => a <<< (b.toNat % 32)), (.shr c rd ra rb, 1, fun a b => a >>> (b.toNat % 32)),
   (.sra c rd ra rb, 1, fun a b => a.sshiftRight (b.toNat % 32)), (.mul c rd ra rb, 3, fun a b => a * b),
   (.mulhu c rd ra rb, 3, fun a b => BitVec.ofNat 32 (a.toNat * b.toNat / 2 ^ 32)),
   (.min c rd ra rb, 1, fun a b => if a.toInt ≤ b.toInt then a else b), (.max c rd ra rb, 1, fun a b => if a.toInt ≤ b.toInt then b else a),
   (.slt c rd ra rb, 1, fun a b => if a.toInt < b.toInt then 1 else 0), (.sltu c rd ra rb, 1, fun a b => if a.toNat < b.toNat then 1 else 0),
   (.seq c rd ra rb, 1, fun a b => if a = b then 1 else 0)]

/-- The instructions of form I that compute a scalar from a register and the immediate, with their latency and their result. -/
def aluRowsI (c : Nat) (rd ra : Fin 32) (imm : Word) : List (Instr × Nat × (Word → Word → Word)) :=
  [(.addi c rd ra imm, 1, fun a b => a + b), (.andi c rd ra imm, 1, fun a b => a &&& b), (.ori c rd ra imm, 1, fun a b => a ||| b),
   (.xori c rd ra imm, 1, fun a b => a ^^^ b), (.shli c rd ra imm, 1, fun a b => a <<< (b.toNat % 32)),
   (.shri c rd ra imm, 1, fun a b => a >>> (b.toNat % 32)), (.srai c rd ra imm, 1, fun a b => a.sshiftRight (b.toNat % 32)),
   (.muli c rd ra imm, 3, fun a b => a * b)]


/-! ### Memory and flags -/

/-- No unit uses bank `b` (8: the attic port) of core `k` in cycle `t` (R63, R64). -/
def BankFree (k : Core) (b t : Nat) : Prop := ∀ u ∈ k.uses, ¬(u.cycle = t ∧ u.bank = b)

/-- A shelf word access of the sequencer is legal (R63, R123, R127): register-addressed accesses stay in the declared banks, the address
lies in the 48 KiB shelf and is aligned. -/
def WordAccess (addr align : Nat) (based : Bool) (bankm : Byte) : Prop :=
  (based = true → bit bankm.toNat (addr / 32 % 8) = true) ∧ addr ≤ 0xBFFF ∧ addr % align = 0

/-- Core `k` with the use of a shelf bank by its sequencer in the cycle after its own, by the instruction of word `pc`. -/
def withUse (k : Core) (addr t pc : Nat) : Core :=
  { k with uses := { cycle := t, bank := addr / 32 % 8, unit := 0, pc, addr := addr / 32 * 32 } :: k.uses }

/-- The address of `LDS` and `STS`: register plus `IMM[15:0]` (R122). -/
def ldsAddr (k : Core) (ra : Fin 32) (imm : Word) : Nat := ((k.sreg ra).toNat + imm.toNat % 65536) % 2 ^ 32

/-- The package with the wait of core `c` for a sync flag taken back, as `WAITF` looks at its flag anew (R79). -/
def unwaited (s : State) (c : Nat) : State := s.setCore c { s.core c with waitFlag := none }

/-- The package with generator context `n` of the package replaced. -/
def withContext (s : State) (n : Nat) (g : GenCtx) : State := { s with contexts := spSet {} s.contexts n g }

/-! ### Engines -/

/-- The descriptor at `daddr` may be enqueued by core `k` of index `c` at its cycle: the checks of class 0x03 pass (R126, R130), the page of
the descriptor is ready (R66), and the registers that the command has read at the enqueue are ready (R58, R82). -/
def Enqueues (c : Nat) (k : Core) (daddr : Nat) : Prop :=
  enqForm c daddr k false = .ok () ∧ (k.tag 6 (daddr / 96)).ready ≤ k.cyc ∧
  (∀ n ∈ scalarSources (k.descAt daddr), Readable k 0 n k.cyc) ∧
  (usesPred (k.descAt daddr) = true → Readable k 2 (k.descAt daddr).pred k.cyc)

/-- Core `k` with the command at `daddr` at the end of its engine's queue. -/
def withCommand (k : Core) (daddr : Nat) : Core :=
  let e := engineOf (k.descAt daddr).eng
  k.setEng e { k.eng e with queue := (k.eng e).queue ++ [makeEntry k daddr (k.descAt daddr) false] }

/-- The package in which core `c` retries a stalled enqueue: in the first cycle whose start finds a free entry (R57). -/
def retried (s : State) (c daddr : Nat) : State :=
  let k := s.core c
  s.setCore c { k with stalled := none, cyc := Nat.max k.cyc ((k.eng (engineOf (k.descAt daddr).eng)).freedAt + 1) }

/-- Engine `e` of core `c` may dispatch the head `q` of its queue at cycle `d` (R56, R79, R85): the package executes cycles, the core is
not halted, the engine holds no command that has not executed, the cycle is not held, and the flag that the command waits on was set in an
earlier cycle; the checks of its timing pass (R54, R83, R128). -/
structure Dispatches (s : State) (c : Nat) (e : Engine) (q : QEntry) (rest : List QEntry) : Prop where
  exists_ : c < 81920
  runs : s.cycling = true
  used : (s.core c).section_ = true
  alive : (s.core c).halted = false
  queue : ((s.core c).eng e).queue = q :: rest
  idle : ((s.core c).eng e).cur = none
  unheld : ((s.core c).eng e).headCycle q < s.heldFrom
  alive2 : ((settle s c (((s.core c).eng e).headCycle q)).core c).halted = false
  flag : q.desc.wen = true → ((settle s c (((s.core c).eng e).headCycle q)).core c).flagSeen q.desc.wflag (((s.core c).eng e).headCycle q) = true

/-- Core `k` at a dispatch by a command that clears the flag it waited on (R78). -/
def atDispatch (k : Core) (q : QEntry) : Core := if q.desc.wen = true ∧ q.desc.wclr = true then k.clearFlag q.desc.wflag else k

/-! ### Commands in execution -/

/-- Engine `e` of core `c` has taken the command `fl` with opcode `cop` and executes it now (R56, R85). -/
structure Executes (s : State) (c : Nat) (e : Engine) (cop : Nat) (fl : InFlight) : Prop where
  exists_ : c < 81920
  runs : s.cycling = true
  alive : (s.core c).halted = false
  taken : ((s.core c).eng e).cur = some fl
  opcode : fl.q.desc.cop = cop

/-- The package once engine `e` of core `c` executes its command: the command is executed once. -/
def begun (s : State) (c : Nat) (e : Engine) : State := s.setCore c ((s.core c).setEng e { (s.core c).eng e with cur := none })

/-- Core `c` as the command's own reads see it: its destinations carry the ready-cycle tags of before its dispatch (R82, R129). -/
def seen (s : State) (c : Nat) (e : Engine) (fl : InFlight) : Core := fl.view ((begun s c e).core c)

/-- The package after a command of core `c` that leaves its core as `k`, sends no transfer and uses no bank. -/
def executed (s : State) (c : Nat) (e : Engine) (fl : InFlight) (k : Core) : State :=
  (begun s c e).setCore c (restoreTags fl ((begun s c e).core c) k)

/-- A vector result merged under the predicate of the command (R129): with a predicate other than p0, lanes whose bit is 0 keep the
old value. -/
def merged (k : Core) (fl : InFlight) (w : Bool) (v : BitVec 256) : BitVec 256 :=
  if fl.q.desc.pred = 0 then v else mergeLanes w fl.q.pred (k.vreg fl.q.desc.vd) v

/-- The sources of a VX command are ready one cycle after its dispatch (R136); under a predicate other than p0 the destination is read as
well (R129). -/
def VxReady (k : Core) (fl : InFlight) (srcs : List Nat) : Prop :=
  (∀ n ∈ srcs, Readable k 1 n (fl.d + 1)) ∧ (fl.q.desc.pred ≠ 0 → Readable k 1 fl.q.desc.vd (fl.d + 1))

/-- The lane-wise arithmetic commands of VX with their opcode, whether they read `VD` as a third source, and their exact result (R109). -/
def vxRows (c : Nat) : List (Instr × Nat × Bool × (Nat → Val → Val → Val → Val)) :=
  [(.vadd c, 0x12, false, fun r a b _ => addVal r a b), (.vsub c, 0x13, false, fun r a b _ => addVal r a (negVal b)),
   (.vmul c, 0x14, false, fun _ a b _ => mulVal a b), (.vfma c, 0x15, true, fun r a b e => addVal r (mulVal a b) e),
   (.vdiv c, 0x16, false, fun _ a b _ => divVal a b), (.vmin c, 0x17, false, fun _ a b _ => minVal a b),
   (.vmax c, 0x18, false, fun _ a b _ => maxVal a b)]

/-- A memory operand of `n` bytes of a command lies at address `a` of store `sp` and passes its checks (R63, R127). -/
def OperandAt (fl : InFlight) (f : BitVec 32) (base : Word) (n : Nat) (sp : Space) (a : Nat) : Prop :=
  opSpace f = some sp ∧ a = (f.toNat % 2 ^ 17 + base.toNat) % 2 ^ 17 ∧ a + n ≤ spaceSize sp ∧ a % spaceAlign sp = 0 ∧
  (sp = .shelf → opBase f ≠ 0 → ∀ i, i < ceilDiv (a % 32 + n) 32 → bit fl.q.desc.bankm.toNat ((a / 32 + i) % 8) = true)

/-- The package after a command of core `c` that leaves its core as `k`, logs the uses `us` of banks and has `ps` in flight. -/
def transferred (s : State) (c : Nat) (e : Engine) (fl : InFlight) (k : Core) (us : List (BankUse × Nat)) (ps : List Pending) : State :=
  let k1 := ((restoreTags fl ((begun s c e).core c) k).logUses us).1
  (begun s c e).setCore c { k1 with pend := k1.pend ++ ps }

/-- None of the uses of banks conflicts with a use in the same cycle (R63, R64). -/
def NoConflict (k : Core) (us : List (BankUse × Nat)) : Prop := (k.logUses us).2 = none

/-- The use of the region's generator by a command (R117), as the state keeps it. -/
def generatorUses (c : Nat) (e : Engine) (fl : InFlight) : List PathUse :=
  (generatorUse c fl).map fun p => { cycle := p.1, resource := p.2, core := c, unit := unitOf e, pc := fl.q.pc, dispatch := fl.d }

/-- The region's generator is free in every cycle in which the command occupies it. -/
def GeneratorFree (s : State) (c : Nat) (fl : InFlight) : Prop :=
  ∀ p ∈ generatorUse c fl, ∀ v ∈ s.pathUses, ¬(v.cycle = p.1 ∧ v.resource = p.2)

/-- The package with uses of path resources logged. -/
def withPaths (s : State) (us : List PathUse) : State := { s with pathUses := us ++ s.pathUses }

/-- A tile after the sums of the 64 entries of a step sequence (R93 to R96). -/
def accumulated (o : MxOperands) (t : Tile) : Tile :=
  ((List.range 64).map (fun e => (e, o.entrySum t.wexp.toInt t.h.toNat (e / 8) (e % 8)))).foldl (fun t e => t.addPartial e.1 e.2) t

/-- The exported codes of the 64 entries of a tile, one rounding each (R104 to R107). -/
def exportCodes (fl : InFlight) (t : Tile) (ws : List Nat) : List Nat :=
  (List.range 64).map fun i => encodeVal fl.q.desc.fmtd fl.q.desc.rnd fl.q.desc.sat (ws.getD i 0) false (exportEntry t fl.q i)

/-- The 32-bit words of the generator that a stochastic command of core `c` uses, none in another mode (R107, R117): of the stream and from the
word offset that the command names. -/
def roundingWords (s : State) (c : Nat) (fl : InFlight) (stream offset n : Nat) : List Nat :=
  if fl.q.desc.rnd = 4 then drawWords (spGet {} s.contexts (c / 1280 * 16 + fl.q.desc.ctx)) c stream offset n else []

/-- The generator context of a stochastic command is ready when the command reads it (R125), and the region's generator is free (R117). -/
def GeneratorReady (s : State) (c : Nat) (fl : InFlight) : Prop :=
  (fl.q.desc.rnd = 4 → (spGet {} s.contexts (c / 1280 * 16 + fl.q.desc.ctx)).ready ≤ fl.d + 1) ∧ GeneratorFree s c fl

/-! ### Transfers -/

/-- The paths that a command of core `c` uses are free in their cycles (R68): a link of a row is held against the core alone, every other path
against all. -/
def PathsFree (s : State) (c : Nat) (ps : List (Nat × Nat)) : Prop := firstPathConflict s c ps = none

/-- The uses of paths as the state keeps them. -/
def pathLog (c : Nat) (e : Engine) (fl : InFlight) (ps : List (Nat × Nat)) : List PathUse :=
  ps.map fun p => { cycle := p.1, resource := p.2, core := c, unit := unitOf e, pc := fl.q.pc, dispatch := fl.d }

/-- The registers and flags of a core, which a transfer leaves as they are. -/
def sameRegisters (a b : Core) : Prop :=
  a.sregs = b.sregs ∧ a.vregs = b.vregs ∧ a.pregs = b.pregs ∧ a.tiles = b.tiles ∧ a.sflags = b.sflags ∧ a.aflags = b.aflags ∧ a.pc = b.pc

/-! ### Ports -/

/-- A container of 280 bytes as received: its `CONT`, whether its slot word and its trailer are good, and whether it carries a NAK (R189,
R190). -/
def containerCont (b : List Byte) : Nat := bits (ofBe (slice b 0 4)) 29 28

/-- The slot word and, for a parcel, the trailer are good. -/
def containerOk (b : List Byte) : Prop :=
  crc8 (slice b 0 3) = bits (ofBe (slice b 0 4)) 7 0 ∧ bits (ofBe (slice b 0 4)) 31 30 = 1 ∧
  (containerCont b = 1 ∨ containerCont b = 3 → crc32c (slice b 4 272) = le b 276 4)

/-- The container carries no NAK. -/
def noNak (b : List Byte) : Prop := bit (ofBe (slice b 0 4)) 27 = false

/-- An untagged Ethernet frame whose destination is the port's own address (R209). -/
def FrameForPort (q : Port) (frame : List Byte) : Prop :=
  frame.length ≤ 2044 ∧ q.ethMac ≠ 0 ∧ ofBe (slice frame 0 6) = q.ethMac.toNat ∧ ofBe (slice frame 12 2) ≠ 0x8100 ∧
  ofBe (slice frame 12 2) ≠ 0x88A8

/-! ### Host commands -/

/-- The package once a command of the ring has been counted (R416) and, where it makes a record, recorded (R349, R356). -/
def received (s : State) (op : Nat) (k : Packet) : State :=
  let s0 := { s with cmd := { s.cmd with commands := s.cmd.commands + 1 } }
  if recorded op = true then recordCommand (openLink s0 op) op k else s0

/-- Command `c` in packet `k` passes the checks of R415 that come before its own rules; where it is a command of the fabric owner, its
authorisation leaves the package as `s1` (R431, R432). -/
structure Passes (s : State) (c : Cmd) (k : Packet) (s1 : State) : Prop where
  taken : s.takesCommands = true
  form : k.formOk = true
  read : k.pblk = true → k.readOk = true
  fits : recorded c.opcode = true → State.commandFits { s with cmd := { s.cmd with commands := s.cmd.commands + 1 } } c.opcode k = true
  state : stateAllows (received s c.opcode k) c .ring = true
  owner : needsOwner k c = true → authorise (received s c.opcode k) c.opcode k = .ok s1
  host : needsOwner k c = false → k.role = 0 ∧ s1 = received s c.opcode k
  alone : c.single = true → s1.cmd.out.any (·.long) = false
  once : s1.cmd.out.any (fun o => o.opcode == c.opcode) = false

/-- A reply joins the queue as its last: with room in the queue and `EN` set (R412). -/
def Replies (s t : State) (k : Packet) (status reason : Nat) (results : List (Nat × Byte)) : Prop :=
  s.cmd.en = true → s.cmd.queue.length < 1024 →
    t.cmd.queue = s.cmd.queue ++ [{ seq := k.seq, status := status, reason := reason, results := results }]

/-- A command is outstanding from now on (R416). -/
def Outstands (s t : State) (c : Cmd) (k : Packet) : Prop :=
  t.cmd.out = s.cmd.out ++ [{ opcode := c.opcode, packet := k, long := c.single }]

/-- Nothing has changed but the command window and the inventory. -/
def windowOnly (s t : State) : Prop := t = { s with cmd := t.cmd, inv := t.inv }

/-- Nothing has changed but the command window, the inventory and what was written to host memory. -/
def hostOnly (s t : State) : Prop := t = { s with cmd := t.cmd, inv := t.inv, hostOut := t.hostOut, freeCtr := t.freeCtr }

/-- The long commands that change nothing at their intake but the window and the inventory, and the conditions of their own rules. -/
def longRows (s : State) (k : Packet) : List (Instr × Cmd × Prop) :=
  [(.loadCrate k, cLoadCrate, True), (.verify k, cVerify, s.mgmt.crate.isSome = true ∧ k.par 16 1 ≤ 1),
   (.place k, cPlace, s.mgmt.verified = true ∧ k.par 16 1 ≠ 0 ∧ ∃ c, s.mgmt.crate = some c ∧
     (bit (k.par 17 1) 0 = true ∨ (k.par 24 8 % 65536 = 0 ∧ k.par 32 4 ≤ 2 ^ 24 ∧ (c.streams = true → k.par 32 4 ≠ 0)))),
   (.loadTimetable k, cLoadTimetable, True), (.restore k, cRestore, s.mgmt.crate.isSome = true ∧ s.mgmt.verified = true),
   (.replayBegin k, cReplayBegin, s.frame.ranOnce = false)]

end Sys2Proof.Machine
end

