-- ==== Sys2Proof/Certificates/Slice0/Obligations.lean ====
section
/-! DEFINITION. The statements for the provers. The predicates and states that they are written with stand in Sys2Proof/Safety.lean. -/

open Sys2Proof Sys2Proof.Machine

/-- R59, R122, R134:
- every scalar instruction of form R completes with its result in `RD`, ready after its latency, and changes nothing else but the program counter, the
cycle and the loops; s0 takes no value.
- every scalar instruction of form I completes with its result in `RD`; `LI`, `RDID`, `PGET` and `CSEL` as well. -/
def Obligations.ScalarArithmeticWritesItsResult : Prop :=
  (∀ (s : State) (c : Nat) (rd ra rb : Fin 32) (k' : Core), Issues s c →
     ∀ row ∈ aluRowsR c rd ra rb,
       Readable (issuing s c) 0 ra (issuing s c).cyc → Readable (issuing s c) 0 rb (issuing s c).cyc →
       Writable (atIssue s c) (issuing s c) 0 rd ((issuing s c).cyc + row.2.1) →
       Falls (withScalar (issuing s c) rd (row.2.2 ((issuing s c).sreg ra) ((issuing s c).sreg rb)) row.2.1) k' →
       exec row.1 s = .next (issued s c k')) ∧
  (∀ (s : State) (c : Nat) (rd ra rb : Fin 32) (imm : Word) (k' : Core), Issues s c →
     (∀ row ∈ aluRowsI c rd ra imm,
       Readable (issuing s c) 0 ra (issuing s c).cyc → Writable (atIssue s c) (issuing s c) 0 rd ((issuing s c).cyc + row.2.1) →
       Falls (withScalar (issuing s c) rd (row.2.2 ((issuing s c).sreg ra) imm) row.2.1) k' → exec row.1 s = .next (issued s c k')) ∧
     (Writable (atIssue s c) (issuing s c) 0 rd ((issuing s c).cyc + 1) →
       (Falls (withScalar (issuing s c) rd imm 1) k' → exec (.li c rd imm) s = .next (issued s c k')) ∧
       (Falls (withScalar (issuing s c) rd (BitVec.ofNat 32 (c * 2 ^ 15 + (issuing s c).group.toNat)) 1) k' →
         exec (.rdid c rd) s = .next (issued s c k')) ∧
       (Readable (issuing s c) 2 (ra.val % 8) (issuing s c).cyc →
         Falls (withScalar (issuing s c) rd (((issuing s c).preg (ra.val % 8)).setWidth 32) 1) k' →
         exec (.pget c rd ra) s = .next (issued s c k')) ∧
       (Readable (issuing s c) 0 ra (issuing s c).cyc → Readable (issuing s c) 0 rb (issuing s c).cyc →
         Readable (issuing s c) 0 rd (issuing s c).cyc →
         Falls (withScalar (issuing s c) rd
           (if (issuing s c).sreg rb = 0 then (issuing s c).sreg rd else (issuing s c).sreg ra) 1) k' →
         exec (.csel c rd ra rb) s = .next (issued s c k'))))

/-- R53, R74 to R77, R122, R124:
- the control instructions complete: `NOP` does nothing, `FRAME_END` ends the issue of the frame, `LOOP` opens a loop over the next `len` words,
`JMP`, `CALL` and `RET` transfer, and `SKIP` takes effect only where its condition is not zero.
- `BRB` takes its first arm where the condition is zero and its second arm otherwise, and rejoins after the first arm. -/
def Obligations.ControlInstructionsTransfer : Prop :=
  (∀ (s : State) (c len cnt tgt : Nat) (cond : Fin 32) (k' : Core), Issues s c →
     let k := issuing s c
     (Falls k k' → exec (.nop c) s = .next (issued s c k')) ∧
     (Falls { k with ended := true } k' → exec (.frameEnd c) s = .next (issued s c k')) ∧
     (k.loops.length < 4 → 1 ≤ len → k.pc + len ≤ 1535 → 1 ≤ cnt → cnt ≤ 65535 →
       ¬(1 ≤ k.opcodeAt (k.pc + len) ∧ k.opcodeAt (k.pc + len) ≤ 7) →
       Falls { k with loops := { first := k.pc + 1, last := k.pc + len, left := cnt - 1 } :: k.loops } k' →
       exec (.loop c len cnt) s = .next (issued s c k')) ∧
     (tgt ≤ 1535 → LeavesFor k tgt .jmp k' → exec (.jmp c tgt) s = .next (issued s c k')) ∧
     (tgt ≤ 1535 → k.rets.length < 8 → LeavesFor { k with rets := (k.pc + 1) :: k.rets } tgt .other k' →
       exec (.call c tgt) s = .next (issued s c k')) ∧
     (∀ r rs, k.rets = r :: rs → LeavesFor { k with rets := rs } r .other k' → exec (.ret c) s = .next (issued s c k')) ∧
     (Readable k 0 cond k.cyc → 1 ≤ len → len ≤ 64 → k.pc + len ≤ 1535 → (∀ a ∈ skipEnds k len, ¬(k.pc < a ∧ a ≤ k.pc + len)) →
       Falls (if k.sreg cond = 0 then k else { k with skip := len }) k' → exec (.skip c cond len) s = .next (issued s c k'))) ∧
  (∀ (s : State) (c len tgt cnt : Nat) (cond : Fin 32) (outer : List Arm) (k' : Core), Issues s c →
     let k := issuing s c
     let arm : Arm := if k.sreg cond = 0 then
         { second := false, first := k.pc + 1, last := k.pc + len, rejoin := k.pc + len + 1, depth := k.rets.length }
       else { second := true, first := tgt, last := tgt + cnt - 1, rejoin := k.pc + len + 1, depth := k.rets.length }
     Readable k 0 cond k.cyc → 1 ≤ len → len ≤ 1024 → k.pc + len ≤ 1535 → 1 ≤ cnt → cnt ≤ 1024 → tgt + cnt ≤ 1536 →
     leaveArms k.pc arm.first .other false k.rets.length k.arms = .ok outer →
     LeavesFor { k with arms := arm :: outer } arm.first (if k.sreg cond = 0 then .fall else .other) k' →
     exec (.brb c cond len tgt cnt) s = .next (issued s c k'))

/-- R123: `LDS` and `STS` address 32-bit words: an aligned address in the shelf is read or written, one above 0xBFFF raises 0x0404, and one in the shelf
that is not a multiple of 4 raises 0x0405. -/
def Obligations.WordAccessesAreAlignedAndInRange : Prop :=
  ∀ (s : State) (c : Nat) (rd ra : Fin 32) (bankm : Byte) (imm : Word) (k' : Core), Issues s c →
    let k := issuing s c
    let t := k.cyc
    let a := ldsAddr k ra imm
    Readable k 0 ra t → (ra ≠ 0 → bit bankm.toNat (a / 32 % 8) = true) →
    (Writable (atIssue s c) k 0 rd (t + 2) →
      (a ≤ 0xBFFF → a % 4 = 0 → BankFree k (a / 32 % 8) (t + 1) →
        Falls (withScalar k rd (BitVec.ofNat 32 (ofLe (k.load .shelf a 4 (t + 1)))) 2) k' →
        exec (.lds c rd ra bankm imm) s = .next (issued s c (withUse k' a (t + 1) k.pc))) ∧
      (0xBFFF < a ∨ a % 4 ≠ 0 → ∃ u r, exec (.lds c rd ra bankm imm) s = .next u ∧ u.freeze.raised = (atIssue s c).freeze.raised ++ [r] ∧
        r.reason = (if 0xBFFF < a then 0x0404 else 0x0405) ∧ r.lcore = c ∧ (u.core c).halted = true)) ∧
    (Readable k 0 rd t → t + 2 < (atIssue s c).frame.e →
      (a ≤ 0xBFFF → a % 4 = 0 → BankFree k (a / 32 % 8) (t + 1) →
        Falls (withPending k { unit := 0, pc := k.pc, ready := t + 2,
                               writes := [{ space := .shelf, core := c, addr := a, bytes := leBytes 4 (k.sreg rd).toNat }] }) k' →
        exec (.sts c rd ra bankm imm) s = .next (issued s c (withUse k' a (t + 1) k.pc))) ∧
      (0xBFFF < a ∨ a % 4 ≠ 0 → ∃ u r, exec (.sts c rd ra bankm imm) s = .next u ∧ u.freeze.raised = (atIssue s c).freeze.raised ++ [r] ∧
        r.reason = (if 0xBFFF < a then 0x0404 else 0x0405) ∧ r.lcore = c ∧ (u.core c).halted = true))

/-- R59, R63, R97, R122, R125, R134:
- `GLOAD` loads a generator context of the region from the shelf, where the core owns the contexts, ready three cycles later.
- `TGET` reads the control word of a tile, `PSET` writes a predicate, p0 excepted, ready in the next cycle; `GSTEP` advances the step counter of a
generator context of the region modulo 2^64, ready two cycles later. -/
def Obligations.TilePredicateAndContextInstructions : Prop :=
  (∀ (s : State) (c : Nat) (ra : Fin 32) (bankm : Byte) (imm : Word) (k' : Core), Issues s c →
     let k := issuing s c
     let t := k.cyc
     k.owner = true → Readable k 0 ra t → t + 3 < (atIssue s c).frame.e → WordAccess (k.sreg ra).toNat 32 (ra ≠ 0) bankm →
       BankFree k ((k.sreg ra).toNat / 32 % 8) (t + 1) → Falls k k' →
       exec (.gload c ra bankm imm) s = .next (withContext (issued s c (withUse k' (k.sreg ra).toNat (t + 1) k.pc)) (c / 1280 * 16 + imm.toNat % 16)
         { seed := BitVec.ofNat 128 (ofLe ((k.load .shelf (k.sreg ra).toNat 24 (t + 1)).take 16)),
           step := BitVec.ofNat 64 (ofLe ((k.load .shelf (k.sreg ra).toNat 24 (t + 1)).drop 16)), ready := t + 3 })) ∧
  (∀ (s : State) (c : Nat) (rd ra : Fin 32) (imm : Word) (k' : Core), Issues s c →
     let k := issuing s c
     let n := c / 1280 * 16 + imm.toNat % 16
     let g := spGet {} (atIssue s c).contexts n
     (Readable k 3 (imm.toNat % 4) k.cyc → Writable (atIssue s c) k 0 rd (k.cyc + 2) →
       Falls (withScalar k rd (k.tile (imm.toNat % 4)).control 2) k' → exec (.tget c rd imm) s = .next (issued s c k')) ∧
     (Readable k 0 ra k.cyc → Writable (atIssue s c) k 2 (rd.val % 8) (k.cyc + 1) →
       Falls ((k.setPreg (rd.val % 8) ((k.sreg ra).setWidth 16)).setTag 2 (rd.val % 8) (k.cyc + 1) 0 k.pc) k' →
       exec (.pset c rd ra) s = .next (issued s c k')) ∧
     (Readable k 0 ra k.cyc → k.owner = true → k.cyc + 2 < (atIssue s c).frame.e → Falls k k' →
       exec (.gstep c ra imm) s = .next (withContext (issued s c k') n
         { g with step := g.step + (k.sreg ra).setWidth 64, ready := k.cyc + 2 })))

/-- R78, R81, R122, R134: `SETF`, `CLRF` and `CLRA` act in the cycle after their issue, `CHKA` goes on where its flag is set, and `WAITF` goes on where
its flag was set in an earlier cycle, and clears it where `IMM[6]` says so. -/
def Obligations.FlagInstructionsComplete : Prop :=
  ∀ (s : State) (c : Nat) (imm : Word) (k' : Core),
    let f := imm.toNat % 64
    (Issues s c → let k := issuing s c
      (k.cyc + 1 < (atIssue s c).frame.e → Falls (withPending k { unit := 0, pc := k.pc, ready := k.cyc + 1, flag := some f }) k' →
        exec (.setf c imm) s = .next (issued s c k')) ∧
      (Falls (withPending k { unit := 0, pc := k.pc, ready := k.cyc + 1, clearFlag := some f }) k' →
        exec (.clrf c imm) s = .next (issued s c k')) ∧
      (Falls (withPending k { unit := 0, pc := k.pc, ready := k.cyc + 1, clearArrival := some f }) k' →
        exec (.clra c imm) s = .next (issued s c k')) ∧
      (k.arrived f = true → Falls k k' → exec (.chka c imm) s = .next (issued s c k'))) ∧
    (Issues (unwaited s c) c → (s.core c).waitFlag = none ∨ (s.core c).waitFlag = some f →
      let k := issuing (unwaited s c) c
      k.flagSeen f k.cyc = true → Falls (if imm.toNat / 64 % 2 = 1 then k.clearFlag f else k) k' →
      exec (.waitf c imm) s = .next (issued (unwaited s c) c k'))

/-- R34, R79:
- a `WAITF` that finds its flag clear at cycle *c* raises a freeze request and stays at its word; with no freeze before it, the first held index is
*c* + 12.
- an engine whose next command waits on a clear flag raises a freeze request in its dispatch cycle and keeps the command. -/
def Obligations.ClearFlagsRaiseFreezeRequests : Prop :=
  (∀ (s : State) (c : Nat) (imm : Word), Issues s c →
     let f := imm.toNat % 64
     let k := issuing (unwaited s c) c
     k.flagSeen f k.cyc = false → (atIssue (unwaited s c) c).freeze.reqs = [] → (atIssue (unwaited s c) c).freeze.held = none →
     ∃ t, exec (.waitf c imm) s = .next t ∧ t.freeze.held = some (k.cyc + 12) ∧ (t.core c).pc = k.pc ∧ (t.core c).cyc = k.cyc ∧
       (t.core c).waitFlag = some f ∧ t.freeze.reqs = [{ core := c, unit := 0, arrival := false, flag := f, cycle := k.cyc, pc := k.pc }]) ∧
  (∀ (s : State) (c : Nat) (e : Engine) (q : QEntry) (rest : List QEntry), c < 81920 → s.cycling = true → (s.core c).section_ = true →
     (s.core c).halted = false → ((s.core c).eng e).queue = q :: rest → ((s.core c).eng e).cur = none →
     let d := Nat.max (q.enqCycle + 1) ((s.core c).eng e).occEnd
     let s1 := settle s c d
     d < s.heldFrom → (s1.core c).halted = false → q.desc.wen = true → (s1.core c).flagSeen q.desc.wflag d = false →
     s1.freeze.reqs = [] → s1.freeze.held = none →
     ∃ u, exec (.engineDispatch c e) s = .next u ∧ u.freeze.held = some (d + 12) ∧ u.core c = s1.core c ∧
       u.freeze.reqs = [{ core := c, unit := unitOf e, arrival := false, flag := q.desc.wflag, cycle := d, pc := q.pc }])

/-- R66, R85, R110, R122, R138, R141:
- an opcode that the table does not list raises 0x0303 with the opcode in the detail: the core halts, the fault is counted, and the package will halt
twelve cycles later.
- a `VASUM` with a lane outside the window of its register raises 0x0601, and the register keeps its value.
- an overlay that writes a page in use raises 0x0107 with the page, and writes no page.
- a `POST` of a flow that its core does not own raises 0x0501, and one beyond the declared count 0x0502; nothing is posted. -/
def Obligations.CoreFaultsHaltTheCore : Prop :=
  (∀ (s : State) (c : Nat) (opc : Byte), Issues s c → knownOpcode opc.toNat = false →
     ∃ t, exec (.illegalOpcode c opc) s = .next t ∧ (t.core c).halted = true ∧
       (∃ r, t.freeze.raised = (atIssue s c).freeze.raised ++ [r] ∧ r.reason = 0x0303 ∧ r.detail = opc.toNat ∧ r.lcore = c ∧
         r.pc = (issuing s c).pc ∧ r.cycle = (issuing s c).cyc) ∧
       t.stats.faults = satInc (atIssue s c).stats.faults ∧ (∃ h, t.freeze.faultAt = some h ∧ h ≤ (issuing s c).cyc + 12)) ∧
  (∀ (s : State) (c : Nat) (fl : InFlight), Executes s c .vx 0x1D fl →
     let k := seen s c .vx fl
     let d := fl.q.desc
     let v := k.vreg d.vd
     let sum := ((List.range (laneCount (d.fmta == 0xA))).filter (fun i => d.pred == 0 || bit fl.q.pred.toNat i)).foldl
       (fun (p : Partial) i => p.add (ancWexp v).toInt (ancH v).toNat (decodeVal d.fmta (laneOf (d.fmta == 0xA) (k.vreg d.va) i))) {}
     Readable k 1 d.va (fl.d + 1) → Readable k 1 d.vd (fl.d + 1) → d.fn ≠ 1 → sum.breach = true →
     ∃ t, exec (.vasum c) s = .next t ∧ (t.core c).vregs = (s.core c).vregs ∧ (t.core c).halted = true ∧
       ∃ r, t.freeze.raised = s.freeze.raised ++ [r] ∧ r.reason = 0x0601 ∧ r.engine = 2 ∧ r.cycle = fl.d + 1 ∧ r.object = 0x1000 + d.vd) ∧
  (∀ (s : State) (c : Nat) (fl : InFlight) (sp : Space) (a : Nat), Executes s c .sx 0x38 fl →
     let k := seen s c .sx fl
     let d := fl.q.desc
     OperandAt fl d.opnd0 fl.q.base0 (768 * d.count) sp a → (∃ i, i < d.count ∧ d.fn + i ∈ k.pagesInUse) →
     ∃ t r, exec (.xovl c) s = .next t ∧ t.freeze.raised = s.freeze.raised ++ [r] ∧ r.reason = 0x0107 ∧ r.lcore = c ∧ r.engine = 3 ∧
       (t.core c).halted = true ∧ (t.core c).code = (s.core c).code ∧ (t.core c).pend = (s.core c).pend) ∧
  (∀ (s : State) (c : Nat) (fl : InFlight) (sp : Space) (a : Nat), Executes s c .nx 0x40 fl →
     let k := seen s c .nx fl
     let flow := fl.q.sa.toNat % 2 ^ 20
     OperandAt fl fl.q.desc.opnd0 fl.q.base0 (256 * fl.q.desc.count) sp a →
     (k.flows.find? (fun f => f.flow == flow) = none ∨
       ∃ f, k.flows.find? (fun f => f.flow == flow) = some f ∧ f.count < f.posted + fl.q.desc.count) →
     ∃ t r, exec (.post c) s = .next t ∧ t.freeze.raised = s.freeze.raised ++ [r] ∧ r.detail = flow ∧
       r.reason = (if (k.flows.find? (fun f => f.flow == flow)).isNone then 0x0501 else 0x0502) ∧
       (t.core c).flows = (s.core c).flows ∧ t.ports = s.ports ∧ t.landQueue = s.landQueue)

/-- R57, R58, R66, R128: an enqueue with room in the queue reads its registers and puts the command at the end of the queue; one that finds the queue full
stalls the sequencer, and the stalled enqueue succeeds in the first cycle whose start finds a free entry. -/
def Obligations.EnqueuePutsCommandInQueue : Prop :=
  ∀ (s : State) (c daddr : Nat) (k' : Core),
    (Issues s c → Enqueues c (issuing s c) daddr →
      ((((issuing s c).eng (engineOf ((issuing s c).descAt daddr).eng)).full (issuing s c).cyc = false →
        Falls (withCommand (issuing s c) daddr) k' → exec (.enq c daddr) s = .next (issued s c k')) ∧
       (((issuing s c).eng (engineOf ((issuing s c).descAt daddr).eng)).full (issuing s c).cyc = true →
        exec (.enq c daddr) s = .next ((atIssue s c).setCore c { issuing s c with stalled := some daddr })))) ∧
    ((s.core c).stalled = some daddr → (s.core c).halted = false →
      ((s.core c).eng (engineOf ((s.core c).descAt daddr).eng)).queue.length < 8 →
      Issues (retried s c daddr) c → Enqueues c (issuing (retried s c daddr) c) daddr →
      ((issuing (retried s c daddr) c).eng (engineOf ((issuing (retried s c daddr) c).descAt daddr).eng)).full
        (issuing (retried s c daddr) c).cyc = false →
      Falls (withCommand (issuing (retried s c daddr) c) daddr) k' →
      exec (.enqueueAfterStall c) s = .next (issued (retried s c daddr) c k'))

/-- R56, R82, R128: a dispatch at the later of one cycle after the enqueue and the end of the occupancy takes the command from the queue, sets its
ready-cycle tags, and has its flag due in its last ready cycle; a null command executes nothing. -/
def Obligations.DispatchTakesTheHeadOfTheQueue : Prop :=
  ∀ (s : State) (c : Nat) (e : Engine) (q : QEntry) (rest : List QEntry), Dispatches s c e q rest →
    let d := Nat.max (q.enqCycle + 1) ((s.core c).eng e).occEnd
    let s1 := settle s c d
    let k := atDispatch (s1.core c) q
    let t := timing s1 c q d
    let fl : InFlight := { q := q, d := d, old := t.tags.map (fun g => (tagKey g.1 g.2.1, k.tag g.1 g.2.1)) }
    chkDispatch k s1.frame.e q d t = .ok () →
    ∃ u, exec (.engineDispatch c e) s = .next u ∧
      (u.core c).eng e = { queue := rest, occEnd := d + t.occ, freedAt := d, running := some fl, cur := if q.null then none else some fl } ∧
      (u.core c).tags = (t.tags.foldl (fun m g => m.setTag g.1 g.2.1 g.2.2 (unitOf e) q.pc) k).tags ∧
      (u.core c).pend = k.pend ++ [{ unit := unitOf e, pc := q.pc, ready := t.last, flag := if q.desc.sen then some q.desc.sflag else none }] ∧
      (u.core c).sregs = k.sregs ∧ (u.core c).vregs = k.vregs ∧ (u.core c).tiles = k.tiles ∧ (u.core c).shelf = k.shelf

/-- R78, R128:
- a flag action in its ready cycle clears its flag, then sets the other: a clear flag becomes set, with the cycle kept, and a set of a flag that is
set is a double set, 0x0104 with the flag.
- where the engine has executed its command, its completion brings the core past the earliest of its ready cycles, so that what is due then is
readable and its flag is set; the engine is no longer busy when nothing of it is in flight. -/
def Obligations.FlagActionsAndCompletionsSettle : Prop :=
  (∀ (k : Core) (p : Pending) (f : Nat), p.clearFlag = none → p.flag = some f →
     (spGet false k.sflags f = false → ∃ k', k.flagAction p = (k', none) ∧ spGet false k'.sflags f = true ∧ spGet 0 k'.sflagAt f = p.ready ∧
       (∀ g, g ≠ f → spGet false k'.sflags g = spGet false k.sflags g) ∧ k'.sregs = k.sregs ∧ k'.shelf = k.shelf) ∧
     (spGet false k.sflags f = true → ∃ e, k.flagAction p = (k, some (p, e)) ∧ e.reason = 0x0104 ∧ e.object = 0x4000 + f)) ∧
  (∀ (s : State) (c : Nat) (e : Engine) (p : Pending), c < 81920 → s.cycling = true → (s.core c).halted = false →
     ((s.core c).eng e).cur = none → p ∈ (s.core c).pend → p.unit = unitOf e → p.src = none → p.ready < s.heldFrom →
     (∀ q ∈ (s.core c).pend, q.unit = unitOf e → q.src = none → p.ready ≤ q.ready) →
     let s1 := settle s c (p.ready + 1)
     let k := s1.core c
     let busy := k.pend.any (fun q => q.unit == unitOf e && q.src.isNone)
     exec (.commandComplete c e) s =
       .next (s1.setCore c (k.setEng e { k.eng e with running := if busy then (k.eng e).running else none })))

/-- R59, R77, R109, R129, R130, R533:
- the arithmetic commands of VX complete: each lane of `VD` is the exact result of the lanes of the sources in format `FMTA`, rounded once, and lanes
whose predicate bit is 0 keep their value; nothing else changes.
- `VCMP` writes a predicate, 0 beyond the lanes, and keeps the bits of lanes that its own predicate leaves out; `SEL` takes each lane from `VA` or
from `VB`; `VFN` and `VCVT` round each lane once.
- a register packed from lane values that fit their width holds each of them in its lane. -/
def Obligations.VectorLanesAreComputed : Prop :=
  (∀ (s : State) (c : Nat) (fl : InFlight), ∀ row ∈ vxRows c, Executes s c .vx row.2.1 fl →
     let k := seen s c .vx fl
     let d := fl.q.desc
     let w := d.fmta == 0xA
     let lane := fun (n : Nat) (i : Nat) => decodeVal d.fmta (laneOf w (k.vreg n) i)
     let third := fun (i : Nat) => if row.2.2.1 then lane d.vd i else decodeVal d.fmta (laneOf w 0 i)
     VxReady k fl (if row.2.2.1 then [d.va, d.vb, d.vd] else [d.va, d.vb]) →
     exec row.1 s = .next (executed s c .vx fl (k.setVreg d.vd (merged k fl w (packVec w
       ((List.range (laneCount w)).map fun i => encodeIeee d.fmta d.rnd false 0 (row.2.2.2 d.rnd (lane d.va i) (lane d.vb i) (third i)))))))) ∧
  (∀ (s : State) (c : Nat) (fl : InFlight),
     let k := seen s c .vx fl
     let d := fl.q.desc
     let a := k.vreg d.va
     let b := k.vreg d.vb
     (Executes s c .vx 0x19 fl → Readable k 1 d.va (fl.d + 1) → Readable k 1 d.vb (fl.d + 1) →
       (d.pred ≠ 0 → Readable k 2 (d.fn % 8) (fl.d + 1)) →
       exec (.vcmp c) s = .next (executed s c .vx fl (k.setPreg (d.fn % 8) (BitVec.ofNat 16 (packNat 1
         ((List.range (laneCount (d.fmta == 0xA))).map fun i => b2n (
           if d.pred = 0 ∨ bit fl.q.pred.toNat i = true then
             relation (d.sb % 8) (decodeVal d.fmta (laneOf (d.fmta == 0xA) a i)) (decodeVal d.fmta (laneOf (d.fmta == 0xA) b i))
           else bit (k.preg (d.fn % 8)).toNat i))))))) ∧
     (Executes s c .vx 0x1A fl → Readable k 1 d.va (fl.d + 1) → Readable k 1 d.vb (fl.d + 1) →
       exec (.sel c) s = .next (executed s c .vx fl (k.setVreg d.vd (mergeLanes (wide d) fl.q.pred b a)))) ∧
     (Executes s c .vx 0x1B fl → VxReady k fl [d.va] → GeneratorReady s c fl →
       let ws := roundingWords s c fl fl.q.sa.toNat (fl.q.sb.toNat + 2 ^ 32 * fl.q.sb1.toNat) (laneCount (wide d))
       exec (.vcvt c) s = .next (withPaths (executed s c .vx fl (k.setVreg d.vd (merged k fl (wide d) (packVec (wide d)
         ((List.range (laneCount (wide d))).map fun i =>
           encodeIeee d.fmtd d.rnd d.sat (ws.getD i 0) (decodeVal d.fmta (laneOf (wide d) a i % 2 ^ fmtBits d.fmta))))))) (generatorUses c .vx fl))) ∧
     (Executes s c .vx 0x1C fl → VxReady k fl [d.va] →
       exec (.vfn c) s = .next (executed s c .vx fl (k.setVreg d.vd (merged k fl (d.fmta == 0xA) (packVec (d.fmta == 0xA)
         ((lanes (d.fmta == 0xA) a).map (elemCode d.fmta d.fn)))))))) ∧
  (∀ (w : Bool) (xs : List Nat), xs.length = laneCount w → (∀ x ∈ xs, x < 2 ^ (if w then 32 else 16)) →
     lanes w (packVec w xs) = xs)

/-- R110, R533: the anchored commands complete: `VAINIT` gives an empty register with the window of the scalar, `VASUM` adds exact lanes that stay in the
window, or an anchored register of the same window, and joins the special tags, and `VACVT` rounds once into lane 0. -/
def Obligations.AnchoredVectorCommandsComplete : Prop :=
  ∀ (s : State) (c : Nat) (fl : InFlight),
    let k := seen s c .vx fl
    let d := fl.q.desc
    let a := k.vreg d.va
    let v := k.vreg d.vd
    let sum := ((List.range (laneCount (d.fmta == 0xA))).filter (fun i => d.pred == 0 || bit fl.q.pred.toNat i)).foldl
      (fun (p : Partial) i => p.add (ancWexp v).toInt (ancH v).toNat (decodeVal d.fmta (laneOf (d.fmta == 0xA) a i))) {}
    (Executes s c .vx 0x1E fl →
      exec (.vainit c) s = .next (executed s c .vx fl (k.setVreg d.vd
        (mkAnchored 0 0 (fl.q.sa.setWidth 16) (BitVec.ofNat 6 (fl.q.sa.toNat / 2 ^ 16 % 64)))))) ∧
    (Executes s c .vx 0x1D fl → Readable k 1 d.va (fl.d + 1) → Readable k 1 d.vd (fl.d + 1) →
      (d.fn ≠ 1 → sum.breach = false →
        exec (.vasum c) s = .next (executed s c .vx fl (k.setVreg d.vd
          (mkAnchored (ancAcc v + BitVec.ofInt 128 sum.sum) (joinTag (ancTag v) sum.tag) (ancWexp v) (ancH v))))) ∧
      (d.fn = 1 → ancWexp a = ancWexp v → ancH a = ancH v →
        exec (.vasum c) s = .next (executed s c .vx fl (k.setVreg d.vd
          (mkAnchored (ancAcc v + ancAcc a) (joinTag (ancTag v) (ancTag a)) (ancWexp v) (ancH v)))))) ∧
    (Executes s c .vx 0x1F fl → Readable k 1 d.va (fl.d + 1) →
      exec (.vacvt c) s = .next (executed s c .vx fl (k.setVreg d.vd (BitVec.ofNat 256 (encodeVal d.fmtd d.rnd d.sat 0 false
        (if ancTag a = 3 then .nan else if ancTag a = 1 then .inf false else if ancTag a = 2 then .inf true
         else .fin (decide ((ancAcc a).toInt < 0)) (ancAcc a).toInt.natAbs (ancWexp a).toInt false))))))

/-- R100, R114, R115 to R117, R130, R533:
- `VMAXE`, `VARGMAX` and `VMOVS` write a scalar register, and `VBCAST` every selected lane of `VD`.
- `DRAW` puts words of the generator sequence into the 32-bit lanes of `VD`, by the context, the stream, the logical core and the word offset alone,
and occupies the region's generator. -/
def Obligations.VectorScalarExchangesAndDraws : Prop :=
  (∀ (s : State) (c : Nat) (fl : InFlight),
     let k := seen s c .vx fl
     let d := fl.q.desc
     let a := k.vreg d.va
     let sel := selected (d.fmta == 0xA) fl.q.pred a
     (Readable k 1 d.va (fl.d + 1) →
       (Executes s c .vx 0x20 fl → exec (.vmaxe c) s = .next (executed s c .vx fl
         (k.setSreg d.sa (clamp16 (sel.foldl (fun b p => maxOpt b (valExpo (decodeVal d.fmta p.2))) (-32768)))))) ∧
       (Executes s c .vx 0x21 fl → exec (.vargmax c) s = .next (executed s c .vx fl
         (k.setSreg d.sa (BitVec.ofNat 32 ((argmax d.fmta sel).elim 0xFFFFFFFF (·.1)))))) ∧
       (Executes s c .vx 0x22 fl → exec (.vmovs c) s = .next (executed s c .vx fl
         (k.setSreg d.sa (BitVec.ofNat 32 (laneOf (wide d) a d.fn)))))) ∧
     (Executes s c .vx 0x23 fl → VxReady k fl [] → exec (.vbcast c) s = .next (executed s c .vx fl
       (k.setVreg d.vd (merged k fl (wide d) (packVec (wide d) (List.replicate (laneCount (wide d)) fl.q.sa.toNat))))))) ∧
  (∀ (s : State) (c : Nat) (fl : InFlight), Executes s c .vx 0x24 fl →
     let k := seen s c .vx fl
     let d := fl.q.desc
     let g := spGet {} s.contexts (c / 1280 * 16 + d.ctx)
     g.ready ≤ fl.d + 1 → GeneratorFree s c fl → VxReady k fl [] →
     exec (.draw c) s = .next (withPaths (executed s c .vx fl (k.setVreg d.vd (merged k fl true (packVec true
       (drawWords g c fl.q.sa.toNat (fl.q.sb.toNat + 2 ^ 32 * fl.q.sb1.toNat) d.count))))) (generatorUses c .vx fl)))

/-- R129, R130, R136: `VLD` loads 32 bytes as they are readable one cycle after its dispatch, and `VST` has the bytes of the selected lanes in flight;
where no bank conflicts, nothing else changes. -/
def Obligations.VectorLoadAndStoreComplete : Prop :=
  ∀ (s : State) (c : Nat) (fl : InFlight) (sp : Space) (a : Nat),
    let k := seen s c .vx fl
    let d := fl.q.desc
    let n := if wide d then 4 else 2
    OperandAt fl d.opnd0 fl.q.base0 32 sp a →
    (Executes s c .vx 0x10 fl → VxReady k fl [] →
      let k' := k.setVreg d.vd (merged k fl (wide d) (BitVec.ofNat 256 (ofLe (k.load sp a 32 (fl.d + 1)))))
      NoConflict (restoreTags fl ((begun s c .vx).core c) k') (usesOf 2 fl.q.pc sp a 32 (fl.d + 1)) →
      exec (.vld c) s = .next (transferred s c .vx fl k' (usesOf 2 fl.q.pc sp a 32 (fl.d + 1)) [])) ∧
    (Executes s c .vx 0x11 fl → Readable k 1 d.va (fl.d + 1) →
      NoConflict (restoreTags fl ((begun s c .vx).core c) k) (usesOf 2 fl.q.pc sp a 32 (fl.d + 2)) →
      exec (.vst c) s = .next (transferred s c .vx fl k (usesOf 2 fl.q.pc sp a 32 (fl.d + 2))
        [{ unit := 2, pc := fl.q.pc, ready := fl.d + (if sp = .attic then 5 else 3),
           writes := ((List.range (laneCount (wide d))).filter (fun i => d.pred == 0 || bit fl.q.pred.toNat i)).map fun i =>
             { space := sp, core := c, addr := a + n * i, bytes := leBytes n (laneOf (wide d) (k.vreg d.va) i) } }]))

/-- R93 to R97, R100, R102: the MX commands that work on tiles complete: `MMA` adds the exact products of its steps, `MAXEXP` finds the largest exponent,
`TCLR` clears, `TSET` writes the control word, and `TADDP` adds a partial of the same window. -/
def Obligations.TileCommandsComplete : Prop :=
  ∀ (s : State) (c : Nat) (fl : InFlight),
    let k := seen s c .mx fl
    let d := fl.q.desc
    let t := k.tile d.tile
    (∀ o, readMx k fl = .ok o →
      (Executes s c .mx 0x01 fl → Readable k 3 d.tile ((timing (begun s c .mx) c fl.q fl.d).last - 1) →
        (t.ovfEn = true → ∀ e, e < 64 → (o.entrySum t.wexp.toInt t.h.toNat (e / 8) (e % 8)).breach = false) →
        NoConflict (restoreTags fl ((begun s c .mx).core c) (k.setTile d.tile (accumulated o t))) o.uses →
        exec (.mma c) s = .next (transferred s c .mx fl (k.setTile d.tile (accumulated o t)) o.uses [])) ∧
      (Executes s c .mx 0x02 fl →
        let v := clamp16 ((List.range (64 * o.len)).foldl (fun b e => maxOpt b (o.expoAt (e % 64 / 8) (e % 8) (e / 64))) (-32768))
        NoConflict (restoreTags fl ((begun s c .mx).core c) (k.setSreg d.sa v)) o.uses →
        exec (.maxexp c) s = .next (transferred s c .mx fl (k.setSreg d.sa v) o.uses []))) ∧
    (Executes s c .mx 0x03 fl → exec (.tclr c) s = .next (executed s c .mx fl (k.setTile d.tile { t with acc := [], tags := [], ovf := false }))) ∧
    (Executes s c .mx 0x04 fl →
      exec (.tset c) s = .next (executed s c .mx fl (k.setTile d.tile
        (if fl.q.sa.setWidth 16 = t.wexp ∧ BitVec.ofNat 6 (fl.q.sa.toNat / 2 ^ 16) = t.h then { t with ovfEn := bit fl.q.sa.toNat 22 }
         else { acc := [], tags := [], ovf := false, wexp := fl.q.sa.setWidth 16, h := BitVec.ofNat 6 (fl.q.sa.toNat / 2 ^ 16),
                ovfEn := bit fl.q.sa.toNat 22 })))) ∧
    (∀ sp a spT aT, Executes s c .mx 0x0B fl → OperandAt fl d.opnd0 fl.q.base0 1024 sp a → OperandAt fl d.opnd1 fl.q.base1 32 spT aT →
      let tm := timing (begun s c .mx) c fl.q fl.d
      let vals := fetchUnits k 1 fl.q.pc sp a 1024 (fun o => fl.d + 1 + o / (if sp = .attic then 64 else 32))
      let tr := fetchUnits k 1 fl.q.pc spT aT 32 (fun _ => fl.d + tm.occ)
      Readable k 3 d.tile (tm.last - 2) → le tr.1 0 1 = 1 → le tr.1 2 2 = t.wexp.toNat → le tr.1 4 1 = t.h.toNat →
      NoConflict (restoreTags fl ((begun s c .mx).core c) (k.setTile d.tile (t.addPart vals.1 tr.1))) (vals.2 ++ tr.2) →
      exec (.taddp c) s = .next (transferred s c .mx fl (k.setTile d.tile (t.addPart vals.1 tr.1)) (vals.2 ++ tr.2) []))

/-- R94, R95, R96, R102:
- partials may be added in any order: the entries, the tags and `OVF` of the tile are the same.
- the sum of the products of an entry does not depend on their order: in any order they give the same integer to add, joined tag and breach. -/
def Obligations.SumsAreOrderFree : Prop :=
  (∀ (t : Tile) (v1 v2 tr1 tr2 : List Byte) (i : Nat),
     ((t.addPart v1 tr1).addPart v2 tr2).entry i = ((t.addPart v2 tr2).addPart v1 tr1).entry i ∧
     ((t.addPart v1 tr1).addPart v2 tr2).tagOf i = ((t.addPart v2 tr2).addPart v1 tr1).tagOf i ∧
     ((t.addPart v1 tr1).addPart v2 tr2).ovf = ((t.addPart v2 tr2).addPart v1 tr1).ovf ∧
     ((t.addPart v1 tr1).addPart v2 tr2).wexp = t.wexp ∧ ((t.addPart v1 tr1).addPart v2 tr2).h = t.h) ∧
  (∀ (p : Partial) (wexp : Int) (h : Nat) (xs ys : List Val), xs.Perm ys →
     xs.foldl (fun p v => p.add wexp h v) p = ys.foldl (fun p v => p.add wexp h v) p)

/-- R101, R104 to R108: the exports complete: `TEXP` to eight registers or eight rows of memory, `TEXPMX` as eight blocks with their scales, and `TOUTP`
as 1,024 bytes of values with a 32-byte trailer; exports of tiles with `OVF` set are counted. -/
def Obligations.TileExportsComplete : Prop :=
  ∀ (s : State) (c : Nat) (fl : InFlight) (sp spT : Space) (a aT : Nat),
    let k := seen s c .mx fl
    let k0 := (begun s c .mx).core c
    let d := fl.q.desc
    let t := k.tile d.tile
    let regs := (opSpace d.opnd0).isNone
    let words := roundingWords s c fl fl.q.base2.toNat (fl.q.base3.toNat + 2 ^ 32 * fl.q.base3n.toNat)
    let last := (timing (begun s c .mx) c fl.q fl.d).last
    (Executes s c .mx 0x08 fl → GeneratorReady s c fl → Readable k 3 d.tile (fl.d + 1) →
      let size := packedBytes (fmtBits d.fmtd) 8
      let row := fun (i : Nat) => ((exportCodes fl t (words 64)).drop (8 * i)).take 8
      let k' := if regs then (List.range 8).foldl (fun m i => m.setVreg (d.vd + i) (packLanes d.fmtd (row i))) k else k
      let stores := if regs then [] else (List.range 8).map fun i =>
        storeAt c 1 fl.q.pc sp (a + i * size) (packBytes (fmtBits d.fmtd) (row i)) (last - 7 + i - 1)
      (regs = true ∨ OperandAt fl d.opnd0 fl.q.base0 (8 * size) sp a) → NoConflict (restoreTags fl k0 k') (stores.map (·.2)).flatten →
      exec (.texp c) s = .next (countOvf (b2n t.ovf) (withPaths
        (transferred s c .mx fl k' (stores.map (·.2)).flatten (stores.map (·.1))) (generatorUses c .mx fl)))) ∧
    (Executes s c .mx 0x09 fl → GeneratorReady s c fl → (∀ i, i < 4 → Readable k 3 i (fl.d + 1 + i)) →
      let size := packedBytes (fmtBits d.fmtd) 32
      let entries := fun (blk : Nat) => (List.range 4).flatMap fun j =>
        (List.range 8).map fun i => exportEntry (k.tile j) fl.q (if d.fn % 2 = 1 then blk + 8 * i else 8 * blk + i)
      let blocks := (List.range 8).map fun b => mxBlock d.fmtd d.rnd d.sat ((words 256).drop (32 * b)) (entries b)
      let rows := blocks.map fun b => packBytes (fmtBits d.fmtd) b.2
      let k' := if regs then (List.range 8).foldl (fun m i => m.setVreg (d.vd + i) (BitVec.ofNat 256 (ofLe (rows.getD i [])))) k else k
      let stores := if regs then [] else (List.range 8).map fun i => storeAt c 1 fl.q.pc sp (a + i * size) (rows.getD i []) (last - 9 + i)
      let scales := storeAt c 1 fl.q.pc spT aT (blocks.map (fun b => BitVec.ofNat 8 b.1)) (last - 1)
      (regs = true ∨ OperandAt fl d.opnd0 fl.q.base0 (8 * size) sp a) → OperandAt fl d.opnd1 fl.q.base1 8 spT aT →
      NoConflict (restoreTags fl k0 k') ((stores.map (·.2)).flatten ++ scales.2) →
      exec (.texpmx c) s = .next (countOvf (((List.range 4).map fun i => b2n (k.tile i).ovf).sum) (withPaths
        (transferred s c .mx fl k' ((stores.map (·.2)).flatten ++ scales.2) (stores.map (·.1) ++ [scales.1])) (generatorUses c .mx fl)))) ∧
    (Executes s c .mx 0x0A fl → Readable k 3 d.tile (fl.d + 1) →
      OperandAt fl d.opnd0 fl.q.base0 1024 sp a → OperandAt fl d.opnd1 fl.q.base1 32 spT aT →
      let w := if sp = .attic then 64 else 32
      let stores := (chunks w ((List.range 64).flatMap (fun i => leBytes 16 (t.entry i).toNat))).zipIdx.map fun p =>
        storeAt c 1 fl.q.pc sp (a + p.2 * w) p.1 (fl.d + 3 + p.2)
      let tr := storeAt c 1 fl.q.pc spT aT t.trailer (last - 1)
      NoConflict (restoreTags fl k0 k) ((stores.map (·.2)).flatten ++ tr.2) →
      exec (.toutp c) s = .next (transferred s c .mx fl k ((stores.map (·.2)).flatten ++ tr.2) (stores.map (·.1) ++ [tr.1])))

/-- R67, R70, R130, R131, R138:
- the copies of SX within a core complete: each piece is read at its cycle, written at its cycle and readable one cycle after the write, two more from
the attic; `XOVL` writes whole pages of the code shelf that are not in use, each ready at its cycle.
- `XPUT` brings its pieces into the store of another core, readable there at D + latency + i, and sets a sync flag there with the last where bit 6 of
`OPND3` asks for it; the registers of both cores stay. -/
def Obligations.CopiesAndPutsComplete : Prop :=
  (∀ (s : State) (c : Nat) (fl : InFlight) (src dst : Space) (a b : Nat),
     let k := seen s c .sx fl
     let k0 := restoreTags fl ((begun s c .sx).core c) k
     let d := fl.q.desc
     let D := fl.d
     let gather := copyWithin c k fl d.count (if src = .attic then 64 else 32) (src, a) (dst, b) (fun j => D + 1 + j)
       (fun j => D + (if src = .attic then 3 else 1) + j) (fun j => D + 1 + (if src = .attic then 3 else 1) + j)
     let scatter := copyWithin c k fl d.count (if dst = .attic then 64 else 32) (src, a) (dst, b) (fun j => D + 1 + j)
       (fun j => D + 1 + j) (fun j => D + 2 + j)
     let lag := if src = .attic ∨ dst = .attic then 4 else 2
     let xmov := copyWithin c k fl d.count 32 (src, a) (dst, b) (fun j => D + 1 + j) (fun j => D + lag + j) (fun j => D + 1 + lag + j)
     (OperandAt fl d.opnd0 fl.q.base0 d.count src a → OperandAt fl d.opnd1 fl.q.base1 d.count dst b →
       (Executes s c .sx 0x30 fl → NoConflict k0 gather.uses → exec (.gather c) s = .next (transferred s c .sx fl k gather.uses gather.pends)) ∧
       (Executes s c .sx 0x31 fl → NoConflict k0 scatter.uses → exec (.scatter c) s = .next (transferred s c .sx fl k scatter.uses scatter.pends)) ∧
       (Executes s c .sx 0x32 fl → NoConflict k0 xmov.uses → exec (.xmov c) s = .next (transferred s c .sx fl k xmov.uses xmov.pends))) ∧
     (Executes s c .sx 0x38 fl → OperandAt fl d.opnd0 fl.q.base0 (768 * d.count) src a →
       (∀ i, i < d.count → d.fn + i ∉ k.pagesInUse) →
       exec (.xovl c) s = .next (transferred s c .sx fl k [] ((List.range d.count).map fun i =>
         inFlight fl.q.pc .code c (96 * (d.fn + i)) (k.load src (a + 768 * i) 768 (D + 12 * i + 1)) (D + 12 * (i + 1) + 1))))) ∧
  (∀ (s : State) (c : Nat) (fl : InFlight) (src dst : Space) (a b : Nat), Executes s c .sx 0x33 fl →
     let k := seen s c .sx fl
     let d := fl.q.desc
     let t := d.opnd2.toNat % 2 ^ 17
     let ps := piecesOf 0 d.count (pathOf d.fn).1
     let uses := ps.flatMap (fun p => usesOf 3 fl.q.pc src (a + p.2.1) p.2.2 (fl.d + p.1))
     let land := ps.flatMap (fun p => (landingUses fl.q.pc dst (b + p.2.1) p.2.2 (fl.d + (pathOf d.fn).2 + p.1)).map
       (fun u => (({ u.1 with src := some c } : BankUse), u.2)))
     let paths := ps.flatMap (fun p => beatPaths d.fn c t (bits d.opnd2.toNat 19 17) (pathOf d.fn).2 fl.d p.1)
     let ready := fl.d + (pathOf d.fn).2 + (ps.length - 1)
     let flag : Pending := { unit := 3, src := some c, pc := fl.q.pc, ready := ready, flag := some (d.opnd3.toNat % 64) }
     OperandAt fl d.opnd0 fl.q.base0 d.count src a → OperandAt fl d.opnd1 fl.q.base1 d.count dst b → t ≠ c →
     PathsFree (begun s c .sx) c paths → NoConflict (restoreTags fl ((begun s c .sx).core c) k) uses → NoConflict (s.core t) land →
     ∃ u, exec (.xput c) s = .next u ∧ sameRegisters (u.core c) (s.core c) ∧ sameRegisters (u.core t) (s.core t) ∧
       (u.core t).pend = (s.core t).pend ++
         ps.map (fun p => { inFlight fl.q.pc dst t (b + p.2.1) (k.load src (a + p.2.1) p.2.2 (fl.d + p.1)) (fl.d + (pathOf d.fn).2 + p.1) with
           src := some c }) ++
         (if d.opnd3.toNat / 64 % 2 = 1 then [flag] else []) ∧
       (u.core c).pend = (s.core c).pend ∧ u.hatch = s.hatch ∧ u.cellar = s.cellar ∧ u.ports = s.ports)

/-- R138, R145, R159: the transfers between staging and the cellars or the Hatch complete: a read has its beats readable in staging after twice the path
and the fixed latency, with the bytes that the memory holds when each beat passes; a write has them readable in the memory after the path; no register
changes. -/
def Obligations.DeviceTransfersComplete : Prop :=
  ∀ (s : State) (c : Nat) (fl : InFlight) (sp : Space) (a da : Nat),
    let k := seen s c .sx fl
    let s1 := begun s c .sx
    let d := fl.q.desc
    let D := fl.d
    let ps := piecesOf 0 d.count 512
    let lamC := s1.lambda c (s1.daSite fl.q.da)
    let lamH := s1.lambda c 0
    let g := c / 1280
    OperandAt fl d.opnd0 fl.q.base0 d.count sp a →
    (Executes s c .sx 0x34 fl → transferAddress s1 fl false = .ok da → (∀ p ∈ ps, s1.firstBad (da + p.2.1) p.2.2 = none) →
      PathsFree s1 c (ps.map fun p => (D + 2 * lamC + binLag fl + 76 + p.1, 0xA80 + 2 * g + 1)) →
      ∃ u, exec (.xcrd c) s = .next u ∧ sameRegisters (u.core c) (s.core c) ∧ (u.core c).pend = (s.core c).pend ++ ps.map (fun p =>
        inFlight fl.q.pc sp c (a + p.2.1) ((settleDevices s1 (D + lamC + binLag fl + p.1)).cellarRead (da + p.2.1) p.2.2)
          (D + 2 * lamC + binLag fl + 76 + p.1)) ∧ u.cellar.bytes = s.cellar.bytes ∧ u.hatch = s.hatch) ∧
    (Executes s c .sx 0x35 fl → transferAddress s1 fl false = .ok da →
      PathsFree s1 c (ps.map fun p => (D + p.1, 0xA80 + 2 * g)) →
      ∃ u, exec (.xcwr c) s = .next u ∧ sameRegisters (u.core c) (s.core c) ∧ (u.core c).pend = (s.core c).pend ++ ps.map (fun p =>
        inFlight fl.q.pc .cellar c (da + p.2.1) (k.load sp (a + p.2.1) p.2.2 (D + p.1)) (D + lamC + binLag fl + 2 + p.1)) ∧
        u.cellar.bytes = s.cellar.bytes ∧ u.hatch = s.hatch) ∧
    (Executes s c .sx 0x36 fl → transferAddress s1 fl true = .ok da →
      PathsFree s1 c (ps.flatMap fun p => (D + 2 * lamH + 20 + p.1, 0xA80 + 2 * g + 1) :: hatchPort (da + p.2.1) (D + lamH + p.1)) →
      ∃ u, exec (.xhrd c) s = .next u ∧ sameRegisters (u.core c) (s.core c) ∧ (u.core c).pend = (s.core c).pend ++ ps.map (fun p =>
        inFlight fl.q.pc sp c (a + p.2.1) (readBytes (settleDevices s1 (D + lamH + p.1)).hatch.bytes (da - hatchBase + p.2.1) p.2.2)
          (D + 2 * lamH + 20 + p.1)) ∧ u.cellar = s.cellar ∧ u.hatch = s.hatch) ∧
    (Executes s c .sx 0x37 fl → transferAddress s1 fl true = .ok da →
      PathsFree s1 c (ps.flatMap fun p => (D + p.1, 0xA80 + 2 * g) :: hatchPort (da + p.2.1) (D + lamH + p.1)) →
      ∃ u, exec (.xhwr c) s = .next u ∧ sameRegisters (u.core c) (s.core c) ∧ (u.core c).pend = (s.core c).pend ++ ps.map (fun p =>
        inFlight fl.q.pc .hatch c (da - hatchBase + p.2.1) (k.load sp (a + p.2.1) p.2.2 (D + p.1)) (D + lamH + 20 + p.1)) ∧
        u.cellar = s.cellar ∧ u.hatch = s.hatch)

/-- R166 to R168: `XSTREAM` starts the program of its header, each element issues in its cycle and brings its beats through staging to its destination,
and an element becomes readable, with its flag, in its ready cycle; the program ends with its last element. -/
def Obligations.StreamProgramsRun : Prop :=
  ∀ (s : State) (c n : Nat) (fl : InFlight) (p : StreamProg) (g : CmdEff),
    let k := seen s c .sx fl
    let h := k.load .attic (0x17E00 + 32 * (fl.q.desc.count - 1)) 32 (fl.d + 1)
    let q := streamHeader fl.q.desc.count fl.q.pc fl.d h
    (Executes s c .sx 0x39 fl → le h 0 1 = 1 → k.progs.length < 4 → (∀ r ∈ k.progs, r.num ≠ fl.q.desc.count) → 0 < q.count →
      (∀ e, e < q.count → q.readyAt (s.lambda c (s.daSite (q.elemDa e))) (q.issue e) < s.frame.e) →
      let us := usesOf 3 fl.q.pc .attic (0x17E00 + 32 * (fl.q.desc.count - 1)) 32 (fl.d + 1)
      NoConflict (restoreTags fl ((begun s c .sx).core c) { k with progs := k.progs ++ [q] }) us →
      exec (.xstream c) s = .next (transferred s c .sx fl { k with progs := k.progs ++ [q] } us [])) ∧
    (c < 81920 → s.cycling = true → (s.core c).halted = false → (s.core c).progs.find? (fun r => r.num == n) = some p →
      (p.next < p.count → p.issue p.next < s.heldFrom →
        let s1 := settle s c (p.issue p.next)
        streamEffect s1 c (s1.core c) p = .ok g → PathsFree s1 c g.paths → NoConflict g.core g.uses →
        ∃ u, exec (.streamElement c n) s = .next u ∧ (u.core c).progs = ((s1.core c).setProg { p with next := p.next + 1 }).progs ∧
          (u.core c).pend = (s1.core c).pend ++ g.pends ∧ sameRegisters (u.core c) (s1.core c)) ∧
      (p.readyNext < p.next →
        let t := p.readyAt (s.lambda c (s.daSite (p.elemDa p.readyNext))) (p.issue p.readyNext)
        t < s.heldFrom →
        let s1 := settle s c (t + 1)
        exec (.streamElementReady c n) s = .next (s1.setCore c (if p.readyNext + 1 = p.count then
            { s1.core c with progs := (s1.core c).progs.filter (fun r => r.num != p.num) }
          else (s1.core c).setProg { p with readyNext := p.readyNext + 1 }))))

/-- R81, R130, R138, R141, R217: `POST` counts its parcels and hands them over in the flow's order, from the first offset not yet posted, and `NCLRA`
clears its arrival flag one cycle after its dispatch. -/
def Obligations.PostAndArrivalClearComplete : Prop :=
  ∀ (s : State) (c : Nat) (fl : InFlight) (sp : Space) (a : Nat) (f : OwnFlow),
    let k := seen s c .nx fl
    let d := fl.q.desc
    let flow := fl.q.sa.toNat % 2 ^ 20
    let w := if sp = .attic then 64 else 32
    let at_ := fun (i j : Nat) => fl.d + 8 * i + 1 + j
    let us := (List.range d.count).flatMap fun i => (List.range (256 / w)).flatMap fun j =>
      usesOf 4 fl.q.pc sp (a + 256 * i + w * j) w (at_ i j)
    let payload := fun (i : Nat) => (List.range (256 / w)).flatMap (fun j => k.load sp (a + 256 * i + w * j) w (at_ i j))
    (Executes s c .nx 0x40 fl → OperandAt fl d.opnd0 fl.q.base0 (256 * d.count) sp a →
      k.flows.find? (fun f => f.flow == flow) = some f → f.posted + d.count ≤ f.count →
      NoConflict (restoreTags fl ((begun s c .nx).core c) (k.countPosts flow d.count fl.q.pc)) us →
      exec (.post c) s = .next (postParcels flow f.posted f.count ((List.range d.count).map payload)
        (transferred s c .nx fl (k.countPosts flow d.count fl.q.pc) us []))) ∧
    (Executes s c .nx 0x41 fl → exec (.nclra c) s = .next (transferred s c .nx fl k []
      [{ unit := 4, pc := fl.q.pc, ready := fl.d + 1, clearArrival := some (d.fn + 16 * (d.opnd0.toNat % 4)) }]))

/-- R38, R53, R54, R131, R144:
- once cycle *E* − 1 has been executed with every core at its `FRAME_END` and every posted flow complete, the package enters tick wait: the completion
time is kept, no stream program is left, and the package stands at cycle *E*.
- at cycle 0 every core that the timetable uses begins at the entry address of its frame with every register ready and its sync flags clear;
registers, arrival flags and stores keep their contents. -/
def Obligations.FramesBeginAndEnd : Prop :=
  (∀ (s : State), s.cycling = true → s.freeze.faultAt = none → s.freeze.held = none → s.frame.holdOut = false →
     let z := settleAll (s.advanceTo (s.cycleTime s.frame.e)) s.frame.e
     z.freeze.faultAt = none →
     (∀ c ∈ z.usedCores, (z.core c).halted = true ∨ ((z.core c).ended = true ∧ ∀ f ∈ (z.core c).flows, f.posted = 0 ∨ f.count ≤ f.posted)) →
     ∃ t, exec .scheduleEnd s = .next t ∧ t.frame.tickWait = true ∧ t.frame.completedAt = some t.now ∧
       t.fabric.curCycle = s.frame.e ∧ (∀ c, (z.core c).section_ = true → (t.core c).progs = [])) ∧
  (∀ (s : State), s.inRun = true → s.frame.tickTaken = true → s.frame.tickWait = true →
     ∃ t, exec .frameStart s = .next t ∧ t.frame.tickWait = false ∧ t.frame.tickTaken = false ∧ t.fabric.curCycle = 0 ∧ t.pathUses = [] ∧
       ∀ c ∈ s.usedCores, (t.core c).pc = (s.core c).entries.getD (s.frameIndex % Nat.max (s.core c).entries.length 1) 0 ∧
         (t.core c).cyc = 0 ∧ (t.core c).ended = false ∧ (t.core c).tags = [] ∧ (t.core c).sflags = [] ∧
         (t.core c).sregs = (s.core c).sregs ∧ (t.core c).vregs = (s.core c).vregs ∧ (t.core c).pregs = (s.core c).pregs ∧
         (t.core c).tiles = (s.core c).tiles ∧ (t.core c).aflags = (s.core c).aflags ∧ (t.core c).shelf = (s.core c).shelf ∧
         (t.core c).attic = (s.core c).attic)

/-- R34 to R37, R45, R80, R85, R86:
- twelve cycles after its first request a freeze halts the package at its held index; once every flag awaited is set the package resumes, and the
periods frozen, at least one, are counted; a freeze beyond its allowance is counted once in a frame.
- a freeze that only sync flags caused and that lasts too long raises 0x0201 on the waiting core, one with an arrival cause 0x0202, and a core fault
halts the package; each time the device is `FAULTED` with `STOPPED` set, and the first fault of the run is latched. -/
def Obligations.FreezesHaltResumeAndFault : Prop :=
  (∀ (s : State) (h p : Nat), s.cycling = true →
     (s.freeze.held = some h → s.freeze.halted = false → (∀ f, s.freeze.faultAt = some f → h < f) →
       (∀ f, (settleAll s h).freeze.faultAt = some f → h < f) →
       ∃ t, exec .freezeHalt s = .next t ∧ t.freeze.halted = true ∧ t.freeze.held = some h ∧ t.fabric.freezes = s.fabric.freezes + 1 ∧
         t.fabric.curCycle = h ∧ t.freeze.startMt = t.now) ∧
     (s.freeze.held = some h → s.freeze.halted = true →
       (∀ r ∈ (settleAll s h).freeze.reqs, (settleAll s h).stillWaits r = false) →
       ∃ t, exec (.freezeResume p) s = .next t ∧ t.freeze.held = none ∧ t.freeze.halted = false ∧ t.freeze.reqs = [] ∧
         t.fabric.frozenCycles = s.fabric.frozenCycles + BitVec.ofNat 64 (Nat.max p 1) ∧
         t.fabric.frameFrozen = s.fabric.frameFrozen + BitVec.ofNat 32 (Nat.max p 1)) ∧
     (s.inFrame = true → s.freeze.overThis = false → s.freeze.halted = true → s.frame.completedAt = none →
       ∃ t, exec .freezeOver s = .next t ∧ t.freeze.overThis = true ∧ t.fabric.freezeOver = s.fabric.freezeOver + 1)) ∧
  (∀ (s : State) (h : Nat) (r : FreezeReq), s.cycling = true →
     (s.freeze.held = some h → s.freeze.halted = true → s.freeze.causes.any (·.arrival) = false →
       lowestReq (s.freeze.reqs.filter s.stillWaits) = some r → s.alarms.latch = none →
       ∃ t l, exec .circularWait s = .next t ∧ t.dev = .faulted ∧ t.frame.stopped = true ∧ t.alarms.latch = some l ∧
         l.record.reason = 0x0201 ∧ l.record.lcore = r.core ∧ l.record.object = 0x4000 + r.flag) ∧
     (s.freeze.held = some h → s.freeze.halted = true →
       lowestReq ((s.freeze.reqs.filter s.stillWaits).filter (·.arrival)) = some r → s.alarms.latch = none →
       ∃ t l, exec .arrivalTimeout s = .next t ∧ t.dev = .faulted ∧ t.frame.stopped = true ∧ t.alarms.latch = some l ∧
         l.record.reason = 0x0202 ∧ l.record.lcore = r.core ∧ l.record.object = 0x5000 + r.flag) ∧
     (s.freeze.faultAt = some h → ∃ t, exec .faultHalt s = .next t ∧ t.dev = .faulted ∧ t.frame.stopped = true))

/-- R38, R39, R43, R44:
- at its agreed tick a completed frame is sealed, and `FRAME_INDEX` grows by one; with no hold the agreed tick is the undeferred one. The statement
leaves out the commands that an intake of the same tick may bring.
- a frame that is held and whose ready notes are not all there takes no tick: the event changes nothing. -/
def Obligations.FrameTickSealsTheFrame : Prop :=
  (∀ (s : State) (ring : List RingSlot) (t : Nat), s.inRun = true → s.frame.stopFor = none → s.frame.abortAt = none →
     s.frame.waitStart = false → s.frame.tickTaken = false → s.frame.completedAt.isSome = true → s.agreedTick = some t →
     576 ≤ s.bufFree → s.cmd.en = false → s.inv.replay = none →
     ∃ u, exec (.frameTick ring) s = .next u ∧ u.fabric.frameIndex = s.fabric.frameIndex + 1 ∧
       u.frame.lastClean = some s.frameIndex ∧ u.frame.framesRun = s.frame.framesRun + 1) ∧
  (∀ (s : State) (ring : List RingSlot), s.inRun = true → s.frame.stopFor = none → s.frame.abortAt = none →
     s.frame.waitStart = false → s.frame.tickTaken = false → s.frame.completedAt.isSome = true → s.agreedTick = none →
     exec (.frameTick ring) s = .next s)

/-- R42 to R44, R45, R502:
- the horizon is passed once in a frame, and a frozen package sends its hold there; a hold of another device is kept and joined; a hold without its
ready note in time faults the device.
- a ready note gives its sender's holds their tick where the tick agreed is not past; a stop note of another device is kept for the next tick, with
fault 0x0205 latched, or stops a frozen or paused device at once. -/
def Obligations.FrameNotesAreTaken : Prop :=
  (∀ (s : State) (x y z frame cause : Nat) (pause : Bool),
     (s.inFrame = true → s.frame.horizonDone = false → ∃ t, exec .holdHorizon s = .next t ∧ t.frame.horizonDone = true ∧
       (s.freeze.halted = true → s.frame.completedAt = none → t.frame.holdOut = true)) ∧
     (s.runOn = true → s.holdFrame ≤ frame → ∃ t h, exec (.holdNote x y z frame cause pause) s = .next t ∧ h ∈ t.frame.holds ∧
       h.x = x ∧ h.y = y ∧ h.z = z ∧ h.frame = frame ∧ (pause = true → h.pause = true)) ∧
     (s.runOn = true → (∃ h ∈ s.holdsNow, h.x = x ∧ h.y = y ∧ h.z = z ∧ h.ready = none ∧ h.pause = false) →
       ∃ t, exec (.holdTimeout x y z) s = .next t ∧ t.dev = .faulted ∧ t.frame.stopped = true)) ∧
  (∀ (s : State) (x y z frame tick reason : Nat), s.runOn = true →
     (s.holdFrame ≤ frame →
       let s1 := takeNote s 0x11 x y z
       let s2 := { s1 with frame := { s1.frame with holds := s1.frame.holds.map fun h =>
         if h.x = x ∧ h.y = y ∧ h.z = z ∧ h.frame = frame ∧ h.ready = none then { h with ready := some tick } else h } }
       (frame = s.holdFrame → ∀ a, s2.agreedTick = some a → s2.now ≤ a) → exec (.ready x y z frame tick) s = .next s2) ∧
     (s.frame.stopFor = none →
       (s.freeze.halted = false → s.paused = false → ∃ t, exec (.stop x y z frame reason) s = .next t ∧ t.dev = s.dev ∧
         t.frame.stopFor = some (0x0205, s.frameIndex) ∧ (s.alarms.latch = none → ∃ l, t.alarms.latch = some l ∧ l.record.reason = 0x0205)) ∧
       (s.freeze.halted = true ∨ s.paused = true → ∃ t, exec (.stop x y z frame reason) s = .next t ∧ t.dev = .held ∧ t.frame.stopped = true)))

/-- R229, R233, R275, R425, R499:
- a detour note adds its link to the loss union and has the plan for it written, for the latest round announced; the write completes; and at its round
the flip makes the other version active.
- a transit plan replaces the transit entries of its version at the next slot-round boundary. -/
def Obligations.TablesAreReplacedAndFlipped : Prop :=
  (∀ (s : State) (x y z F lostPort frame n : Nat),
     (s.runOn = true → s.fabric.writable = true → s.fabric.flippedUnion = none →
       let l := s.linkName x y z lostPort
       let u := if s.fabric.union.contains l then s.fabric.union else s.fabric.union ++ [l]
       s.planFor s.baseSet u = some n →
       ∃ t, exec (.detour x y z F lostPort frame) s = .next t ∧ t.fabric.union = u ∧ t.fabric.writing = some n ∧
         t.fabric.flipRound = some ((s.fabric.announced ++ [F]).foldl Nat.max 0)) ∧
     (∀ ts, s.fabric.writing = some n → s.tableSet n = some ts →
       ∃ t, exec .tableSetWritten s = .next t ∧ t.fabric.writing = none ∧ (t.version (!s.fabric.active)).tx = ts.tx ∧
         (t.version (!s.fabric.active)).xbar = ts.xbar ∧ (t.version (!s.fabric.active)).landing = ts.landing ∧
         (t.version (!s.fabric.active)).ttx = (s.version (!s.fabric.active)).ttx ∧ t.activeVersion = s.activeVersion) ∧
     (s.runOn = true → s.fabric.flipRound = some F →
       ∃ t, exec .detourFlip s = .next t ∧ t.fabric.active = !s.fabric.active ∧ t.fabric.flips = s.fabric.flips + 1 ∧
         t.fabric.detours = s.fabric.detours + 1 ∧ t.fabric.flipRound = none)) ∧
  (∀ (s : State) (v : Bool) (tx : List TEntry) (xb : List XEntry), s.transit = some (v, tx, xb) →
     ∃ t, exec .transitApply s = .next t ∧ t.transit = none ∧ (t.version v).ttx = tx ∧ (t.version v).txbar = xb ∧
       (t.version v).tx = (s.version v).tx ∧ (t.version v).xbar = (s.version v).xbar ∧ (t.version v).landing = (s.version v).landing ∧
       t.version (!v) = s.version (!v) ∧ t.time.mtNs = BitVec.ofNat 64 ((s.round + 1) * 1024))

/-- R237 to R241, R244, R272, R273:
- a resend note for an own flow of the current frame or the one before, not served lately, is remembered and queued; a core frozen on an incomplete
buffer asks for each run of missing offsets, eight at most.
- a note for this device that is the next of its source is delivered; a gap that lasts is passed over and counted; a fabric-owner message waits for
the next intake. -/
def Obligations.ResendsAndRoutedNotesAreServed : Prop :=
  (∀ (s : State) (x y z flow frame first count c : Nat) (flag : Fin 64),
     (s.sourcesOf flow ≠ [] → (frame = s.frameIndex ∨ frame + 1 = s.frameIndex) →
       (∀ r ∈ s.requests, ¬(r.1 = flow ∧ r.2.1 = frame ∧ r.2.2.1 = first ∧ r.2.2.2.1 = count)) →
       ∃ t, exec (.resend x y z flow frame first count) s = .next t ∧ (flow, frame, first, count, s.round) ∈ t.requests) ∧
     (∀ n l, c < 81920 → s.cycling = true → s.freeze.halted = true →
       (∃ r ∈ s.freeze.reqs, r.core = c ∧ r.arrival = true ∧ r.flag = flag.val ∧ s.stillWaits r = true) → s.landingOf c flag = some (n, l) →
       let s1 := s.advanceTo (s.freeze.startMt + s.fabric.resendWait * 1024)
       exec (.resendWaitExpiry c flag) s = .next (((missingRuns (spGet {} s1.land n).landed l.count 0).take 8).foldl
         (fun m r => requestResend m l.flow (s1.instanceFrame n l) r.1 r.2) s1))) ∧
  (∀ (s : State) (p x y z : Nat) (n : RNote) (msg : List Byte),
     (p < 6 → s.portUp p = true → n.ntype ≠ 0x30 → 0x10 ≤ n.ntype → n.ntype ≤ 0x14 → n.srcSlice = s.fabric.slice →
       (n.destX, n.destY, n.destZ) = s.coords → n.destX < 16 → n.destY < 16 → n.destZ < 16 →
       n.seq = (s.noteSrc n.srcX n.srcY n.srcZ false).next.toNat → (∀ m ∈ (s.noteSrc n.srcX n.srcY n.srcZ false).held, m.seq ≠ n.seq) →
       ∃ t, exec (.routedNoteReceive p n) s = .next t ∧ n ∈ t.noteIn ∧ (t.port p).notesReceived = (s.port p).notesReceived + 1) ∧
     (∀ r, (s.noteSrc x y z false).gapAt = some r → (s.noteSrc x y z false).held ≠ [] → (s.noteSrc x y z true).gapAt = none →
       ∃ t, exec (.noteGap x y z) s = .next t ∧ t.fabric.noteGaps = s.fabric.noteGaps + 1) ∧
     (s.dev ≠ .off → s.dev ≠ .boot →
       ∃ t, exec (.foMsg x y z msg) s = .next t ∧ t.cmd.foMsgs = s.cmd.foMsgs ++ [(x, y, z, msg)]))

/-- R27, R187, R200, R207, R223, R224:
- a round starts at the next multiple of 1,024 ns with a heartbeat in front of the notes of every trained port; a good round marker gives the lag of
its lane's partner, and one whose version or CRC fails is counted.
- a covered data slot of an `UP` port sends the copy due in it, and an empty container otherwise; a service slot sends a pending resend first. -/
def Obligations.RoundsAndSlotsSend : Prop :=
  (∀ (s : State) (p lane : Nat) (marker : List Byte),
     (s.dev ≠ .off → ∃ t, exec .roundStart s = .next t ∧ t.time.mtNs = BitVec.ofNat 64 ((s.round + 1) * 1024) ∧ t.resendPosted ≤ 64 ∧
       (p ∈ s.portList → (s.port p).talks = true → ∃ n rest, (t.port p).localNotes = n :: rest ∧ n.ntype = 1)) ∧
     (portExists s.variant p = true → (s.port p).ethernet = false → (s.port p).state ≠ .off → (s.port p).state ≠ .disabled →
       lane < fullWidth p →
       (bits (le marker 8 1) 7 4 = 1 → crc32c (slice marker 8 15) = ofBe (slice marker 23 4) →
         ∃ v, exec (.roundMarker p lane marker) s = .next (s.setPort p { s.port p with ownLag := some v }) ∧
           v = sext 32 (wrap 32 ((sext 32 (s.round % 2 ^ 32 + 2 ^ 32 - ofBe (slice marker 10 4)) * 1024 + (s.now % 1024 : Nat)) * 256))) ∧
       (bits (le marker 8 1) 7 4 ≠ 1 ∨ crc32c (slice marker 8 15) ≠ ofBe (slice marker 23 4) →
         exec (.roundMarker p lane marker) s = .next (s.setPort p { s.port p with markerErr := (s.port p).markerErr + 1 })))) ∧
  (∀ (s : State) (p slot : Nat), portExists s.variant p = true → slot < (s.port p).slots → (s.port p).ethernet = false →
     ((s.port p).state = .up → slot % 32 ≠ 0 →
       (∀ e c, (atSlot s p slot).slotEntry p slot = some e → (atSlot s p slot).slotCopy p e = some c →
         ∃ t x, exec (.dataSlot p slot) s = .next t ∧ (t.port p).sentTx.getLast? = some x ∧ x.slot = slot ∧ x.cont = 1 ∧ x.hdr = c.hdr ∧
           x.payload = c.payload ∧ ∀ d ∈ (t.port p).departure, d.order ≠ c.order) ∧
       ((atSlot s p slot).slotEntry p slot = none →
         ∃ t x, exec (.dataSlot p slot) s = .next t ∧ (t.port p).sentTx.getLast? = some x ∧ x.slot = slot ∧ x.cont = 0)) ∧
     ((s.port p).talks = true → slot % 32 = 0 → ∀ r rest, (s.port p).resends = r :: rest →
       ∃ t x, exec (.serviceSlot p slot) s = .next t ∧ (t.port p).sentTx.getLast? = some x ∧ x.slot = slot ∧ x.cont = 3 ∧ x.hdr = r.hdr ∧
         x.payload = r.payload ∧ (t.port p).resends = rest ∧ (t.port p).retries = (s.port p).retries + 1))

/-- R193, R216 to R219, R227, R228:
- a good parcel of an `UP` port goes, with one hop less, into the departure store of every port that its crossbar entry names and that has room; a
container whose check fails is counted and, with retry in effect, answered by a NAK that is sent twice.
- a parcel that fits its buffer's instance is written at its offset, and the last offset of the buffer sets its arrival flag.
- a parcel that no landing entry names faults the device with 0x0522, latched. -/
def Obligations.ParcelsAreForwardedAndLand : Prop :=
  (∀ (s : State) (p round slot i : Nat) (ws : List (List (BitVec 10))) (e : XEntry), portExists s.variant p = true →
     slot < (s.port p).slots → wordsFit slot ws = true →
     let b := (lineContainer slot ws).bytes
     let h := hdrOf (slice b 4 16)
     ((s.port p).state = .up → (s.port p).ethernet = false → (lineContainer slot ws).ok = true → containerOk b → noNak b → containerCont b = 1 →
       h.hver = 1 → (h.cls = 0 ∨ h.cls = 2) → bit (s.port p).permit.toNat h.slice = true → (h.cls = 0 → h.slice = s.fabric.slice) →
       s.fabric.writing = none → (s.version h.epoch).lookup p h.flow = some e → e.transit = decide (h.cls = 2) → 0 < h.hops →
       i < 22 → bit e.dmask.toNat i = true → (s.port i).named = true → (s.port i).departure.length < 1024 →
       ∃ t c, exec (.containerReceive p round slot ws) s = .next t ∧ (t.port i).departure = (s.port i).departure ++ [c] ∧
         c.hdr = { h with hops := h.hops - 1, cls := if e.outclass then 2 else 0 } ∧ c.payload = slice b 20 256) ∧
     ((s.port p).talks = true → (s.port p).retryOn = true → containerCont b ≠ 3 → (lineContainer slot ws).ok = true → ¬containerOk b →
       ∃ t, exec (.containerReceive p round slot ws) s = .next t ∧ (t.port p).crcErr = (s.port p).crcErr + 1 ∧
         (t.port p).naks = (s.port p).naks ++ [{ round, slot, left := 2 }] ∧ (t.port p).naksSent = (s.port p).naksSent + 1) ∧
     ((s.port p).talks = true → (s.port p).retryOn = true → containerCont b ≠ 3 → (lineContainer slot ws).ok = false →
       ∃ t, exec (.containerReceive p round slot ws) s = .next t ∧ (t.port p).crcErr = (s.port p).crcErr ∧
         (t.port p).fecUncorr = (s.port p).fecUncorr + BitVec.ofNat 32 (lineContainer slot ws).failed ∧
         (t.port p).fecCorr = (s.port p).fecCorr + BitVec.ofNat 64 (lineContainer slot ws).corrected ∧
         (t.port p).naks = (s.port p).naks ++ [{ round, slot, left := 2 }])) ∧
  (∀ (s : State) (l : Landing) (rest : List Landing) (n : Nat) (e : LEntry), s.landQueue = l :: rest → s.capture = false →
     let ks := s.nearFrame l.hdr.framelo
     let b := spGet {} s.land n
     s.landBuf l.hdr ks = some (n, e) → l.hdr.offset < e.count → (l.hdr.lastf = true → l.hdr.seq + 1 = e.count) →
     (b.inst = none ∨ (b.inst = some ks ∧ l.hdr.offset ∉ b.landed)) →
     ∃ t, exec .parcelLanding s = .next t ∧ t.landQueue = rest ∧
       spGet {} t.land n = { inst := some ks, landed := l.hdr.offset :: b.landed } ∧
       (∀ i, i < 256 → spGet 0 (if e.attic then (t.core e.lcore).attic else (t.core e.lcore).shelf) (e.base + 256 * l.hdr.offset + i) =
         (slice l.payload 0 256).getD i 0) ∧
       (e.count ≤ b.landed.length + 1 → (t.core e.lcore).arrived e.aflag = true) ∧
       (b.landed.length + 1 < e.count → (t.core e.lcore).aflags = (s.core e.lcore).aflags) ∧
       (t.core e.lcore).sregs = (s.core e.lcore).sregs ∧ t.hatch = s.hatch ∧ t.cellar = s.cellar) ∧
  (∀ (s : State) (l : Landing) (rest : List Landing), s.landQueue = l :: rest → s.capture = false → s.runOn = true → s.alarms.latch = none →
     s.landBuf l.hdr (s.nearFrame l.hdr.framelo) = none →
     ∃ t r, exec .parcelLanding s = .next t ∧ t.dev = .faulted ∧ t.frame.stopped = true ∧ t.alarms.latch = some r ∧
       r.record.reason = 0x0522 ∧ r.record.detail = l.hdr.flow ∧ t.landQueue = rest)

/-- R197, R198, R200, R201, R271:
- a heartbeat is remembered with its round; a trained port without one in four rounds is down: its stores are empty, and no traffic enters it until a
flip names it.
- a training attempt that passes gives the port its width, and discovery, or `UP` in Ethernet mode; one that fails leaves it down; a port that is down
tries again. -/
def Obligations.PortsComeUpAndGoDown : Prop :=
  (∀ (s : State) (p : Nat) (body : List Byte), portExists s.variant p = true → (s.port p).talks = true →
     (∃ t, exec (.heartbeat p body) s = .next t ∧ (t.port p).hbSeen = s.round :: (s.port p).hbSeen ∧
       (le body 0 1 < 3 → (t.port p).peer = le body 0 1 + 1)) ∧
     ((∀ n ∈ (s.port p).hbSeen, n + 4 < s.round) →
       ∃ t, exec (.portDown p) s = .next t ∧ (t.port p).state = .down ∧ (t.port p).downs = (s.port p).downs + 1 ∧
         (t.port p).departure = [] ∧ (t.port p).retry = [] ∧ (t.port p).named = false)) ∧
  (∀ (s : State) (p : Nat) (r : TrainResult), portExists s.variant p = true → (s.port p).enable = true → s.time.refSys = true →
     ∀ i, (i = .portTrain p r ∧ ((s.port p).state = .off ∨ (s.port p).state = .training ∨ (s.port p).state = .down)) ∨
         (i = .trainRetry p r ∧ (s.port p).state = .down) →
       (∀ w hi, r.failStep = 0 → widthOf p r.lanesGood r.partnerWidth = some (w, hi) →
         ∃ t, exec i s = .next t ∧ (t.port p).width = w ∧ (t.port p).halfHi = hi ∧ (t.port p).retrains = (s.port p).retrains + 1 ∧
           (t.port p).state = (if (s.port p).ethernet then .up else .discovery)) ∧
       (r.failStep ≠ 0 ∨ widthOf p r.lanesGood r.partnerWidth = none →
         ∃ t, exec i s = .next t ∧ (t.port p).state = .down ∧ (t.port p).width = 0 ∧ (t.port p).tries = (s.port p).tries + 1))

/-- R196, R204 to R206, R207, R272:
- a partner's identity and the pieces of its proof are kept; a proof that passes makes the port signed, and `UP` where its flight is short enough; one
that fails makes it `QUIET`.
- a loss note asks for the parcel of the record that it names; every flight measurement is kept and is alarmed above the declared bound. -/
def Obligations.DiscoveryAndLossesAreHandled : Prop :=
  (∀ (s : State) (p i : Nat) (body piece : List Byte), portExists s.variant p = true → (s.port p).talks = true →
     (∃ t, exec (.identity p body) s = .next t ∧ (t.port p).peerSerial = BitVec.ofNat 64 (le body 0 8) ∧
       (t.port p).peerIdentity = slice body 0 28 ∧ (t.port p).peerSlice = BitVec.ofNat 8 (le body 12 1)) ∧
     (i < 70 → ∃ t, exec (.idkey p i piece) s = .next t ∧ (i, slice piece 0 28) ∈ (t.port p).keyPieces) ∧
     (i < 119 → ∃ t, exec (.idsig p i piece) s = .next t ∧ (i, slice piece 0 28) ∈ (t.port p).sigPieces) ∧
     (∀ e, s.planEntry p = some e → e.sigReq = true → (s.port p).signed = false →
       (proofOk s p = true → ∃ t, exec (.identProofChecked p) s = .next t ∧ (t.port p).signed = true ∧
         ((t.port p).tooFar = false → (t.port p).state = .up) ∧ ((t.port p).tooFar = true → (t.port p).state = .quiet)) ∧
       (proofOk s p = false → ∃ t, exec (.identProofChecked p) s = .next t ∧ (t.port p).state = .quiet ∧ (t.port p).signed = false))) ∧
  (∀ (s : State) (p round slot cause : Nat), portExists s.variant p = true → (s.port p).talks = true →
     (∀ r, (s.port p).retry.find? (fun r => r.round % 2 ^ 32 == round && r.slot == slot) = some r → (r.cont = 1 ∨ r.cont = 3) →
       exec (.loss p round slot cause) s = .next (requestResend s r.hdr.flow (s.nearFrame r.hdr.framelo) r.hdr.seq 1)) ∧
     (∀ f, (s.port p).measure = some f →
       let s1 := s.setPort p { s.port p with flight := BitVec.ofNat 24 (Nat.min f (2 ^ 24 - 1)) }
       exec (.flightMeasure p) s = .next (if (s1.port p).tooFar = true ∧ (s.port p).state ≠ .discovery then raiseAlarm s1 0x0517 p else s1)))

/-- R209, R210: a request frame for the port is accepted and waits for the ingest area where a timetable with such an area is loaded and there is room; a
frame with a bad check sequence is dropped and counted. -/
def Obligations.EthernetRequestsAreAccepted : Prop :=
  ∀ (s : State) (p : Nat) (frame : List Byte), portExists s.variant p = true → isIngest p = true → (s.port p).ethernet = true →
    (s.port p).state = .up →
    let q := s.port p
    let body := frame.drop 14
    let n := 8 + le body 2 2
    (FrameForPort q frame → ofBe (slice frame 12 2) = q.ethReqType.toNat % 65536 → 8 ≤ body.length → le body 0 1 = 1 → n ≤ body.length →
      s.ttLoaded = true → (s.areaOf 3).isSome = true → s.requestBytes + roundUp n 32 ≤ 1048576 →
      ∃ t, exec (.ethFrameReceive p true frame) s = .next t ∧ t.hatch.requests = s.hatch.requests ++ [slice body 0 n] ∧
        (t.port p).ethAccept = q.ethAccept + 1 ∧ t.hatch.bytes = s.hatch.bytes) ∧
    (∃ t, exec (.ethFrameReceive p false frame) s = .next t ∧ (t.port p).ethDrops = q.ethDrops + 1 ∧ t.hatch = s.hatch)

/-- R391 to R395, R397:
- a sync note on a port that is `UP` is remembered with its arrival; one on the parent port with a valid transmit time that answers this device's own
measures machine time; too long a holdover stops a run.
- the time-receiver counts what it discards, takes the path delay that it measures, adds a new foreign time-transmitter while it knows fewer than
four, and drops the selected one at its timeout; its own requests change no state. -/
def Obligations.TimeMessagesAreMeasured : Prop :=
  (∀ (s : State) (p : Nat) (b : List Byte) (arrival : Nat), portExists s.variant p = true → (s.port p).talks = true → (s.port p).state = .up →
     (∃ t, exec (.sync p b arrival) s = .next t ∧ (t.port p).peerArrival = arrival ∧ (t.port p).peerSseq = BitVec.ofNat 16 (le b 10 2) ∧
       (p = s.time.parent → s.time.root = false → bit (le b 25 1) 0 = true →
         ((s.port p).peerSseq.toNat = 0xFFFF ∨ ((s.port p).peerSseq + 1).toNat = le b 10 2) →
         ((s.port p).peerRxseq.toNat = 0xFFFF ∨ ((s.port p).peerRxseq + 1).toNat = le b 22 2) →
         le b 22 2 ≠ 0xFFFF → le b 22 2 = ((s.port p).ssent - 1).toNat →
         t.time.syncRx = s.time.syncRx + 1 ∧ t.time.depth = (if le b 24 1 < 0xFF then le b 24 1 + 1 else 0xFF) ∧
         t.time.lastTheta = (((arrival : Int) - (le b 0 8 * 65536 + le b 8 2 : Nat)) - ((le b 12 8 * 65536 + le b 20 2 : Nat) - (s.port p).sTxTime)
           - (((s.port p).peerPhyTx.toNat : Int) + (s.port p).phyRx.toNat - (s.port p).phyTx.toNat - (s.port p).peerPhyRx.toNat
              - (s.port p).cableAsym.toInt)) / 2)) ∧
     (s.time.mtState = .holdover → s.runOn = true → ∃ t, exec .holdoverExpiry s = .next t ∧ t.dev = .held ∧ t.frame.stopped = true)) ∧
  (∀ (s : State) (p g prio off : Nat) (ok : Bool) (d : Int), portExists s.variant p = true →
     (s.ptpOn p = true →
       (exec (.ptpMessage p .other) s = .next { s with time := { s.time with ptpDiscards := s.time.ptpDiscards + 1 } }) ∧
       (exec (.ptpMessage p (.delayResp d)) s = .next { s with time := { s.time with ptpDelay := d } }) ∧
       ((∀ m ∈ s.time.masters, m.1 ≠ g) → s.time.masters.length < 4 →
         ∃ t, exec (.ptpMessage p (.announce g prio off ok)) s = .next t ∧ t.time.masters = s.time.masters ++ [(g, prio, off, ok)] ∧
           t.time.master.isSome = true)) ∧
     (s.time.master = some g → ∃ t, exec .ptpAnnounceTimeout s = .next t ∧ t.time.master ≠ some g ∧ (∀ m ∈ t.time.masters, m.1 ≠ g)) ∧
     exec .delayReq s = .next s)

/-- R388 to R390, R395, R396, R398, R399:
- an edge on PPS_IN is stamped with local time and counted; a `TIME_SET_UTC` that waits for an edge is refused with 0x0B06 when none comes; PPS_OUT
rises and falls in turn.
- the loss of REFCLK_TIME puts a locked machine time into holdover, that of REFCLK_SYS takes every trained Dexdin port down, and a restored clock is
marked so; `REACQUIRE` leaves the time state free for a new start, and locks a root at once, unless a timetable is loaded; a read of `MT_NS` latches
the fraction; an error bound above the crate's is alarmed. -/
def Obligations.EdgesAndReferenceClocksAct : Prop :=
  (∀ (s : State),
     (s.time.ppsInEn = true → s.time.ppsWait = none → s.time.ppsInDisc = false →
       exec .ppsInEdge s = .next { s with time := { s.time with
         ppsInTs := BitVec.ofNat 64 (wrap 64 s.localTime), ppsInCount := s.time.ppsInCount + 1 } }) ∧
     (∀ utc off seq, s.time.ppsWait = some (utc, off, seq) → s.cmd.en = true → s.cmd.queue.length < 1024 →
       ∃ t, exec .ppsMissing s = .next t ∧ t.time.ppsWait = none ∧
         t.cmd.queue = s.cmd.queue ++ [{ seq := seq, status := 0x200, reason := 0x0B06, results := [] }]) ∧
     (s.time.ppsOutEn = true → ∃ t, exec .ppsOutEdge s = .next t ∧ t.pins.ppsOut = !s.pins.ppsOut) ∧
     (s.time.ppsOutEn = false → ∃ t, exec .ppsOutEdge s = .next t ∧ t.pins.ppsOut = false)) ∧
  (∀ (s : State),
     (s.time.refTime = true → s.time.mtState = .locked → ∃ t, exec (.refclkLoss .time) s = .next t ∧ t.time.refTime = false ∧
       t.time.mtState = .holdover ∧ t.time.holdovers = s.time.holdovers + (if s.time.ltState = .locked then 2 else 1)) ∧
     (s.time.refSys = true → ∃ t, exec (.refclkLoss .sys) s = .next t ∧ t.time.refSys = false ∧
       ∀ p ∈ s.portList, (s.port p).talks = true → (t.port p).state = .down) ∧
     exec (.refclkRestore .time) s = .next { s with time := { s.time with refTime := true } } ∧
     exec (.refclkRestore .sys) s = .next { s with time := { s.time with refSys := true } } ∧
     (s.ttLoaded = false → s.dev ≠ .off → s.dev ≠ .boot → ∃ t, exec .reacquire s = .next t ∧
       t.time.mtState = (if s.time.root then .locked else .acquire)) ∧
     (s.ttLoaded = true → exec .reacquire s = .next s) ∧
     exec .mtNsRead s = .next { s with time := { s.time with mtFracLatch := s.time.mtFrac } } ∧
     (∀ c, s.mgmt.crate = some c → s.ttLoaded = true → c.timeErr < s.errNow →
       ∃ t, exec .timeErrExceeded s = .next t ∧ t.time.errBound = s.errNow ∧ t.alarms.raised = s.alarms.raised + 1))

/-- R155, R158, R159 to R164, R170, R171, R340:
- the entries of a controller program act in their cycles: `ACT` and `BACT` open a row, `PRE` closes it, `RD` sends the sector of the open row to the
corrector, `WR` and `GAP` only take their time, `REPEAT` executes the entries before it again, and the program ends.
- a sector that was read leaves the corrector, and an uncorrectable one is counted; the pinned refresh and the scrub window of a controller happen
once each at their cycles; a halted controller refreshes a bank whose age has come. -/
def Obligations.ControllersAct : Prop :=
  (∀ (s : State) (k delta bank row col tag n m ci ri : Nat), k < 160 * mioCount s.variant → s.cycling = true → (s.ctl k).ended = false →
     let x := s.ctl k
     let at_ := x.cycle + delta
     let log := fun (e : CtlEntry) (y : Ctl) => Host.Outcome.next (φ := Fault) (ρ := Refusal) (s.setCtl k { y with entries := y.entries ++ [e] })
     (at_ < s.heldFrom →
       exec (.act k delta bank row) s = log { kind := 1, delta := delta, bank := bank, row := row }
         { x with cycle := at_, openRow := spSet 0 x.openRow bank (row + 1) } ∧
       exec (.pre k delta bank) s = log { kind := 2, delta := delta, bank := bank } { x with cycle := at_, openRow := spSet 0 x.openRow bank 0 } ∧
       exec (.rd k delta bank row col tag) s = log { kind := 3, delta := delta, bank := bank, row := row, col := col, tag := tag }
         { x with cycle := at_, returns := x.returns ++ [(at_,
           (if spGet 0 x.openRow bank = 0 then row else spGet 0 x.openRow bank - 1) * 1024 + bank * 32 + col)] } ∧
       exec (.wr k delta bank row col tag) s = log { kind := 4, delta := delta, bank := bank, row := row, col := col, tag := tag }
         { x with cycle := at_ } ∧
       exec (.bact k delta bank tag) s = log { kind := 7, delta := delta, bank := bank, tag := tag }
         { x with cycle := at_, openRow := spSet 0 x.openRow bank ((x.requests.getD tag (0, 0)).2 + 1) } ∧
       exec (.gap k delta) s = log { kind := 6, delta := delta } { x with cycle := at_ }) ∧
     (x.cycle < s.heldFrom → ∃ t, exec (.repeat k n m ci ri) s = .next t ∧
       (t.ctl k).cycle = x.cycle + m * ((x.entries.drop (x.entries.length - n)).map (·.delta)).sum ∧
       (t.ctl k).entries.length = x.entries.length + 1) ∧
     exec (.progEnd k) s = .next (s.setCtl k { x with ended := true })) ∧
  (∀ (s : State) (k bank : Nat), k < 160 * mioCount s.variant →
     let x := s.ctl k
     (s.cycling = true →
       (∀ ts a rest, x.returns = (ts, a) :: rest → ts + 76 < s.heldFrom → ∃ t, exec (.sectorReturn k) s = .next t ∧ (t.ctl k).returns = rest ∧
         t.cellar.ueCount = s.cellar.ueCount + (if sectorClass (spGet 0 s.cellar.errors (k * 25165824 + a)) = 2 then 1 else 0) ∧ t.cellar.bytes = s.cellar.bytes) ∧
       (48 * x.refreshN + 3 * (k % 160) % 48 < s.frame.e → 48 * x.refreshN + 3 * (k % 160) % 48 < s.heldFrom →
         exec (.pinnedRefresh k) s = .next (s.setCtl k { x with
           refreshN := x.refreshN + 1
           lastRefresh := spSet 0 x.lastRefresh (x.refreshN % 32) (s.cycleTime (48 * x.refreshN + 3 * (k % 160) % 48)) })) ∧
       (2064 * x.scrubN + 3 * (k % 160) % 48 + 187 < s.frame.e → 2064 * x.scrubN + 3 * (k % 160) % 48 + 187 < s.heldFrom →
         ∃ t, exec (.scrubWindow k) s = .next t ∧ (t.ctl k).scrubN = x.scrubN + 1 ∧ (t.ctl k).windowsDone = x.windowsDone + 1 ∧
           spGet 0 (t.ctl k).scrubRow ((11 * x.scrubN + 16) % 32) = (spGet 0 x.scrubRow ((11 * x.scrubN + 16) % 32) + 1) % 24576 ∧
           t.cellar.bytes = s.cellar.bytes)) ∧
     (bank < 32 → s.programsHalted = true → s.dev ≠ .off → s.dev ≠ .boot → s.nextCycle0 = none →
       ∃ t, exec (.retentionRefresh k bank) s = .next t ∧
         spGet 0 (t.ctl k).lastRefresh bank = Nat.max s.now (spGet 0 x.lastRefresh bank + s.cellar.ageNs) ∧
         t.cellar.retRefreshes = s.cellar.retRefreshes + 1))

/-- R176, R177, R179, R180:
- with no timetable loaded a host write to the Hatch is written at once, and a host read gets the bytes; with one loaded and a run on, a write to an
input area waits in the journal for the next tick; every other byte of the Hatch stays.
- the cellar window writes and reads a line where it is open and the line lies outside the ring, and a request that it denies is counted, alarmed, and
reads as all ones. -/
def Obligations.HostWindowsAct : Prop :=
  (∀ (s : State) (off len : Nat) (data : List Byte), s.ideWaits = false → s.dev ≠ .off → s.dev ≠ .boot →
     (data ≠ [] → off + data.length ≤ 0x4000000 →
       (s.mgmt.loadedImage = none → ∃ t, exec (.hostHatchWrite off data) s = .next t ∧
         (∀ i, i < data.length → spGet 0 t.hatch.bytes (off + i) = data.getD i 0) ∧
         (∀ a, a < off ∨ off + data.length ≤ a → spGet 0 t.hatch.bytes a = spGet 0 s.hatch.bytes a) ∧ t.cellar = s.cellar) ∧
       (∀ a, s.mgmt.loadedImage.isSome = true → s.hatchArea off = some a → (a.kind = 0 ∨ a.kind = 3) → s.inv.replay = none → s.inRun = true →
         s.hatch.withheld = [] → s.hatch.journalBytes + data.length ≤ 1048576 →
         ∃ t, exec (.hostHatchWrite off data) s = .next t ∧ t.hatch.journal = s.hatch.journal ++ [(off, data)] ∧ t.hatch.bytes = s.hatch.bytes)) ∧
     (off + len ≤ 0x4000000 → s.mgmt.loadedImage = none →
       exec (.hostHatchRead off len) s = .next { s with hatch := { s.hatch with
         lastRead := some ((List.range len).map (fun i => spGet 0 s.hatch.bytes (off + i))) } })) ∧
  (∀ (s : State) (off : Nat) (data : List Byte), s.ideWaits = false →
     let l := off / 64 * 64
     (s.lineAllowed l true = true → exec (.cellarWindowWrite off data) s = .next (s.cellarWrite l (slice data 0 64))) ∧
     (s.lineAllowed l true = false → ∃ t, exec (.cellarWindowWrite off data) s = .next t ∧ t.cellar.winDenied = s.cellar.winDenied + 1 ∧
       t.cellar.bytes = s.cellar.bytes ∧ t.alarms.raised = s.alarms.raised + 1) ∧
     (s.lineAllowed l false = true → s.firstBad l 64 = none → ∃ t, exec (.cellarWindowRead off) s = .next t ∧
       t.cellar.lastRead = some (s.cellarRead l 64) ∧ t.cellar.bytes = s.cellar.bytes) ∧
     (s.lineAllowed l false = false → ∃ t, exec (.cellarWindowRead off) s = .next t ∧
       t.cellar.lastRead = some (List.replicate 64 0xFF) ∧ t.cellar.winDenied = s.cellar.winDenied + 1))

/-- R357, R373, R401, R417, R419, R420, R469: the commands that report are answered `OK` with what they report; what is long goes to host memory. Nothing
else changes. -/
def Obligations.ReportingCommandsAnswer : Prop :=
  ∀ (s s1 : State) (k : Packet),
    (Passes s cPing k s1 → ∃ t, exec (.ping k) s = .next t ∧ windowOnly s t ∧ Replies s t k 0 0 (resAt 24 (k.bytes 16 16))) ∧
    (Passes s cIdentify k s1 → ∃ t, exec (.identify k) s = .next t ∧ windowOnly s t ∧ Replies s t k 0 0 (resAt 24 s.identity)) ∧
    (Passes s cTimeStatus k s1 → ∃ t, exec (.timeStatus k) s = .next t ∧ windowOnly s t ∧
      Replies s t k 0 0 (resAt 24 (leBytes 4 s.timeStatusReg ++ leBytes 4 s.errNow ++ leBytes 8 s.now
        ++ leBytes 8 (if s.ltValid then wrap 64 s.localTime else 0) ++ leBytes 4 s.time.utcOffset ++ leBytes 4 (wrap 32 (s.time.lastTheta / 256))
        ++ leBytes 4 s.time.holdovers.toNat ++ leBytes 4 s.time.jumpsRefused.toNat))) ∧
    (Passes s cGetSettings k s1 → k.par 28 1 ≤ 1 →
      ∀ c, (if k.par 28 1 = 1 then s.settings.staged else if s.settings.defaults then some {} else some s.settingsInForce) = some c →
        c.bytes.length ≤ k.par 24 4 → ∃ t, exec (.getSettings k) s = .next t ∧ hostOnly s t ∧
          t.hostOut = s.hostOut ++ [(k.par 16 8, c.bytes)] ∧ Replies s t k 0 0 (resAt 24 (leBytes 4 c.bytes.length ++ c.results))) ∧
    (Passes s cReadInventory k s1 → k.par 16 8 % 64 = 0 → k.par 24 4 % 64 = 0 → 64 ≤ k.par 24 4 → k.par 24 4 ≤ 2 ^ 24 →
      k.par 32 8 ≤ s.inv.nextSeq.toNat →
      let i := s.inv.free (k.par 32 8)
      let out := fitRecords (k.par 24 4) (i.held.filter (fun r => decide (Nat.max (k.par 32 8) i.oldest ≤ r.seqno)))
      ∃ t, exec (.readInventory k) s = .next t ∧ hostOnly s t ∧
        t.hostOut = s.hostOut ++ (if out.isEmpty then [] else [(k.par 16 8, out.flatMap InvRec.bytes)]) ∧
        Replies s t k 0 0 (resAt 24 (leBytes 8 (Nat.max (k.par 32 8) i.oldest) ++ leBytes 4 out.length ++ leBytes 4 (setBytes out)
          ++ leBytes 8 s.inv.nextSeq.toNat ++ s.chainVal ++ leBytes 8 i.oldest))) ∧
    (Passes s cGetCertificate k s1 →
      (∀ c, k.par 24 1 = 0 → s.inv.cert = some c → ∃ t d, exec (.getCertificate k) s = .next t ∧ hostOnly s t ∧ t.inv.cert = some d ∧
        d.body = c.body ∧ d.ckind = c.ckind ∧ d.signature.isSome = true ∧ t.hostOut = s.hostOut ++ [(k.par 16 8, d.bytes)] ∧
        Replies s t k 0 0 (resAt 24 (hashH d.bytes ++ leBytes 1 d.ckind))) ∧
      (k.par 24 1 = 1 → s.dev = .running ∨ s.dev = .held ∨ s.dev = .replay → ∃ t d, exec (.getCertificate k) s = .next t ∧ hostOnly s t ∧
        t.inv.interim = some d ∧ d.body = s.certBody (s.ckindOf 1) ∧ t.hostOut = s.hostOut ++ [(k.par 16 8, d.bytes)])) ∧
    (Passes s cAttest k s1 → 4189 ≤ k.par 56 4 →
      ∃ t sig, exec (.attest k) s = .next t ∧ hostOnly s t ∧ sig.length = 3309 ∧
        t.hostOut = s.hostOut ++ [(k.par 48 8, s.report (k.bytes 16 32) ++ sig)])

/-- R334: `STREAM_STATUS` takes the entry number in bytes 16 to 19, and answers `OK` with the entry's bytes 0 to 103 as result bytes 24 to 127. -/
def Obligations.StreamStatusGivesTheEntry : Prop :=
  ∀ (s s1 : State) (k : Packet), Passes s cStreamStatus k s1 → s.cmd.en = true → s.cmd.queue.length < 1024 →
    ∀ n, n = ofLe (slice (k.params.take k.plen) 0 4) → n < 16384 →
    ∃ t r, exec (.streamStatus k) s = .next t ∧ t.cmd.queue = s.cmd.queue ++ [r] ∧ r.seq = k.seq ∧ r.status = 0 ∧ r.reason = 0 ∧
      r.results.map (·.1) = (List.range 104).map (24 + ·) ∧ r.results.map (·.2) = slice (s.stream n).bytes 0 104

/-- R286, R386, R398, R452, R471 to R473: `NEGOTIATE` sets the FPC level, `SET_MODE` applies a mode before a run and stages it otherwise, `TIME_SET_UTC`
sets local time and UTC or waits for an edge, `STAGE_SETTINGS` stages an image that is well formed and signed, and `DEBUG_UNLOCK` gives a challenge
and opens the debug logic for a good response; a challenge lapses. The challenge's bytes are free values (log entry 1). -/
def Obligations.SettingCommandsTakeEffect : Prop :=
  ∀ (s s1 : State) (k : Packet),
    (Passes s cNegotiate k s1 → k.par 16 1 % 4 ≠ 0 →
      let l := if bit (k.par 16 1) 1 then 2 else 1
      ∃ t, exec (.negotiate k) s = .next t ∧ Replies s t k 0 0 (resAt 24 (leBytes 1 l)) ∧
        windowOnly { s with mgmt := { s.mgmt with fpc := l } } t) ∧
    (Passes s cSetMode k s1 → k.par 16 1 ≤ 2 → (∀ i, s.mgmt.loadedImage = some i → ceilKhz (modeOf (k.par 16 1)) ≤ ceilKhz i.mode) →
      ∃ t, exec (.setMode k) s = .next t ∧
        ((s.dev = .idle ∨ (s.dev = .loaded ∧ s.frame.ranOnce = false)) →
          t.clock.mode = modeOf (k.par 16 1) ∧ t.clock.staged = none ∧ Replies s t k 0 0 []) ∧
        (¬(s.dev = .idle ∨ (s.dev = .loaded ∧ s.frame.ranOnce = false)) →
          t.clock.mode = s.clock.mode ∧ t.clock.staged = some (modeOf (k.par 16 1)) ∧ Replies s t k 1 0 [])) ∧
    (Passes s cTimeSetUtc k s1 → s.time.ptpEn = false → s.time.ppsWait = none →
      (bit (k.par 26 1) 0 = true → k.par 16 8 % 1000000000 = 0 →
        ∃ t, exec (.timeSetUtc k) s = .next t ∧ t.time.ppsWait = some (k.par 16 8, k.par 24 2, k.seq) ∧ t.cmd.queue = s.cmd.queue) ∧
      (bit (k.par 26 1) 0 = false → s.inRun = false →
        (s.ltValid = false ∨ s.ttLoaded = false ∨
          (s.localTime - ((k.par 16 8 : Int) + (k.par 24 2 * 1000000000 : Nat))).natAbs ≤ s.time.jumpNs) →
        ∃ t, exec (.timeSetUtc k) s = .next t ∧ t.time.utcOffset = k.par 24 2 ∧ t.time.utcOffsetValid = true ∧ Replies s t k 0 0 [] ∧
          ((s.ltValid = false ∨ s.ttLoaded = false) → t.time.ltState = .locked))) ∧
    (Passes s cStageSettings k s1 → k.par 24 4 ≤ 262144 → s.inRun = false →
      ∀ c, readImage s (slice k.pulled 0 (k.par 24 4)) = .ok c → (s.signRequired = true → c.signedBy s.settings.keys = true) →
        ∃ t, exec (.stageSettings k) s = .next t ∧ t.settings = { s.settings with staged := some c } ∧
          Replies s t k 0 0 (resAt 24 (slice c.digest 0 64))) ∧
    (Passes s cDebugUnlock (k.withByte 16 0) s1 →
      ∃ t c, exec (.debugUnlockChallenge k) s = .next t ∧ c.length = 32 ∧ t.sec = { s.sec with challenge := some c, challengeAt := s.now } ∧
        Replies s t k 0 0 (resAt 24 c)) ∧
    (let kk := k.withByte 16 1
     Passes s cDebugUnlock kk s1 → kk.pblk = true → kk.plen = 5309 → unlockGood s kk = true →
      Config.mldsaVerify (kk.bytes 64 1952) (ascii "D1-DEBUG") (kk.bytes 16 48) (kk.bytes 2016 3309) = true → s.sec.unlockFuses < 64 →
      ∃ t, exec (.debugUnlockResponse k) s = .next t ∧ t.sec.challenge = none ∧
        (Config.freeBool s.freeCtr = false → t.sec.unlocked = true ∧ t.sec.unlockFuses = s.sec.unlockFuses + 1 ∧ Replies s t k 0 0 [])) ∧
    (s.sec.challenge.isSome = true → ∃ t, exec .challengeLapse s = .next t ∧ t.sec = { s.sec with challenge := none })

/-- R302, R316, R324, R325, R365, R366, R367, R416, R419, R452, R461, R462:
- a long command that passes its checks is answered `ACCEPTED` and is outstanding until it ends; `CHECKPOINT` writes its image at once and holds
parcels back.
- LONG_COMMAND_DONE gives the long command in progress its effect and its final reply: a `LOAD_TIMETABLE` that nothing forbids leaves the device
`LOADED` with its image, a commit puts the staged settings in force, an activation marks the staged firmware, and a `CHECKPOINT` lets parcels land
again. -/
def Obligations.LongCommandsRun : Prop :=
  (∀ (s s1 : State) (k : Packet),
     (∀ row ∈ longRows s k, Passes s row.2.1 k s1 → row.2.2 →
       ∃ t, exec row.1 s = .next t ∧ windowOnly s t ∧ Outstands s t row.2.1 k ∧ Replies s t k 1 0 []) ∧
     (Passes s cCommitSettings k s1 →
       ∀ c, s.settings.staged = some c → (∀ v, c.entry 0x12 = some v → le v 0 1 ≤ 3) →
         (∀ v, c.entry 0x11 = some v → le v 0 1 = 1 → s.zoningFits (zoningOf v) = true) →
         ∃ t, exec (.commitSettings k) s = .next t ∧ t.settings = { s.settings with writing := true } ∧ Outstands s t cCommitSettings k ∧
           Replies s t k 1 0 []) ∧
     (Passes s cFirmwareStage k s1 → k.par 24 8 ≤ 4190208 → s.sec.pldmUpdate = false →
       ∃ t, exec (.firmwareStage k) s = .next t ∧ t.sec.other.activated = false ∧ t.sec.running = s.sec.running ∧
         Outstands s t cFirmwareStage k ∧ Replies s t k 1 0 []) ∧
     (s.sec.pldmUpdate = false → s.sec.fwStaged = true →
       (Passes s cFirmwareActivate (k.withByte 16 0) s1 → ∃ t, exec (.firmwareActivateMark k) s = .next t ∧ windowOnly s t ∧
         Outstands s t cFirmwareActivate (k.withByte 16 0) ∧ Replies s t k 1 0 []) ∧
       (Passes s cFirmwareActivate (k.withByte 16 1) s1 → ∃ t, exec (.firmwareActivateNow k) s = .next t ∧ windowOnly s t ∧
         Outstands s t cFirmwareActivate (k.withByte 16 1) ∧ Replies s t k 1 0 [])) ∧
     (Passes s cCheckpoint k s1 → ∀ c i, s.mgmt.crate = some c → s.mgmt.loadedImage = some i → ¬(s.dev = .held ∧ s.frame.stopped = true) →
       k.par 16 8 % 4096 = 0 → k.par 32 1 ≤ 1 → (s1.ckImage c i (k.par 32 1)).length ≤ k.par 24 8 →
       ∃ t, exec (.checkpoint k) s = .next t ∧ t.capture = true ∧ t.hostOut = s.hostOut ++ [(k.par 16 8, s1.ckImage c i (k.par 32 1))] ∧
         (∃ o ∈ t.cmd.out, o.opcode = 0x35 ∧ o.packet = k) ∧ Replies s t k 1 0 [])) ∧
  (∀ (s : State) (o : Outstanding), s.cmd.out.find? (·.long) = some o →
     (∀ m st r res, longFinal o s = some (m, st, r, res) → ¬(o.opcode = 0xA1 ∧ o.packet.par 16 1 = 1) →
       exec .longCommandDone s = .next (finishCommand m o.opcode st r res)) ∧
     (o.opcode = 0x23 → ∀ c p v i, s.toLoad = some (c, p, v, i) → loadFault s c i = none →
       ∃ t, exec .longCommandDone s = .next t ∧ t.dev = .loaded ∧ t.mgmt.loadedImage = some i ∧ t.fabric.frameIndex = 0 ∧
         t.hatch.areas = i.areas ∧ t.fabric.active = false) ∧
     (o.opcode = 0x35 → ∃ t, exec .longCommandDone s = .next t ∧ t.capture = false) ∧
     (o.opcode = 0xA1 → o.packet.par 16 1 ≠ 1 → ∃ t, exec .longCommandDone s = .next t ∧ t.sec.actPending = true ∧ t.sec.other.activated = true) ∧
     (o.opcode = 0x13 → s.settings.deviceDue = 0 → s.settings.staged.isSome = true →
       ∃ t, exec .longCommandDone s = .next t ∧ (Config.freeBool s.freeCtr = false → t.settings.staged = none)))

/-- R368, R373, R421, R422, R497: `START` waits for its tick with the counters of the run cleared; `HOLD`, `RUN_TO_FRAME` and `RESUME` are accepted and
set the pause or the tick; `ABORT` ends the run after its frame, or at once where no frame is executed, and unloads the job where asked. -/
def Obligations.RunControlCommandsAct : Prop :=
  ∀ (s s1 : State) (k : Packet),
    (Passes s cStart k s1 → s.tickOk (k.par 16 8) = true → s.time.mtState = .locked → s.inv.replayNext = false → s.inv.replay = none →
      ∃ t, exec (.start k) s = .next t ∧ t.dev = .running ∧ t.frame.nextTick = k.par 16 8 ∧ t.frame.waitStart = true ∧ t.frame.stopped = false ∧
        t.frameIndex = s.startFrame ∧ t.alarms.latch = none ∧ t.fabric.freezes = 0 ∧ t.stats.faults = 0) ∧
    (Passes s cHold k s1 →
      let f := if k.par 16 8 = ones64 then s.frameIndex else k.par 16 8
      s.frameIndex ≤ f → ∃ t, exec (.hold k) s = .next t ∧ (t.frame.pauseAt = some f ∨ t.frame.stopped = true) ∧
        (f ≠ s.frameIndex ∨ s.frame.completedAt = none → t.frame.pauseAt = some f ∧ Replies s t k 1 0 [])) ∧
    (Passes s cRunToFrame k s1 → s.frameIndex ≤ k.par 16 8 →
      ∃ t, exec (.runToFrame k) s = .next t ∧ (t.frame.runTo = some (k.par 16 8) ∨ t.frame.stopped = true) ∧
        (k.par 16 8 ≠ s.frameIndex ∨ s.frame.completedAt = none → t.frame.runTo = some (k.par 16 8) ∧ Replies s t k 1 0 [])) ∧
    (Passes s cResume k s1 → s.tickOk (k.par 16 8) = true → s.time.mtState = .locked →
      ∃ t, exec (.resume k) s = .next t ∧ t.frame.ownReady = some (k.par 16 8) ∧ Replies s t k 1 0 []) ∧
    (Passes s cAbort k s1 →
      (s.dev = .running → ∃ t, exec (.abort k) s = .next t ∧ t.frame.abortAt = some s.frameIndex ∧
        t.frame.abortUnload = bit (k.par 16 1) 0 ∧ Replies s t k 1 0 []) ∧
      (s.dev = .held → bit (k.par 16 1) 0 = false → ∃ t, exec (.abort k) s = .next t ∧ t.dev = .loaded ∧ t.frame.stopped = false) ∧
      (bit (k.par 16 1) 0 = true → s.dev = .held ∨ s.dev = .loaded ∨ s.dev = .faulted →
        ∃ t, exec (.abort k) s = .next t ∧ t.dev = .idle ∧ t.mgmt.loadedImage = none ∧ t.mgmt.placed = none)) ∧
    (Passes s cAdmit k s1 → s.runsStreams = true → admitOk s k = true → ∀ f, s.takenFrame (k.par 24 8) = some f →
      (s.stream (k.par 16 4)).state = .free → (∀ e ∈ s.streams.entries, e.2.state = .free ∨ e.2.sid ≠ k.par 20 4) →
      ∃ t, exec (.admitStream k) s = .next t ∧ t.stream (k.par 16 4) = Packet.toStream k f ∧ (∀ m, m ≠ k.par 16 4 → t.stream m = s.stream m) ∧
        Replies s t k 1 0 []) ∧
    (Passes s cRetire k s1 → s.runsStreams = true → k.par 16 4 < 16384 → ∀ f, s.takenFrame (k.par 24 8) = some f →
      ((s.stream (k.par 16 4)).state = .done → ∃ t, exec (.retireStream k) s = .next t ∧ t.stream (k.par 16 4) = {} ∧
        Replies s t k 0x105 0 (resAt 24 (leBytes 8 (s.stream (k.par 16 4)).endFrame))) ∧
      ((s.stream (k.par 16 4)).state ≠ .done → (s.stream (k.par 16 4)).state ≠ .free → ∃ t, exec (.retireStream k) s = .next t ∧
        t.stream (k.par 16 4) = { s.stream (k.par 16 4) with retireAt := some f } ∧ Replies s t k 1 0 []))

/-- R203, R424 to R428, R433: the fabric owner's commands take effect: `SET_SLICE` gives the slice and restarts the note sequences, `LOAD_TRANSIT` waits
for the next round, `PORT_CONTROL` disables, enables and retrains a port, `DISCOVER` loads the wiring plan; `RESET` begins a system reset after its
reply, or a core reset at once. -/
def Obligations.OwnerCommandsAndResetAct : Prop :=
  ∀ (s s1 : State) (k : Packet),
    (Passes s cSetSlice k s1 → 4080 ≤ k.plen → (bits (k.par 36 4) 4 0 = 31 ∨ portExists s.variant (bits (k.par 36 4) 4 0) = true) →
      (k.par 16 1 = 0 ∨ (sliceRanges s k = true ∧ sliceShapeOk s k = true)) →
      ∃ t, exec (.setSlice k) s = .next t ∧ t.fabric.slice = k.par 16 1 ∧ t.noteSeqs = [] ∧ t.noteSrcs = [] ∧
        t.time.parent = bits (k.par 36 4) 4 0 ∧ t.time.root = bit (k.par 36 4) 8 ∧
        (k.par 16 1 ≠ 0 → t.fabric.sizeX = k.par 21 1 ∧ t.fabric.sizeY = k.par 22 1 ∧ t.fabric.sizeZ = k.par 23 1 ∧ t.fabric.x0 = k.par 18 1 ∧
          t.fabric.y0 = k.par 19 1 ∧ t.fabric.z0 = k.par 20 1 ∧ t.fabric.holdLead = k.par 27 1 ∧ t.fabric.flowBase = k.par 28 4 ∧
          t.fabric.flowCount = k.par 32 4)) ∧
    (Passes s cLoadTransit k s1 →
      let counts := (List.range 22).map (fun p => k.par (24 + 4 * p) 4)
      ∀ tx xb, k.par 16 1 = 1 → k.par 17 1 ≤ 1 → k.plen = 800 + 8 * (counts.sum + k.par 20 4) + 3344 →
        allSome (transitTx k counts 0 816) = some tx →
        allSome ((List.range (k.par 20 4)).map (fun i => decodeX (k.par (816 + 8 * (counts.sum + i)) 8))) = some xb →
        transitReason s (k.par 17 1 == 1) tx xb = 0 →
        ∃ t, exec (.loadTransit k) s = .next t ∧ t.transit = some (k.par 17 1 == 1, tx, xb) ∧ t.verA = s.verA ∧ t.verB = s.verB ∧
          Replies s t k 0 0 []) ∧
    (Passes s cDiscover k s1 → k.par 16 1 = 1 → k.par 17 1 ≤ 22 → k.plen = 32 + 64 * k.par 17 1 + 3344 → (planOf k).serial = s.serial.toNat →
      (planOf k).ok = true → (planOf k).x % 2 = s.boardPos.toNat % 2 → (planOf k).y % 2 = s.boardPos.toNat / 2 →
      ∃ t, exec (.discover k) s = .next t ∧ t.plan = some (planOf k) ∧ Replies s t k 0 0 []) ∧
    (let p := k.par 16 1
     let uses := s.runOn && s.epochUses p
     portExists s.variant p = true → 3 ≤ k.plen →
      (Passes s cPortControl (k.withByte 17 0) s1 → (uses = false ∨ bit (k.par 18 1) 0 = true) →
        ∃ t, exec (.portDisable k) s = .next t ∧ Replies s t k 0 0 [] ∧ (s.runOn = true → (t.port p).disableAtTick = true) ∧
          (s.runOn = false → (t.port p).state = .disabled ∧ (t.port p).departure = [])) ∧
      (Passes s cPortControl (k.withByte 17 1) s1 →
        ∃ t, exec (.portEnable k) s = .next t ∧ Replies s t k 0 0 [] ∧ (t.port p).disableAtTick = false ∧
          ((s.port p).state = .disabled → (t.port p).state = .training ∧ (t.port p).enable = true)) ∧
      (Passes s cPortControl (k.withByte 17 2) s1 →
        (uses = false → ∃ t, exec (.portRetrain k) s = .next t ∧ Replies s t k 0 0 [] ∧ (t.port p).state = .training) ∧
        (uses = true → bit (k.par 18 1) 0 = true → ∃ t, exec (.portRetrain k) s = .next t ∧ (t.port p).state = .down))) ∧
    (Passes s cReset (k.withByte 16 1) s1 → k.seq ≠ 0 →
      (s.cmd.en = true → s.cmd.queue.length < 1024 → ∃ t, exec (.resetSystem k) s = .next t ∧ t.dev = s.dev ∧
        t.resets.pendingReset = some (7, s.cmd.queue.length + 1) ∧ Replies s t k 0 0 []) ∧
      (s.cmd.en = false → s.resets.level = none → ∃ t, exec (.resetSystem k) s = .next t ∧ t.dev = .boot ∧ bit t.resets.cause.toNat 7 = true)) ∧
    (Passes s cReset (k.withByte 16 2) s1 → k.seq ≠ 0 → s.resets.level = none →
      ∃ t, exec (.resetCore k) s = .next t ∧ t.cores = [] ∧ t.contexts = [] ∧ t.cmd.suspended = true ∧ t.mgmt.loadedImage = none ∧
        bit t.resets.cause.toNat 8 = true ∧ t.hatch.bytes = s.hatch.bytes ∧ t.cellar.bytes = s.cellar.bytes)

/-- R409, R411 to R413: outside a run an intake takes the command of the next slot whose `SEQ` is the next, and ends at another; a queued reply is written
to its slot, the second half first, and the counter and the interrupt follow. -/
def Obligations.CommandsAreTakenInAndAnswered : Prop :=
  ∀ (s : State) (q : RingSlot) (rest : List RingSlot) (r : Reply) (more : List Reply),
    (s.intakeOpen = true → s.inRun = false → s.cmd.unread + 32 ≤ s.cmd.slots → s.cmd.foMsgs = [] →
      let s0 := s.advanceTo (s.now + s.cmd.intakePeriod)
      let s1 := { s0 with cmd := { s.cmd with rplFull := false, intakes := s.cmd.intakes + 1 } }
      (q.packet.seq ≠ s.cmd.nextSeq.toNat → exec (.intake (q :: rest)) s = .next s1) ∧
      (q.packet.seq = s.cmd.nextSeq.toNat → exec (.intake [q]) s = .next (takeCommand q.opcode (cmdOf q.opcode) .ring q.packet
        { s1 with cmd := { s1.cmd with nextSeq := nextSeqOf s.cmd.nextSeq } }))) ∧
    (s.cmd.queue = r :: more → s.cmd.replySpace = true → s.ideWaits = false → s.resets.pendingReset = none →
      let a := s.cmd.rplBase.toNat + 128 * (s.cmd.rplWritten.toNat % s.cmd.slots)
      ∃ t b, exec .replyWrite s = .next t ∧ t.cmd.queue = more ∧ t.cmd.rplWritten = s.cmd.rplWritten + 1 ∧
        t.hostOut = s.hostOut ++ [(a + 64, slice b 64 64), (a, slice b 0 64)] ∧ le b 0 4 = r.seq % 2 ^ 32 ∧ le b 4 2 = r.status % 2 ^ 16 ∧
        le b 6 2 = r.reason % 2 ^ 16 ∧ le b 8 8 = s.frameIndex ∧ le b 16 8 = s.now)

/-- R245, R409, R412, R445, R480, R484, R490: the register writes of the host take their values: `CMD_CFG` (setting `EN` starts both rings again),
`RPL_CONSUMED`, the alarm registers, `RST_CAUSE` (a bit written 1 is cleared), `SAMPLE_CFG`, `BR_CFG` and, among the others, `INTAKE_PERIOD` (a value
outside its range changes nothing) and `BACKUP0` to `BACKUP7`; an offset beyond the map changes nothing. -/
def Obligations.RegisterWritesTakeTheirValues : Prop :=
  ∀ (s : State) (v : Word) (d : DWord) (n p a : Nat), s.dev ≠ .off → s.dev ≠ .boot →
    (exec (.cmdEnable v) s = .next { s with cmd :=
      if s.cmd.en then { s.cmd with irqEn := bit v.toNat 1 }
      else { s.cmd with en := true, irqEn := bit v.toNat 1, log2Slots := inRange 6 10 s.cmd.log2Slots (bits v.toNat 15 12),
                        nextSeq := 1, rplWritten := 0, rplConsumed := 0 } }) ∧
    (exec (.cmdDisable v) s = .next { s with cmd := { s.cmd with
      en := false, irqEn := bit v.toNat 1,
      log2Slots := if s.cmd.en then s.cmd.log2Slots else inRange 6 10 s.cmd.log2Slots (bits v.toNat 15 12) } }) ∧
    (exec (.rplConsumedWrite v) s = .next { s with cmd := { s.cmd with rplConsumed := v } }) ∧
    (n < 512 → ∃ t, exec (.alarmAck n) s = .next t ∧ (spGet {} t.alarms.slots n).pending = false ∧
      (∀ m, m ≠ n → spGet {} t.alarms.slots m = spGet {} s.alarms.slots m) ∧ t.alarms.raised = s.alarms.raised ∧ t.alarms.latch = s.alarms.latch ∧
      t.pins.alertN = (s.alarms.alertOn && !t.alarms.slots.any (fun e => e.2.pending))) ∧
    (exec .alarmClear s = .next { s with alarms := { s.alarms with slots := s.alarms.slots.filter (fun e => e.2.pending) } }) ∧
    (exec (.rstCauseClear v) s = .next { s with resets := { s.resets with cause := s.resets.cause &&& ~~~(v.setWidth 12) } }) ∧
    (portExists s.variant p = true → exec (.sampleCfgWrite p v) s =
      .next (s.setPort p { s.port p with sampleNext := some v, sampleRx := 0, sampleTx := 0 })) ∧
    (∃ t, exec (.ovfGibWrite v) s = .next t ∧ t.alarms.evmask = BitVec.ofNat 10 (bits v.toNat 10 1) ∧
      (s.dev = .idle → bits v.toNat 26 21 ≤ 32 → t.alarms.ovfGib = bits v.toNat 26 21 ∧
        (bits v.toNat 26 21 ≠ s.alarms.ovfGib → t.mgmt.images = [] ∧ t.mgmt.verified = false)) ∧
      (s.dev ≠ .idle → t.alarms.ovfGib = s.alarms.ovfGib)) ∧
    (exec (.registerWrite 0x010018 d) s = .next { s with cmd := { s.cmd with
      intakePeriod := if 500 ≤ bits d.toNat 15 0 ∧ bits d.toNat 15 0 ≤ 50000 then bits d.toNat 15 0 else s.cmd.intakePeriod } }) ∧
    (n < 8 → exec (.registerWrite (0x020040 + 8 * n) d) s = .next { s with resets := { s.resets with backup := spSet 0 s.resets.backup n d } }) ∧
    (0x200004 ≤ a → exec (.registerWrite a d) s = .next s)

/-- R444, R445: a block reset of a port that the active epoch does not use is taken and keeps the block busy; one that has not gone idle in time is
alarmed once; the port trains again when the reset is done, and its quiesce time is kept. A block reset that is not allowed is refused. -/
def Obligations.BlockResetsRun : Prop :=
  ∀ (s : State) (p us : Nat) (ok : Bool), s.dev ≠ .off → s.dev ≠ .boot → p < 22 →
    (s.resets.blockBusy = false → portExists s.variant p = true → s.epochUses p = false →
      ∃ t, exec (.blockReset 0 p) s = .next t ∧ t.resets.blockBusy = true ∧ t.resets.blockKind = 0 ∧ t.resets.blockIndex = p ∧
        t.resets.blockRefused = false ∧ t.ports = s.ports) ∧
    (s.resets.blockBusy = false → s.epochUses p = true →
      ∃ t, exec (.blockReset 0 p) s = .next t ∧ t.resets.blockBusy = false ∧ t.resets.blockRefused = true ∧ t.ports = s.ports) ∧
    (s.resets.blockBusy = true → s.resets.blockTimedOut = false →
      ∃ t, exec .blockQuiesceTimeout s = .next t ∧ t.resets.blockTimedOut = true ∧ t.alarms.raised = s.alarms.raised + 1) ∧
    (s.resets.blockBusy = true → s.resets.blockKind = 0 → s.resets.blockIndex = p → s.resets.blockTimedOut = false →
      us ≤ 10 * s.resets.quiesce10us → us < 65536 →
      ∃ t, exec (.blockResetDone us ok) s = .next t ∧ t.resets.blockBusy = false ∧ t.resets.blockDone = true ∧ t.resets.blockUs = us ∧
        (t.port p).state = .training ∧ (t.port p).departure = [] ∧ (t.port p).retry = [])

/-- R354, R355, R478 to R481, R488: in an interval of the ring writer the oldest record of the buffer is written at the head of the ring where it has
room; the box room writes its next record in its partition and counts its bytes; the oldest event message goes to the event receiver. -/
def Obligations.StoredRecordsAreWritten : Prop :=
  ∀ (s : State) (r : InvRec) (rest : List InvRec) (b : BoxRec) (l : List BoxRec) (e : Byte) (c : Nat) (m : List Byte)
    (es : List (Nat × List Byte)),
    (s.ringInterval = true → s.inv.buffer = r :: rest → s.inv.head + r.recLen ≤ s.ringSize → s.inv.ringBytes + r.recLen ≤ s.ringSize →
      ∃ t, exec .ringWrite s = .next t ∧ t.inv.buffer = rest ∧ t.inv.ring = s.inv.ring ++ [r] ∧ t.inv.ringBytes = s.inv.ringBytes + r.recLen ∧
        t.inv.head = (s.inv.head + r.recLen) % s.ringSize ∧ t.cellar.bytes = (s.cellarWrite s.inv.head r.bytes).cellar.bytes) ∧
    (nextBox s.alarms.boxQueue = some (b, l) → s.alarms.placeHeld b.part = false →
      ∃ t, exec .boxRoomWrite s = .next t ∧ t.alarms.boxQueue = l ∧
        t.alarms.headOf b.part = (s.alarms.headOf b.part + (partition b.part).len) % 2 ^ 64 ∧
        (∀ n, n ≠ (partition b.part).base + s.alarms.headOf b.part % (partition b.part).size → spGet [] t.alarms.box n = spGet [] s.alarms.box n)) ∧
    (s.sec.eventReceiver = some e → s.sec.events = (c, m) :: es →
      exec .pldmEventSend s = .next { s with sec := { s.sec with events := es, lastResponse := leBytes 1 c ++ m } })

/-- R69, R379 to R382: margins that need no stretch only lower the region's smallest margin; a margin of 0 or less in a run is fault 0x0C21; an event
delivered to a region stretches one period, at most one in 16; a beat within 4 cycles changes nothing, and one beyond them is fault 0x0108 of the
region's first core. -/
def Obligations.MarginsAndStretchesAct : Prop :=
  ∀ (s : State) (j : Nat) (x : Int) (xs : List Int), j < 64 →
    ((∀ y ∈ x :: xs, 12 ≤ y) → ∃ t v, exec (.marginCheck j (x :: xs)) s = .next t ∧
      t = { s with clock := { s.clock with minMargin := t.clock.minMargin } } ∧ (j, v) ∈ t.clock.minMargin ∧ ∀ y ∈ x :: xs, (v : Int) ≤ y) ∧
    ((∃ y ∈ x :: xs, y ≤ 0) → s.runOn = true → s.alarms.latch = none →
      ∃ t l, exec (.marginCheck j (x :: xs)) s = .next t ∧ t.dev = .faulted ∧ t.alarms.latch = some l ∧ l.record.reason = 0x0C21 ∧
        l.record.detail = j) ∧
    (s.cycling = true → (s.nextEvent j).isSome = true →
      let n := Nat.max s.cycleNow (spGet 0 s.clock.lastStretch j)
      exec (.stretchEventApply j) s = .next { s with clock := { s.clock with
        lastStretch := spSet 0 s.clock.lastStretch j (n + 16), stretchDue := spSet 0 s.clock.stretchDue j (n + 1),
        applied := spSet 0 s.clock.applied j (spGet 0 s.clock.applied j + 1) } }) ∧
    (x.natAbs ≤ 8 → exec (.beatCapture j x) s = .next s) ∧
    (8 < x.natAbs → s.cycling = true → ∀ g, s.logicalRegion j = some g →
      ∃ t r, exec (.beatCapture j x) s = .next t ∧ t.freeze.raised = s.freeze.raised ++ [r] ∧ r.reason = 0x0108 ∧ r.lcore = g * 1280 ∧
        r.cycle = s.cycleNow)

/-- R384 to R386, R515 to R517, R519: the governor lowers the target by a step over the cap and raises it below 95% of it; after 1,024 rounds at the
minimum, over the cap or at throttle temperature, the next slower mode is staged; a new target takes effect; a voltage write that fails is alarmed. -/
def Obligations.PowerAndModesAreGoverned : Prop :=
  ∀ (s : State) (power : Nat),
    (∃ t, exec (.governorStep power) s = .next t ∧ t.clock.power = power % 65536 ∧ t.clock.mode = s.clock.mode ∧
      t.clock.targetKhz = s.clock.targetKhz ∧
      (powerCap s.variant s.clock.mode < power →
        t.clock.govKhz = Nat.max (minKhz s.clock.mode) (s.clock.govKhz - nominalKhz s.clock.mode / 100) ∧ t.clock.govSteps = s.clock.govSteps + 1) ∧
      (100 * power ≤ 95 * powerCap s.variant s.clock.mode → s.stats.tstate < 2 →
        t.clock.govKhz = Nat.min (nominalKhz s.clock.mode) (s.clock.govKhz + nominalKhz s.clock.mode / 100)) ∧
      (95 * powerCap s.variant s.clock.mode < 100 * power → power ≤ powerCap s.variant s.clock.mode → t.clock.govKhz = s.clock.govKhz)) ∧
    (s.clock.mode ≠ .cool →
      (1024 ≤ s.clock.overRounds → ∃ t, exec .autoThrottle s = .next t ∧ t.clock.staged = some (slowerMode s.clock.mode) ∧
        t.clock.autoThrottles = s.clock.autoThrottles + 1 ∧ t.clock.overRounds = 0 ∧ t.clock.mode = s.clock.mode) ∧
      (1024 ≤ s.clock.throttleRounds → ∃ t, exec .thermalThrottle s = .next t ∧ t.clock.staged = some (slowerMode s.clock.mode) ∧
        t.clock.autoThrottles = s.clock.autoThrottles + 1 ∧ t.clock.throttleRounds = 0 ∧ t.clock.mode = s.clock.mode)) ∧
    (s.clock.mode = .cool → exec .autoThrottle s = .next s ∧ exec .thermalThrottle s = .next s) ∧
    (∀ k, s.clock.nextTargetKhz = some k → exec .targetApply s = .next { s with clock := { s.clock with targetKhz := k, nextTargetKhz := none } }) ∧
    (exec (.avsConfirm true) s = .next { s with clock := { s.clock with avsPending := false } }) ∧
    (∃ t, exec (.avsConfirm false) s = .next t ∧ t.clock = s.clock ∧ t.alarms.raised = s.alarms.raised + 1)

/-- R511 to R514, R518 to R520: a temperature is kept as calibrated, and one at the trip threshold makes the thermal state 3 or more; a hardware trip
lowers THERMTRIP_N and the HBM enables until its release, which is a system reset; a rail that fails is a power-on reset; the rails' return ends its
request, and the HBM enables rise one after the other. -/
def Obligations.TemperaturesAndRailsAct : Prop :=
  ∀ (s : State) (j rail : Nat) (sn : Sensor) (v : Int),
    (j < 64 → ∃ t, exec (.sensorSample [(.region j, v)]) s = .next t ∧ spGet 0 t.stats.regionTemp j = s.calibrated (.region j) v ∧
      (110 ≤ s.calibrated (.region j) v → 3 ≤ t.stats.tstate)) ∧
    (sensorExists s.variant sn = true → s.resets.tripped = false → atTrip sn v = true →
      ∃ t, exec (.thermalTrip sn v) s = .next t ∧ t.resets.tripped = true ∧ t.pins.thermtripN = false ∧ t.pins.hbmVpp = false ∧
        t.pins.hbmVdd = false ∧ t.pins.hbmVddq = false ∧ t.pins.txIdle = true ∧ t.cellar = s.cellar ∧ t.hatch = s.hatch) ∧
    (s.resets.tripped = true → ∃ t, exec .thermalTripRelease s = .next t ∧ t.resets.tripped = false ∧ t.pins.thermtripN = true ∧
      bit t.resets.cause.toNat 4 = true) ∧
    (rail < 16 → s.resets.level ≠ some 0 → ∃ t, exec (.railFail rail) s = .next t ∧ t.dev = .off ∧ bit t.resets.cause.toNat 0 = true ∧
      bit t.pins.railsGood.toNat rail = false ∧ t.serial = s.serial ∧ t.sec.unlockFuses = s.sec.unlockFuses) ∧
    (∃ t, exec .powerOnRelease s = .next t ∧ t.pins.railsGood = BitVec.allOnes 16 ∧ 0 ∉ t.resets.asserted ∧ t.dev = s.dev) ∧
    (s.resets.tripped = false → s.railGood 13 = true → s.railGood 14 = true →
      (s.pins.hbmVpp = false → exec .hbmEnSequence s = .next { s with pins := { s.pins with hbmVpp := true } }) ∧
      (s.pins.hbmVpp = true → s.pins.hbmVdd = false → s.railGood 10 = true →
        exec .hbmEnSequence s = .next { s with pins := { s.pins with hbmVdd := true } }) ∧
      (s.pins.hbmVpp = true → s.pins.hbmVdd = true → s.pins.hbmVddq = false → s.railGood 8 = true →
        exec .hbmEnSequence s = .next { s with pins := { s.pins with hbmVddq := true } }))

/-- R435 to R438, R442, R445, R473, R506: a source asserts its level: power-on reset of the PORST pin, system reset of SYSRST and of the watchdog, core
reset of the debug input of an unlocked device, and the level that `HOT_CORE` and `LDN_CORE` choose for the host's link; a level in force is not left
by a narrower one; what is kept is kept. -/
def Obligations.ResetSourcesAssertTheirLevels : Prop :=
  ∀ (s : State) (pc sp : DWord),
    (s.resets.level ≠ some 0 → ∃ t, exec (.porst true) s = .next t ∧ t.dev = .off ∧ t.resets.level = some 0 ∧ t.ports = [] ∧
      bit t.resets.cause.toNat 1 = true ∧ t.serial = s.serial ∧ t.variant = s.variant ∧ t.settings.copyA = s.settings.copyA) ∧
    (s.resets.level = none →
      (∃ t, exec (.sysrst true) s = .next t ∧ t.dev = .boot ∧ t.resets.level = some 1 ∧ bit t.resets.cause.toNat 2 = true ∧ t.cmd.en = false ∧
        t.cores = [] ∧ t.sec.unlocked = s.sec.unlocked ∧ t.inv.larder = s.inv.larder ∧ t.alarms.headSeal = s.alarms.headSeal) ∧
      (s.firmwareRuns = true → ∃ t, exec (.wdog pc sp) s = .next t ∧ t.dev = .boot ∧ bit t.resets.cause.toNat 3 = true) ∧
      (s.sec.unlocked = true → ∃ t, exec (.debugReset true) s = .next t ∧ t.resets.level = some 2 ∧ t.cores = [] ∧ t.cmd.suspended = true) ∧
      (s.dev ≠ .off → s.dev ≠ .boot →
        (∃ t, exec .cxlHot s = .next t ∧ t.resets.level = some (if s.resets.hotCore then 2 else 1) ∧ bit t.resets.cause.toNat 5 = true) ∧
        (s.resets.bootFail ≠ 8 → ∃ t, exec .cxlLdn s = .next t ∧ t.resets.level = some (if s.resets.ldnCore then 2 else 1) ∧
          bit t.resets.cause.toNat 6 = true))) ∧
    (s.resets.level = some 0 → ∃ t, exec (.sysrst true) s = .next t ∧ t.dev = s.dev ∧ t.resets.level = some 0 ∧ t.cores = s.cores) ∧
    (s.sec.unlocked = false → exec (.debugReset true) s = .next s)

/-- R437, R440, R442, R446, R473, R524: the release of a core reset brings the device to `IDLE` with the intake open; that of a wider level runs the
bring-up, which ends in `IDLE` after step 9 or in `BOOT` with the step that failed; ACTIVE toggles while the firmware runs, and the TAP takes an
instruction that it honours. -/
def Obligations.ReleaseBringsTheDeviceUp : Prop :=
  ∀ (s : State) (f : BootFindings) (code : Nat),
    (s.resets.asserted.any (fun i => decide (i ≤ 2)) = false → s.resets.tripped = false →
      (s.resets.level = some 2 → ∃ t, exec (.resetRelease f) s = .next t ∧ t.dev = .idle ∧ t.cmd.suspended = false ∧ t.resets.level = none ∧
        t.resets.coreResets = s.resets.coreResets + 1) ∧
      (s.resets.level = some 0 ∨ s.resets.level = some 1 → ∃ t, exec (.resetRelease f) s = .next t ∧ t.resets.level = none ∧
        ((t.dev = .idle ∧ t.resets.bootStep = 9) ∨ (t.dev = .boot ∧ 1 ≤ t.resets.bootFail ∧ t.resets.bootFail ≤ 5)) ∧
        (f.failStep = 1 → t.dev = .boot ∧ t.resets.bootFail = 1))) ∧
    (s.firmwareRuns = true → ∃ t, exec .activeToggle s = .next t ∧ t.pins = { s.pins with active := !s.pins.active }) ∧
    (code ≤ 1 ∨ s.sec.unlocked = true → exec (.tapInstruction code) s = .next { s with sec := { s.sec with tapIr := code } })

/-- R453, R461, R462, R464, R487 to R489: MCTP and PLDM keep the endpoint, the event receiver and the pieces of a firmware update, whose last piece is
written into the copy that is not running and judged; an activation marks it; certificates get their signatures, and a commit of the device is
written. -/
def Obligations.BoardManagementActs : Prop :=
  ∀ (s : State) (e : Byte) (ptype command : Nat) (data : List Byte),
    (s.servesMctp = true →
      (∃ t, exec (.setEndpointId e) s = .next t ∧ t.sec = { s.sec with eid := e, lastResponse := t.sec.lastResponse }) ∧
      (∃ t, exec (.setEventReceiver e) s = .next t ∧ t.sec = { s.sec with eventReceiver := some e, lastResponse := t.sec.lastResponse }) ∧
      (ptype = 0 ∨ ptype = 2 ∨ ptype = 5 → ∃ t, exec (.pldmRequest ptype command data) s = .next t ∧
        t = { s with sec := { s.sec with lastResponse := t.sec.lastResponse }, freeCtr := s.freeCtr + 1 }) ∧
      (s.sec.pldmUpdate = false → s.hostUpdates = false → ∃ t, exec .requestUpdate s = .next t ∧ t.sec.pldmUpdate = true ∧ t.sec.pldmData = [] ∧
        t.sec.other.activated = false ∧ t.sec.running = s.sec.running)) ∧
    (s.sec.pldmUpdate = true →
      (exec (.pldmFirmwareData data false) s = .next { s with sec := { s.sec with pldmData := s.sec.pldmData ++ data } }) ∧
      (∃ t, exec (.pldmFirmwareData data true) s = .next t ∧ t.sec.other = fwCopyOf s.sec ((s.sec.pldmData ++ data).take 4190208) ∧
        t.sec.running = s.sec.running ∧ t.sec.pldmUpdate = t.sec.fwStaged) ∧
      (s.sec.fwStaged = true → ∃ t, exec .activateFirmware s = .next t ∧ t.sec.pldmUpdate = false ∧ t.sec.actPending = true ∧
        t.sec.other.activated = true ∧ t.sec.running = s.sec.running)) ∧
    (∃ t, exec .certSigned s = .next t ∧ t.inv.buffer = s.inv.buffer ∧
      ∀ c, s.inv.cert = some c → ∃ d, t.inv.cert = some d ∧ d.body = c.body ∧ d.signature.isSome = true) ∧
    (s.settings.deviceDue ≠ 0 → ∃ t, exec (.deviceCommitWritten true) s = .next t ∧ t.settings.deviceDue = s.settings.deviceDue - 1) ∧
    (exec (.deviceCommitWritten false) s = .next s)

/-- R404, R408, R470: the SPDM requests that the responder answers change only its answer; a key exchange opens one of two sessions, requests inside an
open session are answered, and IDE streams are established in one; its end closes it. The answers are free values (log entry 13). -/
def Obligations.SpdmRequestsAreAnswered : Prop :=
  ∀ (s : State) (off len idx n proto : Nat) (nonce : List Byte), s.servesDoe = true →
    (∀ c ∈ [Instr.spdmGetVersion, .spdmGetCapabilities, .spdmNegotiateAlgorithms, .spdmGetCertificate 0 off len, .spdmChallenge 0 nonce,
        .spdmGetMeasurements 0xFF nonce, .spdmGetMeasurements idx nonce],
      ∃ t, exec c s = .next t ∧ t = { s with sec := { s.sec with lastResponse := t.sec.lastResponse }, freeCtr := t.freeCtr }) ∧
    (s.sec.sessions = [] → ∃ t, exec .spdmKeyExchange s = .next t ∧ t.sec.sessions = [1]) ∧
    (n ∈ s.sec.sessions →
      (∀ c ∈ [Instr.spdmFinish n, .spdmKeyUpdate n, .spdmHeartbeat n],
        ∃ t, exec c s = .next t ∧ t = { s with sec := { s.sec with lastResponse := t.sec.lastResponse }, freeCtr := t.freeCtr }) ∧
      (∃ t, exec (.spdmEndSession n) s = .next t ∧ n ∉ t.sec.sessions ∧ ∀ m, m ≠ n → (m ∈ t.sec.sessions ↔ m ∈ s.sec.sessions)) ∧
      (proto ≤ 2 → ∃ t, exec (.ideKm n proto) s = .next t ∧ proto ∈ t.sec.ideStreams ∧ t.sec.sessions = s.sec.sessions))

/-- The block's step: with command `c` at the front of the queue it is `exec` of `c` on the state with the queue's rest. -/
def Obligations.StepRunsTheFrontCommand : Prop :=
  ∀ (s : State) (c : Instr) (rest : List Instr), step { s with pending := c :: rest } = exec c { s with pending := rest }

/-- R389: with no command waiting one tick of the 1 GHz clock passes, in which machine time without a correction gains 1 ns and the tick counter 1; in
`OFF` nothing happens. That the model lets the tick pass there is its own choice (log entry 11). -/
def Obligations.IdleStepIsOneTick : Prop :=
  ∀ (s : State), s.pending = [] →
    (s.dev = .off → step s = .next s) ∧
    (s.dev ≠ .off → ∃ t, step s = .next t ∧ t = { s with time := t.time } ∧ t.time.tick = s.time.tick + 1 ∧
      (s.time.rho = 0 → s.time.pendingOff = 0 → t.time.mtFrac = s.time.mtFrac ∧ t.time.mtNs = s.time.mtNs + 1))

/-- R8, R50, R279, R389, R409, R445, R490:
- the reset values that the register tables give, as the state after power-on reset holds them.
- The state after reset meets the invariants that every step keeps, and holds a listed byte nowhere. -/
def Obligations.ResetStateHolds : Prop :=
  (let s := State.reset
   s.dev = .off ∧ s.fabric.holdLead = 8 ∧ s.fabric.guardPm = 20 ∧ s.fabric.frameRounds = 0 ∧ s.fabric.freezeAllow = 4096 ∧
   s.fabric.arrivalLimit = 4096 ∧ s.fabric.frameIndex = 0 ∧ s.fabric.curCycle = 0 ∧ s.fabric.resendWait = 4 ∧
   s.cmd.log2Slots = 6 ∧ s.cmd.irqEn = false ∧ s.cmd.en = false ∧ s.cmd.cmdBase = 0 ∧ s.cmd.rplBase = 0 ∧ s.cmd.intakePeriod = 2000 ∧
   s.time.tick = 0 ∧ s.time.jumpNs = 2000 ∧ s.time.holdoverMax = 1000 ∧ s.resets.wdogMs = 2000 ∧ s.resets.quiesce10us = 10 ∧
   s.cellar.ageNs = 1600 ∧ s.cellar.quietNs = 200 ∧ s.cellar.ceRowLimit = 16 ∧ s.alarms.raised = 0 ∧ s.alarms.irqEn = false ∧
   s.alarms.evmask = 0x3FF ∧ s.alarms.ovfGib = 0 ∧ s.inv.smallKib = 4 ∧ s.inv.digestOnly = false ∧ s.pending = []) ∧
  (State.reset.memoryOk ∧ State.reset.cmd.ok ∧ State.reset.hatch.bytes = [] ∧ State.reset.cellar.bytes = [])

/-- Every step keeps the canonical form of the Hatch and of the cellars, whatever command it runs. -/
def Obligations.StepsKeepMemoryCanonical : Prop :=
  ∀ (s t : State), s.memoryOk → step s = .next t → t.memoryOk

/-- R1, R3, R249, R409, R412, R435: no step changes what the device is (its variant, stepping, serial and board position), and every step keeps the
command window within its ranges. -/
def Obligations.StepsKeepIdentityAndWindow : Prop :=
  ∀ (s t : State), step s = .next t →
    t.variant = s.variant ∧ t.stepping = s.stepping ∧ t.serial = s.serial ∧ t.boardPos = s.boardPos ∧ (s.cmd.ok → t.cmd.ok)

/-- R9, R10, R184, R511, R518: a command of a core, port, controller, region, rail or sensor that the package does not have stops with its fault. -/
def Obligations.CommandsOfMissingUnitsFault : Prop :=
  ∀ (s : State) (n a b e f g : Nat) (r : Fin 32) (imm : Word) (v : Int),
    (81920 ≤ n → ∀ c ∈ [Instr.nop n, .add n r r r, .addi n r r imm, .lds n r r 0 imm, .enq n a, .mma n, .vadd n, .xput n, .post n,
        .streamElement n a, .engineDispatch n .vx, .commandComplete n .mx], exec c s = .fault .noSuchCore) ∧
    (portExists s.variant n = false → ∀ c ∈ [Instr.dataSlot n a, .serviceSlot n a, .heartbeat n [], .portDown n, .identity n [], .loss n a b e,
        .flightMeasure n, .sync n [] a, .ethFrameReceive n true [], .sampleCfgWrite n imm], exec c s = .fault .noSuchPort) ∧
    (160 * mioCount s.variant ≤ n → ∀ c ∈ [Instr.act n a b e, .pre n a b, .rd n a b e f g, .wr n a b e f g, .bact n a b e, .repeat n a b e f,
        .gap n a, .progEnd n, .pinnedRefresh n, .scrubWindow n, .retentionRefresh n a, .sectorReturn n], exec c s = .fault .noSuchController) ∧
    (64 ≤ n → ∀ c ∈ [Instr.marginCheck n [v], .stretchEventApply n, .beatCapture n v, .sensorSample [(.region n, v)], .thermalTrip (.region n) v,
        .railFail n], exec c s = .fault .noSuchUnit)

/-- R59: s0 reads as zero and p0 as all ones, and a write of either is discarded; every other register reads what was written last, and a write of one
leaves the others alone. -/
def Obligations.HardWiredRegistersKeepTheirValues : Prop :=
  ∀ (k : Core) (v : Word) (q : BitVec 16) (w : BitVec 256) (n m : Nat),
    k.sreg 0 = 0 ∧ k.setSreg 0 v = k ∧ k.preg 0 = BitVec.allOnes 16 ∧ k.setPreg 0 q = k ∧
    (n ≠ 0 → (k.setSreg n v).sreg n = v ∧ (k.setPreg n q).preg n = q) ∧ (k.setVreg n w).vreg n = w ∧
    (n ≠ m → (k.setSreg n v).sreg m = k.sreg m ∧ (k.setPreg n q).preg m = k.preg m ∧ (k.setVreg n w).vreg m = k.vreg m)
end

