-- ==== Sys2Proof/Laws/Sparse.lean ====
section
/-! SUPPORT. The laws of sparse stores: what a read gives after a write, that every operation keeps the canonical form, and that stores in this form
are equal where they read alike; the same of runs of bytes. -/

namespace Sys2Proof.Machine

variable {α : Type} (d : α)

/-! ### Reads after writes -/

theorem spGet_spErase (m : List (Nat × α)) (k k' : Nat) : spGet d (spErase k m) k' = if k = k' then d else spGet d m k' := by
  induction m with
  | nil => simp [spErase, spGet]
  | cons e t ih =>
    obtain ⟨a, v⟩ := e
    by_cases h : a = k <;> by_cases h' : k = k' <;> simp_all [spErase, spGet]

theorem spGet_spInsert (m : List (Nat × α)) (k k' : Nat) (v : α) (hk : ∀ e ∈ m, e.1 ≠ k) :
    spGet d (spInsert k v m) k' = if k = k' then v else spGet d m k' := by
  induction m with
  | nil => by_cases h' : k = k' <;> simp [spInsert, spGet, h']
  | cons e t ih =>
    obtain ⟨a, w⟩ := e
    have ha : a ≠ k := hk (a, w) (by simp)
    have ih := ih (fun e he => hk e (by simp [he]))
    by_cases hlt : k < a
    · simp only [spInsert, hlt, if_true, spGet]
    · simp only [spInsert, hlt, if_false, spGet, ih]
      by_cases h' : k = k'
      · subst h'; simp [ha]
      · simp [h']

theorem key_ne_of_mem_spErase (m : List (Nat × α)) (k : Nat) : ∀ e ∈ spErase k m, e.1 ≠ k := by
  induction m with
  | nil => simp [spErase]
  | cons e t ih =>
    obtain ⟨a, v⟩ := e
    by_cases h : a = k
    · simpa [spErase, h] using ih
    · intro e he
      simp only [spErase, h, if_false, List.mem_cons] at he
      rcases he with rfl | he
      · exact h
      · exact ih e he

variable [DecidableEq α]

/-- A read after a write: the value at the key written, and what was there before at every other key. -/
theorem spGet_spSet (m : List (Nat × α)) (k k' : Nat) (v : α) : spGet d (spSet d m k v) k' = if k = k' then v else spGet d m k' := by
  unfold spSet
  split
  · next h => rw [spGet_spErase]; split <;> simp [h]
  · rw [spGet_spInsert d _ _ _ _ (key_ne_of_mem_spErase m k), spGet_spErase]; split <;> rfl

@[simp] theorem spGet_spSet_self (m : List (Nat × α)) (k : Nat) (v : α) : spGet d (spSet d m k v) k = v := by simp [spGet_spSet]

@[simp] theorem spGet_spSet_ne (m : List (Nat × α)) {k k' : Nat} (v : α) (h : k ≠ k') : spGet d (spSet d m k v) k' = spGet d m k' := by
  simp [spGet_spSet, h]

theorem spGet_spModify (m : List (Nat × α)) (k k' : Nat) (f : α → α) :
    spGet d (spModify d m k f) k' = if k = k' then f (spGet d m k) else spGet d m k' := spGet_spSet d m k k' _

/-! ### The canonical form -/

theorem spWfFrom_mono {lo lo' : Nat} {m : List (Nat × α)} (h : spWfFrom d lo m = true) (hl : lo' ≤ lo) : spWfFrom d lo' m = true := by
  cases m with
  | nil => rfl
  | cons e t =>
    obtain ⟨a, v⟩ := e
    simp only [spWfFrom, Bool.and_eq_true, decide_eq_true_eq] at h ⊢
    exact ⟨⟨by omega, h.1.2⟩, h.2⟩

theorem spWfFrom_spErase {lo : Nat} {m : List (Nat × α)} (k : Nat) (h : spWfFrom d lo m = true) : spWfFrom d lo (spErase k m) = true := by
  induction m generalizing lo with
  | nil => rfl
  | cons e t ih =>
    obtain ⟨a, v⟩ := e
    simp only [spWfFrom, Bool.and_eq_true, decide_eq_true_eq] at h
    by_cases ha : a = k
    · simpa [spErase, ha] using spWfFrom_mono d (ih h.2) (by omega)
    · simp only [spErase, ha, if_false, spWfFrom, Bool.and_eq_true, decide_eq_true_eq]
      exact ⟨h.1, ih h.2⟩

theorem spWfFrom_spInsert {lo k : Nat} {m : List (Nat × α)} {v : α} (h : spWfFrom d lo m = true) (hk : ∀ e ∈ m, e.1 ≠ k) (hv : v ≠ d)
    (hl : lo ≤ k) : spWfFrom d lo (spInsert k v m) = true := by
  induction m generalizing lo with
  | nil => simp [spInsert, spWfFrom, hv, hl]
  | cons e t ih =>
    obtain ⟨a, w⟩ := e
    have ha : a ≠ k := hk (a, w) (by simp)
    simp only [spWfFrom, Bool.and_eq_true, decide_eq_true_eq] at h
    by_cases hlt : k < a
    · simp only [spInsert, hlt, if_true, spWfFrom, Bool.and_eq_true, decide_eq_true_eq]
      exact ⟨⟨hl, hv⟩, ⟨by omega, h.1.2⟩, h.2⟩
    · simp only [spInsert, hlt, if_false, spWfFrom, Bool.and_eq_true, decide_eq_true_eq]
      exact ⟨h.1, ih h.2 (fun e he => hk e (by simp [he])) (by omega)⟩

/-- A write keeps the canonical form. -/
theorem spWf_spSet {m : List (Nat × α)} (k : Nat) (v : α) (h : spWf d m = true) : spWf d (spSet d m k v) = true := by
  unfold spSet
  split
  · exact spWfFrom_spErase d k h
  · next hv => exact spWfFrom_spInsert d (spWfFrom_spErase d k h) (key_ne_of_mem_spErase m k) hv (by omega)

theorem spWf_spModify {m : List (Nat × α)} (k : Nat) (f : α → α) (h : spWf d m = true) : spWf d (spModify d m k f) = true :=
  spWf_spSet d k _ h

theorem spWfFrom_spMap {lo : Nat} {m : List (Nat × α)} (f : α → α) (h : spWfFrom d lo m = true) : spWfFrom d lo (spMap d f m) = true := by
  induction m generalizing lo with
  | nil => rfl
  | cons e t ih =>
    obtain ⟨a, v⟩ := e
    simp only [spWfFrom, Bool.and_eq_true, decide_eq_true_eq] at h
    by_cases hf : f v = d
    · simpa [spMap, hf] using spWfFrom_mono d (ih h.2) (by omega)
    · simp only [spMap, hf, if_false, spWfFrom, Bool.and_eq_true, decide_eq_true_eq]
      exact ⟨⟨h.1.1, hf⟩, ih h.2⟩

/-- A fold of writes keeps the canonical form. -/
theorem spWf_foldl_spSet {β : Type} (key : β → Nat) (val : β → α) (l : List β) {m : List (Nat × α)} (h : spWf d m = true) :
    spWf d (l.foldl (fun m e => spSet d m (key e) (val e)) m) = true := by
  induction l generalizing m with
  | nil => exact h
  | cons e t ih => exact ih (spWf_spSet d _ _ h)

/-- Stores in canonical form that read alike are equal. -/
theorem eq_of_spGet_eq {lo : Nat} {m m' : List (Nat × α)} (h : spWfFrom d lo m = true) (h' : spWfFrom d lo m' = true)
    (hg : ∀ k, spGet d m k = spGet d m' k) : m = m' := by
  have low : ∀ {lo : Nat} {m : List (Nat × α)}, spWfFrom d lo m = true → ∀ k < lo, spGet d m k = d := by
    intro lo m
    induction m generalizing lo with
    | nil => intros; rfl
    | cons e t ih =>
      intro h k hk
      obtain ⟨a, v⟩ := e
      simp only [spWfFrom, Bool.and_eq_true, decide_eq_true_eq] at h
      simp [spGet, show a ≠ k by omega, ih h.2 k (by omega)]
  induction m generalizing m' lo with
  | nil =>
    cases m' with
    | nil => rfl
    | cons e t =>
      obtain ⟨a, v⟩ := e
      simp only [spWfFrom, Bool.and_eq_true, decide_eq_true_eq] at h'
      exact absurd (by simpa [spGet] using (hg a).symm) h'.1.2
  | cons e t ih =>
    obtain ⟨a, v⟩ := e
    simp only [spWfFrom, Bool.and_eq_true, decide_eq_true_eq] at h
    cases m' with
    | nil => exact absurd (by simpa [spGet] using hg a) h.1.2
    | cons e' t' =>
      obtain ⟨b, w⟩ := e'
      simp only [spWfFrom, Bool.and_eq_true, decide_eq_true_eq] at h'
      have hab : a = b := by
        rcases Nat.lt_trichotomy a b with hlt | heq | hgt
        · have h1 := hg a
          simp only [spGet, if_true, show ¬ b = a by omega, if_false, low h'.2 a (by omega)] at h1
          exact absurd h1 h.1.2
        · exact heq
        · have h1 := hg b
          simp only [spGet, if_true, show ¬ a = b by omega, if_false, low h.2 b (by omega)] at h1
          exact absurd h1.symm h'.1.2
      subst hab
      have hv : v = w := by simpa [spGet] using hg a
      subst hv
      have ht : t = t' := ih h.2 h'.2 (fun k => by
        have hk := hg k
        by_cases hak : a = k
        · subst hak; rw [low h.2 a (by omega), low h'.2 a (by omega)]
        · simpa [spGet, hak] using hk)
      rw [ht]

/-! ### Runs of bytes -/

@[simp] theorem length_readBytes (m : List (Nat × Byte)) (a n : Nat) : (readBytes m a n).length = n := by simp [readBytes]

/-- What a byte reads as after a run was written: the run's byte inside it, and the byte before outside it. -/
theorem spGet_writeBytes (m : List (Nat × Byte)) (a : Nat) (bs : List Byte) (k : Nat) :
    spGet 0 (writeBytes m a bs) k = if a ≤ k ∧ k < a + bs.length then bs.getD (k - a) 0 else spGet 0 m k := by
  induction bs generalizing m a with
  | nil => simp [writeBytes]
  | cons b t ih =>
    rw [writeBytes, ih, spGet_spSet]
    rcases Nat.lt_trichotomy k a with h | h | h
    · simp [show ¬ (a + 1 ≤ k) by omega, show ¬ (a ≤ k) by omega, show a ≠ k by omega]
    · subst h; simp
    · obtain ⟨j, rfl⟩ : ∃ j, k = a + 1 + j := ⟨k - (a + 1), by omega⟩
      simp [show a ≠ a + 1 + j by omega, show a + 1 + j - a = j + 1 by omega, show a ≤ a + 1 + j by omega,
        show (a + 1 + j < a + (t.length + 1)) ↔ (j < t.length) by omega]

/-- A write of a run leaves every byte outside it. -/
theorem spGet_writeBytes_outside (m : List (Nat × Byte)) (a : Nat) (bs : List Byte) {k : Nat} (h : k < a ∨ a + bs.length ≤ k) :
    spGet 0 (writeBytes m a bs) k = spGet 0 m k := by
  rw [spGet_writeBytes, if_neg (by omega)]

/-- A run that was written is read back. -/
theorem readBytes_writeBytes (m : List (Nat × Byte)) (a : Nat) (bs : List Byte) : readBytes (writeBytes m a bs) a bs.length = bs := by
  apply List.ext_getElem (by simp)
  intro i h1 h2
  simp only [readBytes, List.getElem_map, List.getElem_range, spGet_writeBytes]
  simp [h2]

theorem spWf_writeBytes {m : List (Nat × Byte)} (a : Nat) (bs : List Byte) (h : spWf 0 m = true) : spWf 0 (writeBytes m a bs) = true := by
  induction bs generalizing m a with
  | nil => exact h
  | cons b t ih => exact ih _ (spWf_spSet 0 a b h)

end Sys2Proof.Machine
end

