-- ==== Sys2Proof/Laws/Core.lean ====
section
/-! SUPPORT. What each named update of a core leaves, one lemma per field and update, and what the registers read as after a write (R59). -/

namespace Sys2Proof.Machine

open Sys2Proof

variable (k : Core)

section
variable (kind n r unit pc : Nat)

@[simp] theorem Core.setTag_section_ : (k.setTag kind n r unit pc).section_ = k.section_ := by unfold Core.setTag; split <;> rfl
@[simp] theorem Core.setTag_group : (k.setTag kind n r unit pc).group = k.group := by unfold Core.setTag; split <;> rfl
@[simp] theorem Core.setTag_owner : (k.setTag kind n r unit pc).owner = k.owner := by unfold Core.setTag; split <;> rfl
@[simp] theorem Core.setTag_entries : (k.setTag kind n r unit pc).entries = k.entries := by unfold Core.setTag; split <;> rfl
@[simp] theorem Core.setTag_setters : (k.setTag kind n r unit pc).setters = k.setters := by unfold Core.setTag; split <;> rfl
@[simp] theorem Core.setTag_afmap : (k.setTag kind n r unit pc).afmap = k.afmap := by unfold Core.setTag; split <;> rfl
@[simp] theorem Core.setTag_flows : (k.setTag kind n r unit pc).flows = k.flows := by unfold Core.setTag; split <;> rfl
@[simp] theorem Core.setTag_sregs : (k.setTag kind n r unit pc).sregs = k.sregs := by unfold Core.setTag; split <;> rfl
@[simp] theorem Core.setTag_vregs : (k.setTag kind n r unit pc).vregs = k.vregs := by unfold Core.setTag; split <;> rfl
@[simp] theorem Core.setTag_pregs : (k.setTag kind n r unit pc).pregs = k.pregs := by unfold Core.setTag; split <;> rfl
@[simp] theorem Core.setTag_tiles : (k.setTag kind n r unit pc).tiles = k.tiles := by unfold Core.setTag; split <;> rfl
@[simp] theorem Core.setTag_sflags : (k.setTag kind n r unit pc).sflags = k.sflags := by unfold Core.setTag; split <;> rfl
@[simp] theorem Core.setTag_sflagAt : (k.setTag kind n r unit pc).sflagAt = k.sflagAt := by unfold Core.setTag; split <;> rfl
@[simp] theorem Core.setTag_aflags : (k.setTag kind n r unit pc).aflags = k.aflags := by unfold Core.setTag; split <;> rfl
@[simp] theorem Core.setTag_loops : (k.setTag kind n r unit pc).loops = k.loops := by unfold Core.setTag; split <;> rfl
@[simp] theorem Core.setTag_rets : (k.setTag kind n r unit pc).rets = k.rets := by unfold Core.setTag; split <;> rfl
@[simp] theorem Core.setTag_arms : (k.setTag kind n r unit pc).arms = k.arms := by unfold Core.setTag; split <;> rfl
@[simp] theorem Core.setTag_pc : (k.setTag kind n r unit pc).pc = k.pc := by unfold Core.setTag; split <;> rfl
@[simp] theorem Core.setTag_cyc : (k.setTag kind n r unit pc).cyc = k.cyc := by unfold Core.setTag; split <;> rfl
@[simp] theorem Core.setTag_ended : (k.setTag kind n r unit pc).ended = k.ended := by unfold Core.setTag; split <;> rfl
@[simp] theorem Core.setTag_skip : (k.setTag kind n r unit pc).skip = k.skip := by unfold Core.setTag; split <;> rfl
@[simp] theorem Core.setTag_stalled : (k.setTag kind n r unit pc).stalled = k.stalled := by unfold Core.setTag; split <;> rfl
@[simp] theorem Core.setTag_waitFlag : (k.setTag kind n r unit pc).waitFlag = k.waitFlag := by unfold Core.setTag; split <;> rfl
@[simp] theorem Core.setTag_halted : (k.setTag kind n r unit pc).halted = k.halted := by unfold Core.setTag; split <;> rfl
@[simp] theorem Core.setTag_mx : (k.setTag kind n r unit pc).mx = k.mx := by unfold Core.setTag; split <;> rfl
@[simp] theorem Core.setTag_vx : (k.setTag kind n r unit pc).vx = k.vx := by unfold Core.setTag; split <;> rfl
@[simp] theorem Core.setTag_sx : (k.setTag kind n r unit pc).sx = k.sx := by unfold Core.setTag; split <;> rfl
@[simp] theorem Core.setTag_nx : (k.setTag kind n r unit pc).nx = k.nx := by unfold Core.setTag; split <;> rfl
@[simp] theorem Core.setTag_pend : (k.setTag kind n r unit pc).pend = k.pend := by unfold Core.setTag; split <;> rfl
@[simp] theorem Core.setTag_uses : (k.setTag kind n r unit pc).uses = k.uses := by unfold Core.setTag; split <;> rfl
@[simp] theorem Core.setTag_progs : (k.setTag kind n r unit pc).progs = k.progs := by unfold Core.setTag; split <;> rfl
@[simp] theorem Core.setTag_shelf : (k.setTag kind n r unit pc).shelf = k.shelf := by unfold Core.setTag; split <;> rfl
@[simp] theorem Core.setTag_attic : (k.setTag kind n r unit pc).attic = k.attic := by unfold Core.setTag; split <;> rfl
@[simp] theorem Core.setTag_staging : (k.setTag kind n r unit pc).staging = k.staging := by unfold Core.setTag; split <;> rfl
@[simp] theorem Core.setTag_stagingFree : (k.setTag kind n r unit pc).stagingFree = k.stagingFree := by unfold Core.setTag; split <;> rfl
@[simp] theorem Core.setTag_code : (k.setTag kind n r unit pc).code = k.code := by unfold Core.setTag; split <;> rfl
end

section
variable (n : Nat) (v : Word)

@[simp] theorem Core.setSreg_section_ : (k.setSreg n v).section_ = k.section_ := by unfold Core.setSreg; split <;> rfl
@[simp] theorem Core.setSreg_group : (k.setSreg n v).group = k.group := by unfold Core.setSreg; split <;> rfl
@[simp] theorem Core.setSreg_owner : (k.setSreg n v).owner = k.owner := by unfold Core.setSreg; split <;> rfl
@[simp] theorem Core.setSreg_entries : (k.setSreg n v).entries = k.entries := by unfold Core.setSreg; split <;> rfl
@[simp] theorem Core.setSreg_setters : (k.setSreg n v).setters = k.setters := by unfold Core.setSreg; split <;> rfl
@[simp] theorem Core.setSreg_afmap : (k.setSreg n v).afmap = k.afmap := by unfold Core.setSreg; split <;> rfl
@[simp] theorem Core.setSreg_flows : (k.setSreg n v).flows = k.flows := by unfold Core.setSreg; split <;> rfl
@[simp] theorem Core.setSreg_vregs : (k.setSreg n v).vregs = k.vregs := by unfold Core.setSreg; split <;> rfl
@[simp] theorem Core.setSreg_pregs : (k.setSreg n v).pregs = k.pregs := by unfold Core.setSreg; split <;> rfl
@[simp] theorem Core.setSreg_tiles : (k.setSreg n v).tiles = k.tiles := by unfold Core.setSreg; split <;> rfl
@[simp] theorem Core.setSreg_tags : (k.setSreg n v).tags = k.tags := by unfold Core.setSreg; split <;> rfl
@[simp] theorem Core.setSreg_sflags : (k.setSreg n v).sflags = k.sflags := by unfold Core.setSreg; split <;> rfl
@[simp] theorem Core.setSreg_sflagAt : (k.setSreg n v).sflagAt = k.sflagAt := by unfold Core.setSreg; split <;> rfl
@[simp] theorem Core.setSreg_aflags : (k.setSreg n v).aflags = k.aflags := by unfold Core.setSreg; split <;> rfl
@[simp] theorem Core.setSreg_loops : (k.setSreg n v).loops = k.loops := by unfold Core.setSreg; split <;> rfl
@[simp] theorem Core.setSreg_rets : (k.setSreg n v).rets = k.rets := by unfold Core.setSreg; split <;> rfl
@[simp] theorem Core.setSreg_arms : (k.setSreg n v).arms = k.arms := by unfold Core.setSreg; split <;> rfl
@[simp] theorem Core.setSreg_pc : (k.setSreg n v).pc = k.pc := by unfold Core.setSreg; split <;> rfl
@[simp] theorem Core.setSreg_cyc : (k.setSreg n v).cyc = k.cyc := by unfold Core.setSreg; split <;> rfl
@[simp] theorem Core.setSreg_ended : (k.setSreg n v).ended = k.ended := by unfold Core.setSreg; split <;> rfl
@[simp] theorem Core.setSreg_skip : (k.setSreg n v).skip = k.skip := by unfold Core.setSreg; split <;> rfl
@[simp] theorem Core.setSreg_stalled : (k.setSreg n v).stalled = k.stalled := by unfold Core.setSreg; split <;> rfl
@[simp] theorem Core.setSreg_waitFlag : (k.setSreg n v).waitFlag = k.waitFlag := by unfold Core.setSreg; split <;> rfl
@[simp] theorem Core.setSreg_halted : (k.setSreg n v).halted = k.halted := by unfold Core.setSreg; split <;> rfl
@[simp] theorem Core.setSreg_mx : (k.setSreg n v).mx = k.mx := by unfold Core.setSreg; split <;> rfl
@[simp] theorem Core.setSreg_vx : (k.setSreg n v).vx = k.vx := by unfold Core.setSreg; split <;> rfl
@[simp] theorem Core.setSreg_sx : (k.setSreg n v).sx = k.sx := by unfold Core.setSreg; split <;> rfl
@[simp] theorem Core.setSreg_nx : (k.setSreg n v).nx = k.nx := by unfold Core.setSreg; split <;> rfl
@[simp] theorem Core.setSreg_pend : (k.setSreg n v).pend = k.pend := by unfold Core.setSreg; split <;> rfl
@[simp] theorem Core.setSreg_uses : (k.setSreg n v).uses = k.uses := by unfold Core.setSreg; split <;> rfl
@[simp] theorem Core.setSreg_progs : (k.setSreg n v).progs = k.progs := by unfold Core.setSreg; split <;> rfl
@[simp] theorem Core.setSreg_shelf : (k.setSreg n v).shelf = k.shelf := by unfold Core.setSreg; split <;> rfl
@[simp] theorem Core.setSreg_attic : (k.setSreg n v).attic = k.attic := by unfold Core.setSreg; split <;> rfl
@[simp] theorem Core.setSreg_staging : (k.setSreg n v).staging = k.staging := by unfold Core.setSreg; split <;> rfl
@[simp] theorem Core.setSreg_stagingFree : (k.setSreg n v).stagingFree = k.stagingFree := by unfold Core.setSreg; split <;> rfl
@[simp] theorem Core.setSreg_code : (k.setSreg n v).code = k.code := by unfold Core.setSreg; split <;> rfl
end

section
variable (n : Nat) (v : BitVec 256)

@[simp] theorem Core.setVreg_section_ : (k.setVreg n v).section_ = k.section_ := rfl
@[simp] theorem Core.setVreg_group : (k.setVreg n v).group = k.group := rfl
@[simp] theorem Core.setVreg_owner : (k.setVreg n v).owner = k.owner := rfl
@[simp] theorem Core.setVreg_entries : (k.setVreg n v).entries = k.entries := rfl
@[simp] theorem Core.setVreg_setters : (k.setVreg n v).setters = k.setters := rfl
@[simp] theorem Core.setVreg_afmap : (k.setVreg n v).afmap = k.afmap := rfl
@[simp] theorem Core.setVreg_flows : (k.setVreg n v).flows = k.flows := rfl
@[simp] theorem Core.setVreg_sregs : (k.setVreg n v).sregs = k.sregs := rfl
@[simp] theorem Core.setVreg_pregs : (k.setVreg n v).pregs = k.pregs := rfl
@[simp] theorem Core.setVreg_tiles : (k.setVreg n v).tiles = k.tiles := rfl
@[simp] theorem Core.setVreg_tags : (k.setVreg n v).tags = k.tags := rfl
@[simp] theorem Core.setVreg_sflags : (k.setVreg n v).sflags = k.sflags := rfl
@[simp] theorem Core.setVreg_sflagAt : (k.setVreg n v).sflagAt = k.sflagAt := rfl
@[simp] theorem Core.setVreg_aflags : (k.setVreg n v).aflags = k.aflags := rfl
@[simp] theorem Core.setVreg_loops : (k.setVreg n v).loops = k.loops := rfl
@[simp] theorem Core.setVreg_rets : (k.setVreg n v).rets = k.rets := rfl
@[simp] theorem Core.setVreg_arms : (k.setVreg n v).arms = k.arms := rfl
@[simp] theorem Core.setVreg_pc : (k.setVreg n v).pc = k.pc := rfl
@[simp] theorem Core.setVreg_cyc : (k.setVreg n v).cyc = k.cyc := rfl
@[simp] theorem Core.setVreg_ended : (k.setVreg n v).ended = k.ended := rfl
@[simp] theorem Core.setVreg_skip : (k.setVreg n v).skip = k.skip := rfl
@[simp] theorem Core.setVreg_stalled : (k.setVreg n v).stalled = k.stalled := rfl
@[simp] theorem Core.setVreg_waitFlag : (k.setVreg n v).waitFlag = k.waitFlag := rfl
@[simp] theorem Core.setVreg_halted : (k.setVreg n v).halted = k.halted := rfl
@[simp] theorem Core.setVreg_mx : (k.setVreg n v).mx = k.mx := rfl
@[simp] theorem Core.setVreg_vx : (k.setVreg n v).vx = k.vx := rfl
@[simp] theorem Core.setVreg_sx : (k.setVreg n v).sx = k.sx := rfl
@[simp] theorem Core.setVreg_nx : (k.setVreg n v).nx = k.nx := rfl
@[simp] theorem Core.setVreg_pend : (k.setVreg n v).pend = k.pend := rfl
@[simp] theorem Core.setVreg_uses : (k.setVreg n v).uses = k.uses := rfl
@[simp] theorem Core.setVreg_progs : (k.setVreg n v).progs = k.progs := rfl
@[simp] theorem Core.setVreg_shelf : (k.setVreg n v).shelf = k.shelf := rfl
@[simp] theorem Core.setVreg_attic : (k.setVreg n v).attic = k.attic := rfl
@[simp] theorem Core.setVreg_staging : (k.setVreg n v).staging = k.staging := rfl
@[simp] theorem Core.setVreg_stagingFree : (k.setVreg n v).stagingFree = k.stagingFree := rfl
@[simp] theorem Core.setVreg_code : (k.setVreg n v).code = k.code := rfl
end

section
variable (n : Nat) (v : BitVec 16)

@[simp] theorem Core.setPreg_section_ : (k.setPreg n v).section_ = k.section_ := by unfold Core.setPreg; split <;> rfl
@[simp] theorem Core.setPreg_group : (k.setPreg n v).group = k.group := by unfold Core.setPreg; split <;> rfl
@[simp] theorem Core.setPreg_owner : (k.setPreg n v).owner = k.owner := by unfold Core.setPreg; split <;> rfl
@[simp] theorem Core.setPreg_entries : (k.setPreg n v).entries = k.entries := by unfold Core.setPreg; split <;> rfl
@[simp] theorem Core.setPreg_setters : (k.setPreg n v).setters = k.setters := by unfold Core.setPreg; split <;> rfl
@[simp] theorem Core.setPreg_afmap : (k.setPreg n v).afmap = k.afmap := by unfold Core.setPreg; split <;> rfl
@[simp] theorem Core.setPreg_flows : (k.setPreg n v).flows = k.flows := by unfold Core.setPreg; split <;> rfl
@[simp] theorem Core.setPreg_sregs : (k.setPreg n v).sregs = k.sregs := by unfold Core.setPreg; split <;> rfl
@[simp] theorem Core.setPreg_vregs : (k.setPreg n v).vregs = k.vregs := by unfold Core.setPreg; split <;> rfl
@[simp] theorem Core.setPreg_tiles : (k.setPreg n v).tiles = k.tiles := by unfold Core.setPreg; split <;> rfl
@[simp] theorem Core.setPreg_tags : (k.setPreg n v).tags = k.tags := by unfold Core.setPreg; split <;> rfl
@[simp] theorem Core.setPreg_sflags : (k.setPreg n v).sflags = k.sflags := by unfold Core.setPreg; split <;> rfl
@[simp] theorem Core.setPreg_sflagAt : (k.setPreg n v).sflagAt = k.sflagAt := by unfold Core.setPreg; split <;> rfl
@[simp] theorem Core.setPreg_aflags : (k.setPreg n v).aflags = k.aflags := by unfold Core.setPreg; split <;> rfl
@[simp] theorem Core.setPreg_loops : (k.setPreg n v).loops = k.loops := by unfold Core.setPreg; split <;> rfl
@[simp] theorem Core.setPreg_rets : (k.setPreg n v).rets = k.rets := by unfold Core.setPreg; split <;> rfl
@[simp] theorem Core.setPreg_arms : (k.setPreg n v).arms = k.arms := by unfold Core.setPreg; split <;> rfl
@[simp] theorem Core.setPreg_pc : (k.setPreg n v).pc = k.pc := by unfold Core.setPreg; split <;> rfl
@[simp] theorem Core.setPreg_cyc : (k.setPreg n v).cyc = k.cyc := by unfold Core.setPreg; split <;> rfl
@[simp] theorem Core.setPreg_ended : (k.setPreg n v).ended = k.ended := by unfold Core.setPreg; split <;> rfl
@[simp] theorem Core.setPreg_skip : (k.setPreg n v).skip = k.skip := by unfold Core.setPreg; split <;> rfl
@[simp] theorem Core.setPreg_stalled : (k.setPreg n v).stalled = k.stalled := by unfold Core.setPreg; split <;> rfl
@[simp] theorem Core.setPreg_waitFlag : (k.setPreg n v).waitFlag = k.waitFlag := by unfold Core.setPreg; split <;> rfl
@[simp] theorem Core.setPreg_halted : (k.setPreg n v).halted = k.halted := by unfold Core.setPreg; split <;> rfl
@[simp] theorem Core.setPreg_mx : (k.setPreg n v).mx = k.mx := by unfold Core.setPreg; split <;> rfl
@[simp] theorem Core.setPreg_vx : (k.setPreg n v).vx = k.vx := by unfold Core.setPreg; split <;> rfl
@[simp] theorem Core.setPreg_sx : (k.setPreg n v).sx = k.sx := by unfold Core.setPreg; split <;> rfl
@[simp] theorem Core.setPreg_nx : (k.setPreg n v).nx = k.nx := by unfold Core.setPreg; split <;> rfl
@[simp] theorem Core.setPreg_pend : (k.setPreg n v).pend = k.pend := by unfold Core.setPreg; split <;> rfl
@[simp] theorem Core.setPreg_uses : (k.setPreg n v).uses = k.uses := by unfold Core.setPreg; split <;> rfl
@[simp] theorem Core.setPreg_progs : (k.setPreg n v).progs = k.progs := by unfold Core.setPreg; split <;> rfl
@[simp] theorem Core.setPreg_shelf : (k.setPreg n v).shelf = k.shelf := by unfold Core.setPreg; split <;> rfl
@[simp] theorem Core.setPreg_attic : (k.setPreg n v).attic = k.attic := by unfold Core.setPreg; split <;> rfl
@[simp] theorem Core.setPreg_staging : (k.setPreg n v).staging = k.staging := by unfold Core.setPreg; split <;> rfl
@[simp] theorem Core.setPreg_stagingFree : (k.setPreg n v).stagingFree = k.stagingFree := by unfold Core.setPreg; split <;> rfl
@[simp] theorem Core.setPreg_code : (k.setPreg n v).code = k.code := by unfold Core.setPreg; split <;> rfl
end

section
variable (n : Nat) (t : Tile)

@[simp] theorem Core.setTile_section_ : (k.setTile n t).section_ = k.section_ := rfl
@[simp] theorem Core.setTile_group : (k.setTile n t).group = k.group := rfl
@[simp] theorem Core.setTile_owner : (k.setTile n t).owner = k.owner := rfl
@[simp] theorem Core.setTile_entries : (k.setTile n t).entries = k.entries := rfl
@[simp] theorem Core.setTile_setters : (k.setTile n t).setters = k.setters := rfl
@[simp] theorem Core.setTile_afmap : (k.setTile n t).afmap = k.afmap := rfl
@[simp] theorem Core.setTile_flows : (k.setTile n t).flows = k.flows := rfl
@[simp] theorem Core.setTile_sregs : (k.setTile n t).sregs = k.sregs := rfl
@[simp] theorem Core.setTile_vregs : (k.setTile n t).vregs = k.vregs := rfl
@[simp] theorem Core.setTile_pregs : (k.setTile n t).pregs = k.pregs := rfl
@[simp] theorem Core.setTile_tags : (k.setTile n t).tags = k.tags := rfl
@[simp] theorem Core.setTile_sflags : (k.setTile n t).sflags = k.sflags := rfl
@[simp] theorem Core.setTile_sflagAt : (k.setTile n t).sflagAt = k.sflagAt := rfl
@[simp] theorem Core.setTile_aflags : (k.setTile n t).aflags = k.aflags := rfl
@[simp] theorem Core.setTile_loops : (k.setTile n t).loops = k.loops := rfl
@[simp] theorem Core.setTile_rets : (k.setTile n t).rets = k.rets := rfl
@[simp] theorem Core.setTile_arms : (k.setTile n t).arms = k.arms := rfl
@[simp] theorem Core.setTile_pc : (k.setTile n t).pc = k.pc := rfl
@[simp] theorem Core.setTile_cyc : (k.setTile n t).cyc = k.cyc := rfl
@[simp] theorem Core.setTile_ended : (k.setTile n t).ended = k.ended := rfl
@[simp] theorem Core.setTile_skip : (k.setTile n t).skip = k.skip := rfl
@[simp] theorem Core.setTile_stalled : (k.setTile n t).stalled = k.stalled := rfl
@[simp] theorem Core.setTile_waitFlag : (k.setTile n t).waitFlag = k.waitFlag := rfl
@[simp] theorem Core.setTile_halted : (k.setTile n t).halted = k.halted := rfl
@[simp] theorem Core.setTile_mx : (k.setTile n t).mx = k.mx := rfl
@[simp] theorem Core.setTile_vx : (k.setTile n t).vx = k.vx := rfl
@[simp] theorem Core.setTile_sx : (k.setTile n t).sx = k.sx := rfl
@[simp] theorem Core.setTile_nx : (k.setTile n t).nx = k.nx := rfl
@[simp] theorem Core.setTile_pend : (k.setTile n t).pend = k.pend := rfl
@[simp] theorem Core.setTile_uses : (k.setTile n t).uses = k.uses := rfl
@[simp] theorem Core.setTile_progs : (k.setTile n t).progs = k.progs := rfl
@[simp] theorem Core.setTile_shelf : (k.setTile n t).shelf = k.shelf := rfl
@[simp] theorem Core.setTile_attic : (k.setTile n t).attic = k.attic := rfl
@[simp] theorem Core.setTile_staging : (k.setTile n t).staging = k.staging := rfl
@[simp] theorem Core.setTile_stagingFree : (k.setTile n t).stagingFree = k.stagingFree := rfl
@[simp] theorem Core.setTile_code : (k.setTile n t).code = k.code := rfl
end

section
variable (f : Nat)

@[simp] theorem Core.clearFlag_section_ : (k.clearFlag f).section_ = k.section_ := rfl
@[simp] theorem Core.clearFlag_group : (k.clearFlag f).group = k.group := rfl
@[simp] theorem Core.clearFlag_owner : (k.clearFlag f).owner = k.owner := rfl
@[simp] theorem Core.clearFlag_entries : (k.clearFlag f).entries = k.entries := rfl
@[simp] theorem Core.clearFlag_setters : (k.clearFlag f).setters = k.setters := rfl
@[simp] theorem Core.clearFlag_afmap : (k.clearFlag f).afmap = k.afmap := rfl
@[simp] theorem Core.clearFlag_flows : (k.clearFlag f).flows = k.flows := rfl
@[simp] theorem Core.clearFlag_sregs : (k.clearFlag f).sregs = k.sregs := rfl
@[simp] theorem Core.clearFlag_vregs : (k.clearFlag f).vregs = k.vregs := rfl
@[simp] theorem Core.clearFlag_pregs : (k.clearFlag f).pregs = k.pregs := rfl
@[simp] theorem Core.clearFlag_tiles : (k.clearFlag f).tiles = k.tiles := rfl
@[simp] theorem Core.clearFlag_tags : (k.clearFlag f).tags = k.tags := rfl
@[simp] theorem Core.clearFlag_sflagAt : (k.clearFlag f).sflagAt = k.sflagAt := rfl
@[simp] theorem Core.clearFlag_aflags : (k.clearFlag f).aflags = k.aflags := rfl
@[simp] theorem Core.clearFlag_loops : (k.clearFlag f).loops = k.loops := rfl
@[simp] theorem Core.clearFlag_rets : (k.clearFlag f).rets = k.rets := rfl
@[simp] theorem Core.clearFlag_arms : (k.clearFlag f).arms = k.arms := rfl
@[simp] theorem Core.clearFlag_pc : (k.clearFlag f).pc = k.pc := rfl
@[simp] theorem Core.clearFlag_cyc : (k.clearFlag f).cyc = k.cyc := rfl
@[simp] theorem Core.clearFlag_ended : (k.clearFlag f).ended = k.ended := rfl
@[simp] theorem Core.clearFlag_skip : (k.clearFlag f).skip = k.skip := rfl
@[simp] theorem Core.clearFlag_stalled : (k.clearFlag f).stalled = k.stalled := rfl
@[simp] theorem Core.clearFlag_waitFlag : (k.clearFlag f).waitFlag = k.waitFlag := rfl
@[simp] theorem Core.clearFlag_halted : (k.clearFlag f).halted = k.halted := rfl
@[simp] theorem Core.clearFlag_mx : (k.clearFlag f).mx = k.mx := rfl
@[simp] theorem Core.clearFlag_vx : (k.clearFlag f).vx = k.vx := rfl
@[simp] theorem Core.clearFlag_sx : (k.clearFlag f).sx = k.sx := rfl
@[simp] theorem Core.clearFlag_nx : (k.clearFlag f).nx = k.nx := rfl
@[simp] theorem Core.clearFlag_pend : (k.clearFlag f).pend = k.pend := rfl
@[simp] theorem Core.clearFlag_uses : (k.clearFlag f).uses = k.uses := rfl
@[simp] theorem Core.clearFlag_progs : (k.clearFlag f).progs = k.progs := rfl
@[simp] theorem Core.clearFlag_shelf : (k.clearFlag f).shelf = k.shelf := rfl
@[simp] theorem Core.clearFlag_attic : (k.clearFlag f).attic = k.attic := rfl
@[simp] theorem Core.clearFlag_staging : (k.clearFlag f).staging = k.staging := rfl
@[simp] theorem Core.clearFlag_stagingFree : (k.clearFlag f).stagingFree = k.stagingFree := rfl
@[simp] theorem Core.clearFlag_code : (k.clearFlag f).code = k.code := rfl
end

/-! ### Registers (R59) -/

@[simp] theorem Core.sreg_zero : k.sreg 0 = 0 := rfl

@[simp] theorem Core.preg_zero : k.preg 0 = BitVec.allOnes 16 := rfl

@[simp] theorem Core.setSreg_zero (v : Word) : k.setSreg 0 v = k := rfl

@[simp] theorem Core.setPreg_zero (v : BitVec 16) : k.setPreg 0 v = k := rfl

/-- A scalar register after a write of one: s0 stays zero. -/
theorem Core.sreg_setSreg (n m : Nat) (v : Word) : (k.setSreg n v).sreg m = if n = m ∧ n ≠ 0 then v else k.sreg m := by
  unfold Core.setSreg Core.sreg
  by_cases hn : n = 0
  · simp [hn]
  · by_cases hm : m = 0
    · simp [hm, hn]
    · simp [hn, hm, spGet_spSet]

/-- A vector register after a write of one. -/
theorem Core.vreg_setVreg (n m : Nat) (v : BitVec 256) : (k.setVreg n v).vreg m = if n = m then v else k.vreg m :=
  spGet_spSet 0 k.vregs n m v

/-- A predicate register after a write of one: p0 stays all ones. -/
theorem Core.preg_setPreg (n m : Nat) (v : BitVec 16) : (k.setPreg n v).preg m = if n = m ∧ n ≠ 0 then v else k.preg m := by
  unfold Core.setPreg Core.preg
  by_cases hn : n = 0
  · simp [hn]
  · by_cases hm : m = 0
    · simp [hm, hn]
    · simp [hn, hm, spGet_spSet]

/-- A tile after a write of one. -/
theorem Core.tile_setTile (n m : Nat) (t : Tile) : (k.setTile n t).tile m = if n = m then t else k.tile m := spGet_spSet ({} : Tile) k.tiles n m t

/-- An engine after an engine was replaced. -/
theorem Core.eng_setEng (e f : Engine) (x : EngineState) : (k.setEng e x).eng f = if e = f then x else k.eng f := by
  cases e <;> cases f <;> rfl

/-- Replacing an engine leaves everything but the four engines. -/
theorem Core.setEng_eq (e : Engine) (x : EngineState) :
    k.setEng e x = { k with mx := (k.setEng e x).mx, vx := (k.setEng e x).vx, sx := (k.setEng e x).sx, nx := (k.setEng e x).nx } := by
  cases e <;> rfl

end Sys2Proof.Machine
end

