-- ==== Sys2Proof/Laws/State.lean ====
section
/-! SUPPORT. What each named update of the state leaves: one lemma per field and update, true by definition. -/

namespace Sys2Proof.Machine

open Sys2Proof

variable (s : State)


section
variable (n : Nat)

@[simp] theorem State.useFree_variant : (s.useFree n).variant = s.variant := rfl
@[simp] theorem State.useFree_stepping : (s.useFree n).stepping = s.stepping := rfl
@[simp] theorem State.useFree_serial : (s.useFree n).serial = s.serial := rfl
@[simp] theorem State.useFree_boardPos : (s.useFree n).boardPos = s.boardPos := rfl
@[simp] theorem State.useFree_dev : (s.useFree n).dev = s.dev := rfl
@[simp] theorem State.useFree_cores : (s.useFree n).cores = s.cores := rfl
@[simp] theorem State.useFree_contexts : (s.useFree n).contexts = s.contexts := rfl
@[simp] theorem State.useFree_pathUses : (s.useFree n).pathUses = s.pathUses := rfl
@[simp] theorem State.useFree_frame : (s.useFree n).frame = s.frame := rfl
@[simp] theorem State.useFree_freeze : (s.useFree n).freeze = s.freeze := rfl
@[simp] theorem State.useFree_fabric : (s.useFree n).fabric = s.fabric := rfl
@[simp] theorem State.useFree_verA : (s.useFree n).verA = s.verA := rfl
@[simp] theorem State.useFree_verB : (s.useFree n).verB = s.verB := rfl
@[simp] theorem State.useFree_land : (s.useFree n).land = s.land := rfl
@[simp] theorem State.useFree_landQueue : (s.useFree n).landQueue = s.landQueue := rfl
@[simp] theorem State.useFree_capture : (s.useFree n).capture = s.capture := rfl
@[simp] theorem State.useFree_ports : (s.useFree n).ports = s.ports := rfl
@[simp] theorem State.useFree_plan : (s.useFree n).plan = s.plan := rfl
@[simp] theorem State.useFree_noteIn : (s.useFree n).noteIn = s.noteIn := rfl
@[simp] theorem State.useFree_xoff : (s.useFree n).xoff = s.xoff := rfl
@[simp] theorem State.useFree_noteSrcs : (s.useFree n).noteSrcs = s.noteSrcs := rfl
@[simp] theorem State.useFree_noteSeqs : (s.useFree n).noteSeqs = s.noteSeqs := rfl
@[simp] theorem State.useFree_requests : (s.useFree n).requests = s.requests := rfl
@[simp] theorem State.useFree_heldRequests : (s.useFree n).heldRequests = s.heldRequests := rfl
@[simp] theorem State.useFree_resendQueue : (s.useFree n).resendQueue = s.resendQueue := rfl
@[simp] theorem State.useFree_resendPosted : (s.useFree n).resendPosted = s.resendPosted := rfl
@[simp] theorem State.useFree_transit : (s.useFree n).transit = s.transit := rfl
@[simp] theorem State.useFree_cellar : (s.useFree n).cellar = s.cellar := rfl
@[simp] theorem State.useFree_hatch : (s.useFree n).hatch = s.hatch := rfl
@[simp] theorem State.useFree_cmd : (s.useFree n).cmd = s.cmd := rfl
@[simp] theorem State.useFree_mgmt : (s.useFree n).mgmt = s.mgmt := rfl
@[simp] theorem State.useFree_streams : (s.useFree n).streams = s.streams := rfl
@[simp] theorem State.useFree_inv : (s.useFree n).inv = s.inv := rfl
@[simp] theorem State.useFree_time : (s.useFree n).time = s.time := rfl
@[simp] theorem State.useFree_clock : (s.useFree n).clock = s.clock := rfl
@[simp] theorem State.useFree_stats : (s.useFree n).stats = s.stats := rfl
@[simp] theorem State.useFree_alarms : (s.useFree n).alarms = s.alarms := rfl
@[simp] theorem State.useFree_settings : (s.useFree n).settings = s.settings := rfl
@[simp] theorem State.useFree_sec : (s.useFree n).sec = s.sec := rfl
@[simp] theorem State.useFree_resets : (s.useFree n).resets = s.resets := rfl
@[simp] theorem State.useFree_pins : (s.useFree n).pins = s.pins := rfl
@[simp] theorem State.useFree_hostOut : (s.useFree n).hostOut = s.hostOut := rfl
@[simp] theorem State.useFree_pending : (s.useFree n).pending = s.pending := rfl
end

section
variable (c : Nat) (k : Core)

@[simp] theorem State.setCore_variant : (s.setCore c k).variant = s.variant := rfl
@[simp] theorem State.setCore_stepping : (s.setCore c k).stepping = s.stepping := rfl
@[simp] theorem State.setCore_serial : (s.setCore c k).serial = s.serial := rfl
@[simp] theorem State.setCore_boardPos : (s.setCore c k).boardPos = s.boardPos := rfl
@[simp] theorem State.setCore_dev : (s.setCore c k).dev = s.dev := rfl
@[simp] theorem State.setCore_contexts : (s.setCore c k).contexts = s.contexts := rfl
@[simp] theorem State.setCore_pathUses : (s.setCore c k).pathUses = s.pathUses := rfl
@[simp] theorem State.setCore_frame : (s.setCore c k).frame = s.frame := rfl
@[simp] theorem State.setCore_freeze : (s.setCore c k).freeze = s.freeze := rfl
@[simp] theorem State.setCore_fabric : (s.setCore c k).fabric = s.fabric := rfl
@[simp] theorem State.setCore_verA : (s.setCore c k).verA = s.verA := rfl
@[simp] theorem State.setCore_verB : (s.setCore c k).verB = s.verB := rfl
@[simp] theorem State.setCore_land : (s.setCore c k).land = s.land := rfl
@[simp] theorem State.setCore_landQueue : (s.setCore c k).landQueue = s.landQueue := rfl
@[simp] theorem State.setCore_capture : (s.setCore c k).capture = s.capture := rfl
@[simp] theorem State.setCore_ports : (s.setCore c k).ports = s.ports := rfl
@[simp] theorem State.setCore_plan : (s.setCore c k).plan = s.plan := rfl
@[simp] theorem State.setCore_noteIn : (s.setCore c k).noteIn = s.noteIn := rfl
@[simp] theorem State.setCore_xoff : (s.setCore c k).xoff = s.xoff := rfl
@[simp] theorem State.setCore_noteSrcs : (s.setCore c k).noteSrcs = s.noteSrcs := rfl
@[simp] theorem State.setCore_noteSeqs : (s.setCore c k).noteSeqs = s.noteSeqs := rfl
@[simp] theorem State.setCore_requests : (s.setCore c k).requests = s.requests := rfl
@[simp] theorem State.setCore_heldRequests : (s.setCore c k).heldRequests = s.heldRequests := rfl
@[simp] theorem State.setCore_resendQueue : (s.setCore c k).resendQueue = s.resendQueue := rfl
@[simp] theorem State.setCore_resendPosted : (s.setCore c k).resendPosted = s.resendPosted := rfl
@[simp] theorem State.setCore_transit : (s.setCore c k).transit = s.transit := rfl
@[simp] theorem State.setCore_cellar : (s.setCore c k).cellar = s.cellar := rfl
@[simp] theorem State.setCore_hatch : (s.setCore c k).hatch = s.hatch := rfl
@[simp] theorem State.setCore_cmd : (s.setCore c k).cmd = s.cmd := rfl
@[simp] theorem State.setCore_mgmt : (s.setCore c k).mgmt = s.mgmt := rfl
@[simp] theorem State.setCore_streams : (s.setCore c k).streams = s.streams := rfl
@[simp] theorem State.setCore_inv : (s.setCore c k).inv = s.inv := rfl
@[simp] theorem State.setCore_time : (s.setCore c k).time = s.time := rfl
@[simp] theorem State.setCore_clock : (s.setCore c k).clock = s.clock := rfl
@[simp] theorem State.setCore_stats : (s.setCore c k).stats = s.stats := rfl
@[simp] theorem State.setCore_alarms : (s.setCore c k).alarms = s.alarms := rfl
@[simp] theorem State.setCore_settings : (s.setCore c k).settings = s.settings := rfl
@[simp] theorem State.setCore_sec : (s.setCore c k).sec = s.sec := rfl
@[simp] theorem State.setCore_resets : (s.setCore c k).resets = s.resets := rfl
@[simp] theorem State.setCore_pins : (s.setCore c k).pins = s.pins := rfl
@[simp] theorem State.setCore_hostOut : (s.setCore c k).hostOut = s.hostOut := rfl
@[simp] theorem State.setCore_freeCtr : (s.setCore c k).freeCtr = s.freeCtr := rfl
@[simp] theorem State.setCore_pending : (s.setCore c k).pending = s.pending := rfl
end

section
variable (p : Nat) (q : Port)

@[simp] theorem State.setPort_variant : (s.setPort p q).variant = s.variant := rfl
@[simp] theorem State.setPort_stepping : (s.setPort p q).stepping = s.stepping := rfl
@[simp] theorem State.setPort_serial : (s.setPort p q).serial = s.serial := rfl
@[simp] theorem State.setPort_boardPos : (s.setPort p q).boardPos = s.boardPos := rfl
@[simp] theorem State.setPort_dev : (s.setPort p q).dev = s.dev := rfl
@[simp] theorem State.setPort_cores : (s.setPort p q).cores = s.cores := rfl
@[simp] theorem State.setPort_contexts : (s.setPort p q).contexts = s.contexts := rfl
@[simp] theorem State.setPort_pathUses : (s.setPort p q).pathUses = s.pathUses := rfl
@[simp] theorem State.setPort_frame : (s.setPort p q).frame = s.frame := rfl
@[simp] theorem State.setPort_freeze : (s.setPort p q).freeze = s.freeze := rfl
@[simp] theorem State.setPort_fabric : (s.setPort p q).fabric = s.fabric := rfl
@[simp] theorem State.setPort_verA : (s.setPort p q).verA = s.verA := rfl
@[simp] theorem State.setPort_verB : (s.setPort p q).verB = s.verB := rfl
@[simp] theorem State.setPort_land : (s.setPort p q).land = s.land := rfl
@[simp] theorem State.setPort_landQueue : (s.setPort p q).landQueue = s.landQueue := rfl
@[simp] theorem State.setPort_capture : (s.setPort p q).capture = s.capture := rfl
@[simp] theorem State.setPort_plan : (s.setPort p q).plan = s.plan := rfl
@[simp] theorem State.setPort_noteIn : (s.setPort p q).noteIn = s.noteIn := rfl
@[simp] theorem State.setPort_xoff : (s.setPort p q).xoff = s.xoff := rfl
@[simp] theorem State.setPort_noteSrcs : (s.setPort p q).noteSrcs = s.noteSrcs := rfl
@[simp] theorem State.setPort_noteSeqs : (s.setPort p q).noteSeqs = s.noteSeqs := rfl
@[simp] theorem State.setPort_requests : (s.setPort p q).requests = s.requests := rfl
@[simp] theorem State.setPort_heldRequests : (s.setPort p q).heldRequests = s.heldRequests := rfl
@[simp] theorem State.setPort_resendQueue : (s.setPort p q).resendQueue = s.resendQueue := rfl
@[simp] theorem State.setPort_resendPosted : (s.setPort p q).resendPosted = s.resendPosted := rfl
@[simp] theorem State.setPort_transit : (s.setPort p q).transit = s.transit := rfl
@[simp] theorem State.setPort_cellar : (s.setPort p q).cellar = s.cellar := rfl
@[simp] theorem State.setPort_hatch : (s.setPort p q).hatch = s.hatch := rfl
@[simp] theorem State.setPort_cmd : (s.setPort p q).cmd = s.cmd := rfl
@[simp] theorem State.setPort_mgmt : (s.setPort p q).mgmt = s.mgmt := rfl
@[simp] theorem State.setPort_streams : (s.setPort p q).streams = s.streams := rfl
@[simp] theorem State.setPort_inv : (s.setPort p q).inv = s.inv := rfl
@[simp] theorem State.setPort_time : (s.setPort p q).time = s.time := rfl
@[simp] theorem State.setPort_clock : (s.setPort p q).clock = s.clock := rfl
@[simp] theorem State.setPort_stats : (s.setPort p q).stats = s.stats := rfl
@[simp] theorem State.setPort_alarms : (s.setPort p q).alarms = s.alarms := rfl
@[simp] theorem State.setPort_settings : (s.setPort p q).settings = s.settings := rfl
@[simp] theorem State.setPort_sec : (s.setPort p q).sec = s.sec := rfl
@[simp] theorem State.setPort_resets : (s.setPort p q).resets = s.resets := rfl
@[simp] theorem State.setPort_pins : (s.setPort p q).pins = s.pins := rfl
@[simp] theorem State.setPort_hostOut : (s.setPort p q).hostOut = s.hostOut := rfl
@[simp] theorem State.setPort_freeCtr : (s.setPort p q).freeCtr = s.freeCtr := rfl
@[simp] theorem State.setPort_pending : (s.setPort p q).pending = s.pending := rfl
end

section
variable (p : Nat) (f : Port → Port)

@[simp] theorem State.modPort_variant : (s.modPort p f).variant = s.variant := rfl
@[simp] theorem State.modPort_stepping : (s.modPort p f).stepping = s.stepping := rfl
@[simp] theorem State.modPort_serial : (s.modPort p f).serial = s.serial := rfl
@[simp] theorem State.modPort_boardPos : (s.modPort p f).boardPos = s.boardPos := rfl
@[simp] theorem State.modPort_dev : (s.modPort p f).dev = s.dev := rfl
@[simp] theorem State.modPort_cores : (s.modPort p f).cores = s.cores := rfl
@[simp] theorem State.modPort_contexts : (s.modPort p f).contexts = s.contexts := rfl
@[simp] theorem State.modPort_pathUses : (s.modPort p f).pathUses = s.pathUses := rfl
@[simp] theorem State.modPort_frame : (s.modPort p f).frame = s.frame := rfl
@[simp] theorem State.modPort_freeze : (s.modPort p f).freeze = s.freeze := rfl
@[simp] theorem State.modPort_fabric : (s.modPort p f).fabric = s.fabric := rfl
@[simp] theorem State.modPort_verA : (s.modPort p f).verA = s.verA := rfl
@[simp] theorem State.modPort_verB : (s.modPort p f).verB = s.verB := rfl
@[simp] theorem State.modPort_land : (s.modPort p f).land = s.land := rfl
@[simp] theorem State.modPort_landQueue : (s.modPort p f).landQueue = s.landQueue := rfl
@[simp] theorem State.modPort_capture : (s.modPort p f).capture = s.capture := rfl
@[simp] theorem State.modPort_plan : (s.modPort p f).plan = s.plan := rfl
@[simp] theorem State.modPort_noteIn : (s.modPort p f).noteIn = s.noteIn := rfl
@[simp] theorem State.modPort_xoff : (s.modPort p f).xoff = s.xoff := rfl
@[simp] theorem State.modPort_noteSrcs : (s.modPort p f).noteSrcs = s.noteSrcs := rfl
@[simp] theorem State.modPort_noteSeqs : (s.modPort p f).noteSeqs = s.noteSeqs := rfl
@[simp] theorem State.modPort_requests : (s.modPort p f).requests = s.requests := rfl
@[simp] theorem State.modPort_heldRequests : (s.modPort p f).heldRequests = s.heldRequests := rfl
@[simp] theorem State.modPort_resendQueue : (s.modPort p f).resendQueue = s.resendQueue := rfl
@[simp] theorem State.modPort_resendPosted : (s.modPort p f).resendPosted = s.resendPosted := rfl
@[simp] theorem State.modPort_transit : (s.modPort p f).transit = s.transit := rfl
@[simp] theorem State.modPort_cellar : (s.modPort p f).cellar = s.cellar := rfl
@[simp] theorem State.modPort_hatch : (s.modPort p f).hatch = s.hatch := rfl
@[simp] theorem State.modPort_cmd : (s.modPort p f).cmd = s.cmd := rfl
@[simp] theorem State.modPort_mgmt : (s.modPort p f).mgmt = s.mgmt := rfl
@[simp] theorem State.modPort_streams : (s.modPort p f).streams = s.streams := rfl
@[simp] theorem State.modPort_inv : (s.modPort p f).inv = s.inv := rfl
@[simp] theorem State.modPort_time : (s.modPort p f).time = s.time := rfl
@[simp] theorem State.modPort_clock : (s.modPort p f).clock = s.clock := rfl
@[simp] theorem State.modPort_stats : (s.modPort p f).stats = s.stats := rfl
@[simp] theorem State.modPort_alarms : (s.modPort p f).alarms = s.alarms := rfl
@[simp] theorem State.modPort_settings : (s.modPort p f).settings = s.settings := rfl
@[simp] theorem State.modPort_sec : (s.modPort p f).sec = s.sec := rfl
@[simp] theorem State.modPort_resets : (s.modPort p f).resets = s.resets := rfl
@[simp] theorem State.modPort_pins : (s.modPort p f).pins = s.pins := rfl
@[simp] theorem State.modPort_hostOut : (s.modPort p f).hostOut = s.hostOut := rfl
@[simp] theorem State.modPort_freeCtr : (s.modPort p f).freeCtr = s.freeCtr := rfl
@[simp] theorem State.modPort_pending : (s.modPort p f).pending = s.pending := rfl
end

section
variable (k : Nat) (x : Ctl)

@[simp] theorem State.setCtl_variant : (s.setCtl k x).variant = s.variant := rfl
@[simp] theorem State.setCtl_stepping : (s.setCtl k x).stepping = s.stepping := rfl
@[simp] theorem State.setCtl_serial : (s.setCtl k x).serial = s.serial := rfl
@[simp] theorem State.setCtl_boardPos : (s.setCtl k x).boardPos = s.boardPos := rfl
@[simp] theorem State.setCtl_dev : (s.setCtl k x).dev = s.dev := rfl
@[simp] theorem State.setCtl_cores : (s.setCtl k x).cores = s.cores := rfl
@[simp] theorem State.setCtl_contexts : (s.setCtl k x).contexts = s.contexts := rfl
@[simp] theorem State.setCtl_pathUses : (s.setCtl k x).pathUses = s.pathUses := rfl
@[simp] theorem State.setCtl_frame : (s.setCtl k x).frame = s.frame := rfl
@[simp] theorem State.setCtl_freeze : (s.setCtl k x).freeze = s.freeze := rfl
@[simp] theorem State.setCtl_fabric : (s.setCtl k x).fabric = s.fabric := rfl
@[simp] theorem State.setCtl_verA : (s.setCtl k x).verA = s.verA := rfl
@[simp] theorem State.setCtl_verB : (s.setCtl k x).verB = s.verB := rfl
@[simp] theorem State.setCtl_land : (s.setCtl k x).land = s.land := rfl
@[simp] theorem State.setCtl_landQueue : (s.setCtl k x).landQueue = s.landQueue := rfl
@[simp] theorem State.setCtl_capture : (s.setCtl k x).capture = s.capture := rfl
@[simp] theorem State.setCtl_ports : (s.setCtl k x).ports = s.ports := rfl
@[simp] theorem State.setCtl_plan : (s.setCtl k x).plan = s.plan := rfl
@[simp] theorem State.setCtl_noteIn : (s.setCtl k x).noteIn = s.noteIn := rfl
@[simp] theorem State.setCtl_xoff : (s.setCtl k x).xoff = s.xoff := rfl
@[simp] theorem State.setCtl_noteSrcs : (s.setCtl k x).noteSrcs = s.noteSrcs := rfl
@[simp] theorem State.setCtl_noteSeqs : (s.setCtl k x).noteSeqs = s.noteSeqs := rfl
@[simp] theorem State.setCtl_requests : (s.setCtl k x).requests = s.requests := rfl
@[simp] theorem State.setCtl_heldRequests : (s.setCtl k x).heldRequests = s.heldRequests := rfl
@[simp] theorem State.setCtl_resendQueue : (s.setCtl k x).resendQueue = s.resendQueue := rfl
@[simp] theorem State.setCtl_resendPosted : (s.setCtl k x).resendPosted = s.resendPosted := rfl
@[simp] theorem State.setCtl_transit : (s.setCtl k x).transit = s.transit := rfl
@[simp] theorem State.setCtl_hatch : (s.setCtl k x).hatch = s.hatch := rfl
@[simp] theorem State.setCtl_cmd : (s.setCtl k x).cmd = s.cmd := rfl
@[simp] theorem State.setCtl_mgmt : (s.setCtl k x).mgmt = s.mgmt := rfl
@[simp] theorem State.setCtl_streams : (s.setCtl k x).streams = s.streams := rfl
@[simp] theorem State.setCtl_inv : (s.setCtl k x).inv = s.inv := rfl
@[simp] theorem State.setCtl_time : (s.setCtl k x).time = s.time := rfl
@[simp] theorem State.setCtl_clock : (s.setCtl k x).clock = s.clock := rfl
@[simp] theorem State.setCtl_stats : (s.setCtl k x).stats = s.stats := rfl
@[simp] theorem State.setCtl_alarms : (s.setCtl k x).alarms = s.alarms := rfl
@[simp] theorem State.setCtl_settings : (s.setCtl k x).settings = s.settings := rfl
@[simp] theorem State.setCtl_sec : (s.setCtl k x).sec = s.sec := rfl
@[simp] theorem State.setCtl_resets : (s.setCtl k x).resets = s.resets := rfl
@[simp] theorem State.setCtl_pins : (s.setCtl k x).pins = s.pins := rfl
@[simp] theorem State.setCtl_hostOut : (s.setCtl k x).hostOut = s.hostOut := rfl
@[simp] theorem State.setCtl_freeCtr : (s.setCtl k x).freeCtr = s.freeCtr := rfl
@[simp] theorem State.setCtl_pending : (s.setCtl k x).pending = s.pending := rfl
end

section
variable (n : Nat) (e : Stream)

@[simp] theorem State.setStream_variant : (s.setStream n e).variant = s.variant := rfl
@[simp] theorem State.setStream_stepping : (s.setStream n e).stepping = s.stepping := rfl
@[simp] theorem State.setStream_serial : (s.setStream n e).serial = s.serial := rfl
@[simp] theorem State.setStream_boardPos : (s.setStream n e).boardPos = s.boardPos := rfl
@[simp] theorem State.setStream_dev : (s.setStream n e).dev = s.dev := rfl
@[simp] theorem State.setStream_cores : (s.setStream n e).cores = s.cores := rfl
@[simp] theorem State.setStream_contexts : (s.setStream n e).contexts = s.contexts := rfl
@[simp] theorem State.setStream_pathUses : (s.setStream n e).pathUses = s.pathUses := rfl
@[simp] theorem State.setStream_frame : (s.setStream n e).frame = s.frame := rfl
@[simp] theorem State.setStream_freeze : (s.setStream n e).freeze = s.freeze := rfl
@[simp] theorem State.setStream_fabric : (s.setStream n e).fabric = s.fabric := rfl
@[simp] theorem State.setStream_verA : (s.setStream n e).verA = s.verA := rfl
@[simp] theorem State.setStream_verB : (s.setStream n e).verB = s.verB := rfl
@[simp] theorem State.setStream_land : (s.setStream n e).land = s.land := rfl
@[simp] theorem State.setStream_landQueue : (s.setStream n e).landQueue = s.landQueue := rfl
@[simp] theorem State.setStream_capture : (s.setStream n e).capture = s.capture := rfl
@[simp] theorem State.setStream_ports : (s.setStream n e).ports = s.ports := rfl
@[simp] theorem State.setStream_plan : (s.setStream n e).plan = s.plan := rfl
@[simp] theorem State.setStream_noteIn : (s.setStream n e).noteIn = s.noteIn := rfl
@[simp] theorem State.setStream_xoff : (s.setStream n e).xoff = s.xoff := rfl
@[simp] theorem State.setStream_noteSrcs : (s.setStream n e).noteSrcs = s.noteSrcs := rfl
@[simp] theorem State.setStream_noteSeqs : (s.setStream n e).noteSeqs = s.noteSeqs := rfl
@[simp] theorem State.setStream_requests : (s.setStream n e).requests = s.requests := rfl
@[simp] theorem State.setStream_heldRequests : (s.setStream n e).heldRequests = s.heldRequests := rfl
@[simp] theorem State.setStream_resendQueue : (s.setStream n e).resendQueue = s.resendQueue := rfl
@[simp] theorem State.setStream_resendPosted : (s.setStream n e).resendPosted = s.resendPosted := rfl
@[simp] theorem State.setStream_transit : (s.setStream n e).transit = s.transit := rfl
@[simp] theorem State.setStream_cellar : (s.setStream n e).cellar = s.cellar := rfl
@[simp] theorem State.setStream_hatch : (s.setStream n e).hatch = s.hatch := rfl
@[simp] theorem State.setStream_cmd : (s.setStream n e).cmd = s.cmd := rfl
@[simp] theorem State.setStream_mgmt : (s.setStream n e).mgmt = s.mgmt := rfl
@[simp] theorem State.setStream_inv : (s.setStream n e).inv = s.inv := rfl
@[simp] theorem State.setStream_time : (s.setStream n e).time = s.time := rfl
@[simp] theorem State.setStream_clock : (s.setStream n e).clock = s.clock := rfl
@[simp] theorem State.setStream_stats : (s.setStream n e).stats = s.stats := rfl
@[simp] theorem State.setStream_alarms : (s.setStream n e).alarms = s.alarms := rfl
@[simp] theorem State.setStream_settings : (s.setStream n e).settings = s.settings := rfl
@[simp] theorem State.setStream_sec : (s.setStream n e).sec = s.sec := rfl
@[simp] theorem State.setStream_resets : (s.setStream n e).resets = s.resets := rfl
@[simp] theorem State.setStream_pins : (s.setStream n e).pins = s.pins := rfl
@[simp] theorem State.setStream_hostOut : (s.setStream n e).hostOut = s.hostOut := rfl
@[simp] theorem State.setStream_freeCtr : (s.setStream n e).freeCtr = s.freeCtr := rfl
@[simp] theorem State.setStream_pending : (s.setStream n e).pending = s.pending := rfl
end

section
variable (r : NoteSrc)

@[simp] theorem State.setNoteSrc_variant : (s.setNoteSrc r).variant = s.variant := rfl
@[simp] theorem State.setNoteSrc_stepping : (s.setNoteSrc r).stepping = s.stepping := rfl
@[simp] theorem State.setNoteSrc_serial : (s.setNoteSrc r).serial = s.serial := rfl
@[simp] theorem State.setNoteSrc_boardPos : (s.setNoteSrc r).boardPos = s.boardPos := rfl
@[simp] theorem State.setNoteSrc_dev : (s.setNoteSrc r).dev = s.dev := rfl
@[simp] theorem State.setNoteSrc_cores : (s.setNoteSrc r).cores = s.cores := rfl
@[simp] theorem State.setNoteSrc_contexts : (s.setNoteSrc r).contexts = s.contexts := rfl
@[simp] theorem State.setNoteSrc_pathUses : (s.setNoteSrc r).pathUses = s.pathUses := rfl
@[simp] theorem State.setNoteSrc_frame : (s.setNoteSrc r).frame = s.frame := rfl
@[simp] theorem State.setNoteSrc_freeze : (s.setNoteSrc r).freeze = s.freeze := rfl
@[simp] theorem State.setNoteSrc_fabric : (s.setNoteSrc r).fabric = s.fabric := rfl
@[simp] theorem State.setNoteSrc_verA : (s.setNoteSrc r).verA = s.verA := rfl
@[simp] theorem State.setNoteSrc_verB : (s.setNoteSrc r).verB = s.verB := rfl
@[simp] theorem State.setNoteSrc_land : (s.setNoteSrc r).land = s.land := rfl
@[simp] theorem State.setNoteSrc_landQueue : (s.setNoteSrc r).landQueue = s.landQueue := rfl
@[simp] theorem State.setNoteSrc_capture : (s.setNoteSrc r).capture = s.capture := rfl
@[simp] theorem State.setNoteSrc_ports : (s.setNoteSrc r).ports = s.ports := rfl
@[simp] theorem State.setNoteSrc_plan : (s.setNoteSrc r).plan = s.plan := rfl
@[simp] theorem State.setNoteSrc_noteIn : (s.setNoteSrc r).noteIn = s.noteIn := rfl
@[simp] theorem State.setNoteSrc_xoff : (s.setNoteSrc r).xoff = s.xoff := rfl
@[simp] theorem State.setNoteSrc_noteSeqs : (s.setNoteSrc r).noteSeqs = s.noteSeqs := rfl
@[simp] theorem State.setNoteSrc_requests : (s.setNoteSrc r).requests = s.requests := rfl
@[simp] theorem State.setNoteSrc_heldRequests : (s.setNoteSrc r).heldRequests = s.heldRequests := rfl
@[simp] theorem State.setNoteSrc_resendQueue : (s.setNoteSrc r).resendQueue = s.resendQueue := rfl
@[simp] theorem State.setNoteSrc_resendPosted : (s.setNoteSrc r).resendPosted = s.resendPosted := rfl
@[simp] theorem State.setNoteSrc_transit : (s.setNoteSrc r).transit = s.transit := rfl
@[simp] theorem State.setNoteSrc_cellar : (s.setNoteSrc r).cellar = s.cellar := rfl
@[simp] theorem State.setNoteSrc_hatch : (s.setNoteSrc r).hatch = s.hatch := rfl
@[simp] theorem State.setNoteSrc_cmd : (s.setNoteSrc r).cmd = s.cmd := rfl
@[simp] theorem State.setNoteSrc_mgmt : (s.setNoteSrc r).mgmt = s.mgmt := rfl
@[simp] theorem State.setNoteSrc_streams : (s.setNoteSrc r).streams = s.streams := rfl
@[simp] theorem State.setNoteSrc_inv : (s.setNoteSrc r).inv = s.inv := rfl
@[simp] theorem State.setNoteSrc_time : (s.setNoteSrc r).time = s.time := rfl
@[simp] theorem State.setNoteSrc_clock : (s.setNoteSrc r).clock = s.clock := rfl
@[simp] theorem State.setNoteSrc_stats : (s.setNoteSrc r).stats = s.stats := rfl
@[simp] theorem State.setNoteSrc_alarms : (s.setNoteSrc r).alarms = s.alarms := rfl
@[simp] theorem State.setNoteSrc_settings : (s.setNoteSrc r).settings = s.settings := rfl
@[simp] theorem State.setNoteSrc_sec : (s.setNoteSrc r).sec = s.sec := rfl
@[simp] theorem State.setNoteSrc_resets : (s.setNoteSrc r).resets = s.resets := rfl
@[simp] theorem State.setNoteSrc_pins : (s.setNoteSrc r).pins = s.pins := rfl
@[simp] theorem State.setNoteSrc_hostOut : (s.setNoteSrc r).hostOut = s.hostOut := rfl
@[simp] theorem State.setNoteSrc_freeCtr : (s.setNoteSrc r).freeCtr = s.freeCtr := rfl
@[simp] theorem State.setNoteSrc_pending : (s.setNoteSrc r).pending = s.pending := rfl
end

section

@[simp] theorem State.alertLine_variant : (s.alertLine).variant = s.variant := rfl
@[simp] theorem State.alertLine_stepping : (s.alertLine).stepping = s.stepping := rfl
@[simp] theorem State.alertLine_serial : (s.alertLine).serial = s.serial := rfl
@[simp] theorem State.alertLine_boardPos : (s.alertLine).boardPos = s.boardPos := rfl
@[simp] theorem State.alertLine_dev : (s.alertLine).dev = s.dev := rfl
@[simp] theorem State.alertLine_cores : (s.alertLine).cores = s.cores := rfl
@[simp] theorem State.alertLine_contexts : (s.alertLine).contexts = s.contexts := rfl
@[simp] theorem State.alertLine_pathUses : (s.alertLine).pathUses = s.pathUses := rfl
@[simp] theorem State.alertLine_frame : (s.alertLine).frame = s.frame := rfl
@[simp] theorem State.alertLine_freeze : (s.alertLine).freeze = s.freeze := rfl
@[simp] theorem State.alertLine_fabric : (s.alertLine).fabric = s.fabric := rfl
@[simp] theorem State.alertLine_verA : (s.alertLine).verA = s.verA := rfl
@[simp] theorem State.alertLine_verB : (s.alertLine).verB = s.verB := rfl
@[simp] theorem State.alertLine_land : (s.alertLine).land = s.land := rfl
@[simp] theorem State.alertLine_landQueue : (s.alertLine).landQueue = s.landQueue := rfl
@[simp] theorem State.alertLine_capture : (s.alertLine).capture = s.capture := rfl
@[simp] theorem State.alertLine_ports : (s.alertLine).ports = s.ports := rfl
@[simp] theorem State.alertLine_plan : (s.alertLine).plan = s.plan := rfl
@[simp] theorem State.alertLine_noteIn : (s.alertLine).noteIn = s.noteIn := rfl
@[simp] theorem State.alertLine_xoff : (s.alertLine).xoff = s.xoff := rfl
@[simp] theorem State.alertLine_noteSrcs : (s.alertLine).noteSrcs = s.noteSrcs := rfl
@[simp] theorem State.alertLine_noteSeqs : (s.alertLine).noteSeqs = s.noteSeqs := rfl
@[simp] theorem State.alertLine_requests : (s.alertLine).requests = s.requests := rfl
@[simp] theorem State.alertLine_heldRequests : (s.alertLine).heldRequests = s.heldRequests := rfl
@[simp] theorem State.alertLine_resendQueue : (s.alertLine).resendQueue = s.resendQueue := rfl
@[simp] theorem State.alertLine_resendPosted : (s.alertLine).resendPosted = s.resendPosted := rfl
@[simp] theorem State.alertLine_transit : (s.alertLine).transit = s.transit := rfl
@[simp] theorem State.alertLine_cellar : (s.alertLine).cellar = s.cellar := rfl
@[simp] theorem State.alertLine_hatch : (s.alertLine).hatch = s.hatch := rfl
@[simp] theorem State.alertLine_cmd : (s.alertLine).cmd = s.cmd := rfl
@[simp] theorem State.alertLine_mgmt : (s.alertLine).mgmt = s.mgmt := rfl
@[simp] theorem State.alertLine_streams : (s.alertLine).streams = s.streams := rfl
@[simp] theorem State.alertLine_inv : (s.alertLine).inv = s.inv := rfl
@[simp] theorem State.alertLine_time : (s.alertLine).time = s.time := rfl
@[simp] theorem State.alertLine_clock : (s.alertLine).clock = s.clock := rfl
@[simp] theorem State.alertLine_stats : (s.alertLine).stats = s.stats := rfl
@[simp] theorem State.alertLine_alarms : (s.alertLine).alarms = s.alarms := rfl
@[simp] theorem State.alertLine_settings : (s.alertLine).settings = s.settings := rfl
@[simp] theorem State.alertLine_sec : (s.alertLine).sec = s.sec := rfl
@[simp] theorem State.alertLine_resets : (s.alertLine).resets = s.resets := rfl
@[simp] theorem State.alertLine_hostOut : (s.alertLine).hostOut = s.hostOut := rfl
@[simp] theorem State.alertLine_freeCtr : (s.alertLine).freeCtr = s.freeCtr := rfl
@[simp] theorem State.alertLine_pending : (s.alertLine).pending = s.pending := rfl
end

section
variable (a : Nat) (bs : List Byte)

@[simp] theorem State.hatchWrite_variant : (s.hatchWrite a bs).variant = s.variant := rfl
@[simp] theorem State.hatchWrite_stepping : (s.hatchWrite a bs).stepping = s.stepping := rfl
@[simp] theorem State.hatchWrite_serial : (s.hatchWrite a bs).serial = s.serial := rfl
@[simp] theorem State.hatchWrite_boardPos : (s.hatchWrite a bs).boardPos = s.boardPos := rfl
@[simp] theorem State.hatchWrite_dev : (s.hatchWrite a bs).dev = s.dev := rfl
@[simp] theorem State.hatchWrite_cores : (s.hatchWrite a bs).cores = s.cores := rfl
@[simp] theorem State.hatchWrite_contexts : (s.hatchWrite a bs).contexts = s.contexts := rfl
@[simp] theorem State.hatchWrite_pathUses : (s.hatchWrite a bs).pathUses = s.pathUses := rfl
@[simp] theorem State.hatchWrite_frame : (s.hatchWrite a bs).frame = s.frame := rfl
@[simp] theorem State.hatchWrite_freeze : (s.hatchWrite a bs).freeze = s.freeze := rfl
@[simp] theorem State.hatchWrite_fabric : (s.hatchWrite a bs).fabric = s.fabric := rfl
@[simp] theorem State.hatchWrite_verA : (s.hatchWrite a bs).verA = s.verA := rfl
@[simp] theorem State.hatchWrite_verB : (s.hatchWrite a bs).verB = s.verB := rfl
@[simp] theorem State.hatchWrite_land : (s.hatchWrite a bs).land = s.land := rfl
@[simp] theorem State.hatchWrite_landQueue : (s.hatchWrite a bs).landQueue = s.landQueue := rfl
@[simp] theorem State.hatchWrite_capture : (s.hatchWrite a bs).capture = s.capture := rfl
@[simp] theorem State.hatchWrite_ports : (s.hatchWrite a bs).ports = s.ports := rfl
@[simp] theorem State.hatchWrite_plan : (s.hatchWrite a bs).plan = s.plan := rfl
@[simp] theorem State.hatchWrite_noteIn : (s.hatchWrite a bs).noteIn = s.noteIn := rfl
@[simp] theorem State.hatchWrite_xoff : (s.hatchWrite a bs).xoff = s.xoff := rfl
@[simp] theorem State.hatchWrite_noteSrcs : (s.hatchWrite a bs).noteSrcs = s.noteSrcs := rfl
@[simp] theorem State.hatchWrite_noteSeqs : (s.hatchWrite a bs).noteSeqs = s.noteSeqs := rfl
@[simp] theorem State.hatchWrite_requests : (s.hatchWrite a bs).requests = s.requests := rfl
@[simp] theorem State.hatchWrite_heldRequests : (s.hatchWrite a bs).heldRequests = s.heldRequests := rfl
@[simp] theorem State.hatchWrite_resendQueue : (s.hatchWrite a bs).resendQueue = s.resendQueue := rfl
@[simp] theorem State.hatchWrite_resendPosted : (s.hatchWrite a bs).resendPosted = s.resendPosted := rfl
@[simp] theorem State.hatchWrite_transit : (s.hatchWrite a bs).transit = s.transit := rfl
@[simp] theorem State.hatchWrite_cellar : (s.hatchWrite a bs).cellar = s.cellar := rfl
@[simp] theorem State.hatchWrite_cmd : (s.hatchWrite a bs).cmd = s.cmd := rfl
@[simp] theorem State.hatchWrite_mgmt : (s.hatchWrite a bs).mgmt = s.mgmt := rfl
@[simp] theorem State.hatchWrite_streams : (s.hatchWrite a bs).streams = s.streams := rfl
@[simp] theorem State.hatchWrite_inv : (s.hatchWrite a bs).inv = s.inv := rfl
@[simp] theorem State.hatchWrite_time : (s.hatchWrite a bs).time = s.time := rfl
@[simp] theorem State.hatchWrite_clock : (s.hatchWrite a bs).clock = s.clock := rfl
@[simp] theorem State.hatchWrite_stats : (s.hatchWrite a bs).stats = s.stats := rfl
@[simp] theorem State.hatchWrite_alarms : (s.hatchWrite a bs).alarms = s.alarms := rfl
@[simp] theorem State.hatchWrite_settings : (s.hatchWrite a bs).settings = s.settings := rfl
@[simp] theorem State.hatchWrite_sec : (s.hatchWrite a bs).sec = s.sec := rfl
@[simp] theorem State.hatchWrite_resets : (s.hatchWrite a bs).resets = s.resets := rfl
@[simp] theorem State.hatchWrite_pins : (s.hatchWrite a bs).pins = s.pins := rfl
@[simp] theorem State.hatchWrite_hostOut : (s.hatchWrite a bs).hostOut = s.hostOut := rfl
@[simp] theorem State.hatchWrite_freeCtr : (s.hatchWrite a bs).freeCtr = s.freeCtr := rfl
@[simp] theorem State.hatchWrite_pending : (s.hatchWrite a bs).pending = s.pending := rfl
end

section
variable (a : Nat) (bs : List Byte)

@[simp] theorem hostWrite_variant : (hostWrite s a bs).variant = s.variant := rfl
@[simp] theorem hostWrite_stepping : (hostWrite s a bs).stepping = s.stepping := rfl
@[simp] theorem hostWrite_serial : (hostWrite s a bs).serial = s.serial := rfl
@[simp] theorem hostWrite_boardPos : (hostWrite s a bs).boardPos = s.boardPos := rfl
@[simp] theorem hostWrite_dev : (hostWrite s a bs).dev = s.dev := rfl
@[simp] theorem hostWrite_cores : (hostWrite s a bs).cores = s.cores := rfl
@[simp] theorem hostWrite_contexts : (hostWrite s a bs).contexts = s.contexts := rfl
@[simp] theorem hostWrite_pathUses : (hostWrite s a bs).pathUses = s.pathUses := rfl
@[simp] theorem hostWrite_frame : (hostWrite s a bs).frame = s.frame := rfl
@[simp] theorem hostWrite_freeze : (hostWrite s a bs).freeze = s.freeze := rfl
@[simp] theorem hostWrite_fabric : (hostWrite s a bs).fabric = s.fabric := rfl
@[simp] theorem hostWrite_verA : (hostWrite s a bs).verA = s.verA := rfl
@[simp] theorem hostWrite_verB : (hostWrite s a bs).verB = s.verB := rfl
@[simp] theorem hostWrite_land : (hostWrite s a bs).land = s.land := rfl
@[simp] theorem hostWrite_landQueue : (hostWrite s a bs).landQueue = s.landQueue := rfl
@[simp] theorem hostWrite_capture : (hostWrite s a bs).capture = s.capture := rfl
@[simp] theorem hostWrite_ports : (hostWrite s a bs).ports = s.ports := rfl
@[simp] theorem hostWrite_plan : (hostWrite s a bs).plan = s.plan := rfl
@[simp] theorem hostWrite_noteIn : (hostWrite s a bs).noteIn = s.noteIn := rfl
@[simp] theorem hostWrite_xoff : (hostWrite s a bs).xoff = s.xoff := rfl
@[simp] theorem hostWrite_noteSrcs : (hostWrite s a bs).noteSrcs = s.noteSrcs := rfl
@[simp] theorem hostWrite_noteSeqs : (hostWrite s a bs).noteSeqs = s.noteSeqs := rfl
@[simp] theorem hostWrite_requests : (hostWrite s a bs).requests = s.requests := rfl
@[simp] theorem hostWrite_heldRequests : (hostWrite s a bs).heldRequests = s.heldRequests := rfl
@[simp] theorem hostWrite_resendQueue : (hostWrite s a bs).resendQueue = s.resendQueue := rfl
@[simp] theorem hostWrite_resendPosted : (hostWrite s a bs).resendPosted = s.resendPosted := rfl
@[simp] theorem hostWrite_transit : (hostWrite s a bs).transit = s.transit := rfl
@[simp] theorem hostWrite_cellar : (hostWrite s a bs).cellar = s.cellar := rfl
@[simp] theorem hostWrite_hatch : (hostWrite s a bs).hatch = s.hatch := rfl
@[simp] theorem hostWrite_cmd : (hostWrite s a bs).cmd = s.cmd := rfl
@[simp] theorem hostWrite_mgmt : (hostWrite s a bs).mgmt = s.mgmt := rfl
@[simp] theorem hostWrite_streams : (hostWrite s a bs).streams = s.streams := rfl
@[simp] theorem hostWrite_inv : (hostWrite s a bs).inv = s.inv := rfl
@[simp] theorem hostWrite_time : (hostWrite s a bs).time = s.time := rfl
@[simp] theorem hostWrite_clock : (hostWrite s a bs).clock = s.clock := rfl
@[simp] theorem hostWrite_stats : (hostWrite s a bs).stats = s.stats := rfl
@[simp] theorem hostWrite_alarms : (hostWrite s a bs).alarms = s.alarms := rfl
@[simp] theorem hostWrite_settings : (hostWrite s a bs).settings = s.settings := rfl
@[simp] theorem hostWrite_sec : (hostWrite s a bs).sec = s.sec := rfl
@[simp] theorem hostWrite_resets : (hostWrite s a bs).resets = s.resets := rfl
@[simp] theorem hostWrite_pins : (hostWrite s a bs).pins = s.pins := rfl
@[simp] theorem hostWrite_freeCtr : (hostWrite s a bs).freeCtr = s.freeCtr := rfl
@[simp] theorem hostWrite_pending : (hostWrite s a bs).pending = s.pending := rfl
end

section

@[simp] theorem deviceCommit_variant : (deviceCommit s).variant = s.variant := rfl
@[simp] theorem deviceCommit_stepping : (deviceCommit s).stepping = s.stepping := rfl
@[simp] theorem deviceCommit_serial : (deviceCommit s).serial = s.serial := rfl
@[simp] theorem deviceCommit_boardPos : (deviceCommit s).boardPos = s.boardPos := rfl
@[simp] theorem deviceCommit_dev : (deviceCommit s).dev = s.dev := rfl
@[simp] theorem deviceCommit_cores : (deviceCommit s).cores = s.cores := rfl
@[simp] theorem deviceCommit_contexts : (deviceCommit s).contexts = s.contexts := rfl
@[simp] theorem deviceCommit_pathUses : (deviceCommit s).pathUses = s.pathUses := rfl
@[simp] theorem deviceCommit_frame : (deviceCommit s).frame = s.frame := rfl
@[simp] theorem deviceCommit_freeze : (deviceCommit s).freeze = s.freeze := rfl
@[simp] theorem deviceCommit_fabric : (deviceCommit s).fabric = s.fabric := rfl
@[simp] theorem deviceCommit_verA : (deviceCommit s).verA = s.verA := rfl
@[simp] theorem deviceCommit_verB : (deviceCommit s).verB = s.verB := rfl
@[simp] theorem deviceCommit_land : (deviceCommit s).land = s.land := rfl
@[simp] theorem deviceCommit_landQueue : (deviceCommit s).landQueue = s.landQueue := rfl
@[simp] theorem deviceCommit_capture : (deviceCommit s).capture = s.capture := rfl
@[simp] theorem deviceCommit_ports : (deviceCommit s).ports = s.ports := rfl
@[simp] theorem deviceCommit_plan : (deviceCommit s).plan = s.plan := rfl
@[simp] theorem deviceCommit_noteIn : (deviceCommit s).noteIn = s.noteIn := rfl
@[simp] theorem deviceCommit_xoff : (deviceCommit s).xoff = s.xoff := rfl
@[simp] theorem deviceCommit_noteSrcs : (deviceCommit s).noteSrcs = s.noteSrcs := rfl
@[simp] theorem deviceCommit_noteSeqs : (deviceCommit s).noteSeqs = s.noteSeqs := rfl
@[simp] theorem deviceCommit_requests : (deviceCommit s).requests = s.requests := rfl
@[simp] theorem deviceCommit_heldRequests : (deviceCommit s).heldRequests = s.heldRequests := rfl
@[simp] theorem deviceCommit_resendQueue : (deviceCommit s).resendQueue = s.resendQueue := rfl
@[simp] theorem deviceCommit_resendPosted : (deviceCommit s).resendPosted = s.resendPosted := rfl
@[simp] theorem deviceCommit_transit : (deviceCommit s).transit = s.transit := rfl
@[simp] theorem deviceCommit_cellar : (deviceCommit s).cellar = s.cellar := rfl
@[simp] theorem deviceCommit_hatch : (deviceCommit s).hatch = s.hatch := rfl
@[simp] theorem deviceCommit_cmd : (deviceCommit s).cmd = s.cmd := rfl
@[simp] theorem deviceCommit_mgmt : (deviceCommit s).mgmt = s.mgmt := rfl
@[simp] theorem deviceCommit_streams : (deviceCommit s).streams = s.streams := rfl
@[simp] theorem deviceCommit_inv : (deviceCommit s).inv = s.inv := rfl
@[simp] theorem deviceCommit_time : (deviceCommit s).time = s.time := rfl
@[simp] theorem deviceCommit_clock : (deviceCommit s).clock = s.clock := rfl
@[simp] theorem deviceCommit_stats : (deviceCommit s).stats = s.stats := rfl
@[simp] theorem deviceCommit_alarms : (deviceCommit s).alarms = s.alarms := rfl
@[simp] theorem deviceCommit_sec : (deviceCommit s).sec = s.sec := rfl
@[simp] theorem deviceCommit_resets : (deviceCommit s).resets = s.resets := rfl
@[simp] theorem deviceCommit_pins : (deviceCommit s).pins = s.pins := rfl
@[simp] theorem deviceCommit_hostOut : (deviceCommit s).hostOut = s.hostOut := rfl
@[simp] theorem deviceCommit_freeCtr : (deviceCommit s).freeCtr = s.freeCtr := rfl
@[simp] theorem deviceCommit_pending : (deviceCommit s).pending = s.pending := rfl
end

section

@[simp] theorem dropNote_variant : (dropNote s).variant = s.variant := rfl
@[simp] theorem dropNote_stepping : (dropNote s).stepping = s.stepping := rfl
@[simp] theorem dropNote_serial : (dropNote s).serial = s.serial := rfl
@[simp] theorem dropNote_boardPos : (dropNote s).boardPos = s.boardPos := rfl
@[simp] theorem dropNote_dev : (dropNote s).dev = s.dev := rfl
@[simp] theorem dropNote_cores : (dropNote s).cores = s.cores := rfl
@[simp] theorem dropNote_contexts : (dropNote s).contexts = s.contexts := rfl
@[simp] theorem dropNote_pathUses : (dropNote s).pathUses = s.pathUses := rfl
@[simp] theorem dropNote_frame : (dropNote s).frame = s.frame := rfl
@[simp] theorem dropNote_freeze : (dropNote s).freeze = s.freeze := rfl
@[simp] theorem dropNote_verA : (dropNote s).verA = s.verA := rfl
@[simp] theorem dropNote_verB : (dropNote s).verB = s.verB := rfl
@[simp] theorem dropNote_land : (dropNote s).land = s.land := rfl
@[simp] theorem dropNote_landQueue : (dropNote s).landQueue = s.landQueue := rfl
@[simp] theorem dropNote_capture : (dropNote s).capture = s.capture := rfl
@[simp] theorem dropNote_ports : (dropNote s).ports = s.ports := rfl
@[simp] theorem dropNote_plan : (dropNote s).plan = s.plan := rfl
@[simp] theorem dropNote_noteIn : (dropNote s).noteIn = s.noteIn := rfl
@[simp] theorem dropNote_xoff : (dropNote s).xoff = s.xoff := rfl
@[simp] theorem dropNote_noteSrcs : (dropNote s).noteSrcs = s.noteSrcs := rfl
@[simp] theorem dropNote_noteSeqs : (dropNote s).noteSeqs = s.noteSeqs := rfl
@[simp] theorem dropNote_requests : (dropNote s).requests = s.requests := rfl
@[simp] theorem dropNote_heldRequests : (dropNote s).heldRequests = s.heldRequests := rfl
@[simp] theorem dropNote_resendQueue : (dropNote s).resendQueue = s.resendQueue := rfl
@[simp] theorem dropNote_resendPosted : (dropNote s).resendPosted = s.resendPosted := rfl
@[simp] theorem dropNote_transit : (dropNote s).transit = s.transit := rfl
@[simp] theorem dropNote_cellar : (dropNote s).cellar = s.cellar := rfl
@[simp] theorem dropNote_hatch : (dropNote s).hatch = s.hatch := rfl
@[simp] theorem dropNote_cmd : (dropNote s).cmd = s.cmd := rfl
@[simp] theorem dropNote_mgmt : (dropNote s).mgmt = s.mgmt := rfl
@[simp] theorem dropNote_streams : (dropNote s).streams = s.streams := rfl
@[simp] theorem dropNote_inv : (dropNote s).inv = s.inv := rfl
@[simp] theorem dropNote_time : (dropNote s).time = s.time := rfl
@[simp] theorem dropNote_clock : (dropNote s).clock = s.clock := rfl
@[simp] theorem dropNote_stats : (dropNote s).stats = s.stats := rfl
@[simp] theorem dropNote_alarms : (dropNote s).alarms = s.alarms := rfl
@[simp] theorem dropNote_settings : (dropNote s).settings = s.settings := rfl
@[simp] theorem dropNote_sec : (dropNote s).sec = s.sec := rfl
@[simp] theorem dropNote_resets : (dropNote s).resets = s.resets := rfl
@[simp] theorem dropNote_pins : (dropNote s).pins = s.pins := rfl
@[simp] theorem dropNote_hostOut : (dropNote s).hostOut = s.hostOut := rfl
@[simp] theorem dropNote_freeCtr : (dropNote s).freeCtr = s.freeCtr := rfl
@[simp] theorem dropNote_pending : (dropNote s).pending = s.pending := rfl
end

end Sys2Proof.Machine
end

