-- ==== Sys2Proof/Laws/Ops.lean ====
section
/-! SUPPORT. One lemma for each shared operation that says everything it can do: which parts of the state it may replace, with what stays of them. -/

namespace Sys2Proof.Machine

open Sys2Proof

/-! ### Parts -/

@[simp] theorem State.core_setCore (s : State) (c c' : Nat) (k : Core) : (s.setCore c k).core c' = if c = c' then k else s.core c' :=
  spGet_spSet ({} : Core) s.cores c c' k

theorem State.core_setCore_self (s : State) (c : Nat) (k : Core) : (s.setCore c k).core c = k := spGet_spSet_self ({} : Core) s.cores c k

@[simp] theorem State.port_setPort (s : State) (p p' : Nat) (q : Port) : (s.setPort p q).port p' = if p = p' then q else s.port p' :=
  spGet_spSet ({} : Port) s.ports p p' q

@[simp] theorem State.ctl_setCtl (s : State) (k k' : Nat) (x : Ctl) : (s.setCtl k x).ctl k' = if k = k' then x else s.ctl k' :=
  spGet_spSet ({} : Ctl) s.cellar.ctls k k' x

@[simp] theorem State.stream_setStream (s : State) (n n' : Nat) (e : Stream) :
    (s.setStream n e).stream n' = if n = n' then e else s.stream n' := spGet_spSet ({} : Stream) s.streams.entries n n' e

/-- A version after a version was replaced. -/
theorem State.version_setVersion (s : State) (b b' : Bool) (v : TableVersion) :
    (s.setVersion b v).version b' = if b = b' then v else s.version b' := by cases b <;> cases b' <;> rfl

/-- A command of a core is its effect where the core exists, and a fault where it does not. -/
theorem onCore_eq (c : Nat) (s : State) (f : State → State) :
    onCore c s f = if c < coreCount then .next (f s) else .fault .noSuchCore := rfl

theorem onCore_next {c : Nat} (s : State) (f : State → State) (h : c < coreCount) : onCore c s f = .next (f s) := if_pos h

theorem onPort_next {p : Nat} {s : State} (f : State → State) (h : portExists s.variant p = true) : onPort p s f = .next (f s) := if_pos h

theorem onCtl_next {k : Nat} {s : State} (f : State → State) (h : k < 160 * mioCount s.variant) : onCtl k s f = .next (f s) := if_pos h

/-! ### Time -/

/-- Machine time moves on: only the TIME block changes. -/
theorem State.advanceTo_eq (s : State) (t : Nat) : ∃ x, s.advanceTo t = { s with time := x } := by
  unfold State.advanceTo; split
  · exact ⟨_, rfl⟩
  · exact ⟨s.time, rfl⟩

/-- Machine time never moves back, and reaches the time of the event. -/
theorem State.now_advanceTo (s : State) (t : Nat) (h : t < 2 ^ 64) : (s.advanceTo t).now = max s.now t := by
  unfold State.advanceTo; split
  · next hlt =>
    rw [Nat.max_eq_right (Nat.le_of_lt hlt)]
    exact (BitVec.toNat_ofNat t 64).trans (Nat.mod_eq_of_lt h)
  · next hlt => exact (Nat.max_eq_left (Nat.le_of_not_lt hlt)).symm

/-! ### Events, alarms and the latch -/

/-- An event record joins the box-room queue, or is counted as lost. -/
theorem boxEvent_eq (s : State) (kind : Nat) (body : List Byte) :
    ∃ q n, boxEvent s kind body = { s with alarms := { s.alarms with boxQueue := q, lostEvent := n } } := by
  unfold boxEvent; split
  · exact ⟨_, _, rfl⟩
  · split
    · exact ⟨_, _, rfl⟩
    · exact ⟨_, _, rfl⟩

/-- An event message joins the queue, or is counted as dropped. -/
theorem pldmEvent_eq (s : State) (cls : Nat) (body : List Byte) :
    ∃ e n, pldmEvent s cls body = { s with sec := { s.sec with events := e }, alarms := { s.alarms with eventDrops := n } } := by
  unfold pldmEvent; split
  · exact ⟨_, _, rfl⟩
  · exact ⟨_, _, rfl⟩

/-- The device enters a state: its state, the partial blocks of the box room, and an event. -/
theorem setDev_eq (s : State) (d : DevState) :
    ∃ e n p, setDev s d = { s with dev := d, sec := { s.sec with events := e }, alarms := { s.alarms with eventDrops := n, partialDue := p } } := by
  unfold setDev; split
  · exact ⟨_, _, _, rfl⟩
  · obtain ⟨e, n, h⟩ := pldmEvent_eq { s with
      dev := d, alarms := { s.alarms with partialDue := s.alarms.partialDue || d == .idle || d == .loaded || (d == .held && s.frame.stopped) } }
      1 (leBytes 2 0x100 ++ leBytes 1 (devCode d) ++ leBytes 1 (devCode s.dev))
    exact ⟨e, n, _, h⟩

@[simp] theorem setDev_dev (s : State) (d : DevState) : (setDev s d).dev = d := by obtain ⟨e, n, p, h⟩ := setDev_eq s d; rw [h]

/-- An occurrence of an alarm: the alarm block, an event message, and the level of ALERT_N. -/
theorem raiseAlarm_eq (s : State) (reason source : Nat) (body : List Byte) (fault perFrame : Bool) :
    ∃ a e l, raiseAlarm s reason source body fault perFrame =
      { s with alarms := a, sec := { s.sec with events := e }, pins := { s.pins with alertN := l } } ∧ a.latch = s.alarms.latch := by
  have key : ∀ (b : Bool) (x : Alarms) (u : List Byte), ∃ a e,
      (if b = true then pldmEvent { s with alarms := x } 0xF0 u else { s with alarms := x }) =
        { s with alarms := a, sec := { s.sec with events := e } } ∧ a.latch = x.latch := by
    intro b x u
    cases b
    · exact ⟨x, s.sec.events, rfl, rfl⟩
    · obtain ⟨e, n, h⟩ := pldmEvent_eq { s with alarms := x } 0xF0 u
      exact ⟨_, e, h, rfl⟩
  unfold raiseAlarm
  extract_lets a n spill isNew old keyHeld same base upd a1 signal a2 s1
  obtain ⟨x, e, h, hl⟩ := key signal a2 (alarmBytes upd)
  refine ⟨x, e, _, (congrArg State.alertLine h).trans rfl, hl.trans ?_⟩
  simp only [a2]; split <;> rfl

/-- A fault or stop is alarmed, and latched where the latch takes it. -/
theorem latchFault_eq (s : State) (f : FaultRec) (source : Nat) :
    ∃ a e l, latchFault s f source = { s with alarms := a, sec := { s.sec with events := e }, pins := { s.pins with alertN := l } } ∧
      (s.latchTakes f = true → ∃ x, a.latch = some x ∧ x.record = f ∧ x.mt = s.now) ∧ (s.latchTakes f = false → a.latch = s.alarms.latch) := by
  obtain ⟨a, e, l, h, hl⟩ := raiseAlarm_eq s f.reason source (faultBytes f) true false
  unfold latchFault
  simp only [h]
  cases ht : s.latchTakes f
  · exact ⟨a, e, l, rfl, by simp, fun _ => hl⟩
  · obtain ⟨q, n, hb⟩ := boxEvent_eq { s with
      alarms := { a with latch := some { record := f, mt := s.now, slot := alarmPlace s.alarms.slots f.reason source }, larderFault := some f },
      sec := { s.sec with events := e }, pins := { s.pins with alertN := l } }
      0x0A (leBytes 2 f.reason ++ leBytes 2 (alarmPlace s.alarms.slots f.reason source))
    exact ⟨_, e, l, hb, fun _ => ⟨_, rfl, rfl, rfl⟩, by simp⟩

/-! ### Core faults and freezes -/

/-- A core fault halts its core, and enters the freeze network and the fault counter. -/
theorem raiseCore_eq (s : State) (c unit pc cycle : Nat) (f : FaultRec) :
    ∃ x n, raiseCore s c unit pc cycle f =
      { s.setCore c { s.core c with halted := true } with freeze := x, stats := { s.stats with faults := n } } ∧
      x.raised = s.freeze.raised ++ [s.coreRec c unit pc cycle f] := ⟨_, _, rfl, rfl⟩

/-- A freeze request changes the freeze network only. -/
theorem requestFreeze_eq (s : State) (c unit : Nat) (arrival : Bool) (f t pc : Nat) :
    ∃ x, requestFreeze s c unit arrival f t pc = { s with freeze := x } := by
  unfold requestFreeze; dsimp only; split
  · exact ⟨_, rfl⟩
  · exact ⟨_, rfl⟩

/-! ### Replies -/

/-- A reply joins the queue, or is counted as lost. -/
theorem postReply_eq (s : State) (seq status reason : Nat) (results : List (Nat × Byte)) :
    ∃ q n, postReply s seq status reason results = { s with cmd := { s.cmd with queue := q, repliesLost := n } } ∧
      (q = s.cmd.queue ++ [({ seq, status, reason, results } : Reply)] ∧ n = s.cmd.repliesLost ∨ q = s.cmd.queue ∧ n = s.cmd.repliesLost + 1) := by
  unfold postReply; split
  · exact ⟨_, _, rfl, .inr ⟨rfl, rfl⟩⟩
  · exact ⟨_, _, rfl, .inl ⟨rfl, rfl⟩⟩

/-- A reply is queued while the window is enabled and the queue has room (R412). -/
theorem postReply_queued {s : State} (seq status reason : Nat) (results : List (Nat × Byte)) (h : s.cmd.en = true)
    (hq : s.cmd.queue.length < 1024) :
    postReply s seq status reason results =
      { s with cmd := { s.cmd with queue := s.cmd.queue ++ [{ seq, status, reason, results }] } } := by
  unfold postReply; simp [h, hq]

/-- A final reply: the outstanding entry is removed and a reply is posted, where there is one. -/
theorem finishCommand_eq (s : State) (opcode status reason : Nat) (results : List (Nat × Byte)) :
    ∃ o q n, finishCommand s opcode status reason results = { s with cmd := { s.cmd with out := o, queue := q, repliesLost := n } } := by
  unfold finishCommand; split
  · exact ⟨_, _, _, rfl⟩
  · obtain ⟨q, n, h, _⟩ := postReply_eq { s with cmd := { s.cmd with out := s.cmd.out.filter (fun q => q.opcode != opcode) } } _ status reason results
    exact ⟨_, q, n, h⟩

/-! ### Memories in canonical form -/

theorem Memory.wf_writeBytes {m : List (Nat × Byte)} (a : Nat) (bs : List Byte) (h : Memory.wf m = true) : Memory.wf (writeBytes m a bs) = true :=
  spWf_writeBytes a bs h

/-- A write of the Hatch keeps both memories in canonical form, and leaves every Hatch byte outside it. -/
theorem State.memoryOk_hatchWrite {s : State} (a : Nat) (bs : List Byte) (h : s.memoryOk) : (s.hatchWrite a bs).memoryOk :=
  ⟨spWf_writeBytes a bs h.1, h.2⟩

theorem State.hatchWrite_outside (s : State) (a : Nat) (bs : List Byte) {k : Nat} (h : k < a ∨ a + bs.length ≤ k) :
    spGet 0 (s.hatchWrite a bs).hatch.bytes k = spGet 0 s.hatch.bytes k := spGet_writeBytes_outside s.hatch.bytes a bs h

/-- A write of the cellars replaces bytes and errors of sectors only. -/
theorem State.cellarWrite_eq (bs : List Byte) (s : State) (da : Nat) :
    ∃ b e, s.cellarWrite da bs = { s with cellar := { s.cellar with bytes := b, errors := e } } ∧
      (Memory.wf s.cellar.bytes = true → Memory.wf b = true) := by
  induction bs generalizing s da with
  | nil => exact ⟨_, _, rfl, id⟩
  | cons x t ih =>
    unfold State.cellarWrite; split
    · exact ih s (da + 1)
    · obtain ⟨b, e, h, hw⟩ := ih _ (da + 1)
      exact ⟨b, e, h, fun hm => hw (spWf_spSet 0 _ _ hm)⟩

theorem State.memoryOk_cellarWrite {s : State} (da : Nat) (bs : List Byte) (h : s.memoryOk) : (s.cellarWrite da bs).memoryOk := by
  obtain ⟨b, e, he, hw⟩ := State.cellarWrite_eq bs s da
  rw [he]; exact ⟨h.1, hw h.2⟩

/-- A device write of a core is a write of the cellars or of the Hatch, and keeps both in canonical form. -/
theorem State.memoryOk_applyDevice {s : State} (w : MemWrite) (h : s.memoryOk) : (s.applyDevice w).memoryOk := by
  unfold State.applyDevice; split
  · exact State.memoryOk_cellarWrite _ _ h
  · exact State.memoryOk_hatchWrite _ _ h
  · exact h

/-- What every element keeps, a fold keeps. -/
theorem foldl_keeps {α β : Type} {P : α → Prop} (f : α → β → α) (hf : ∀ a b, P a → P (f a b)) (l : List β) {a : α} (h : P a) :
    P (l.foldl f a) := by
  induction l generalizing a with
  | nil => exact h
  | cons b t ih => exact ih (hf a b h)

/-- The writes of a core that have taken place keep the memories in canonical form. -/
theorem memoryOk_settleDevice {s : State} (c t : Nat) (h : s.memoryOk) : (settleDevice s c t).memoryOk := by
  unfold settleDevice; dsimp only; split
  · exact h
  · exact foldl_keeps _ (fun _ w hm => State.memoryOk_applyDevice w hm) _ h

/-- An emptied landing buffer leaves the memories. -/
theorem memoryOk_emptyBuffer {s : State} (c f : Nat) (h : s.memoryOk) : (s.emptyBuffer c f).memoryOk := by
  unfold State.emptyBuffer; split
  · exact h
  · exact h

/-- Bringing a core to a cycle keeps the memories in canonical form. -/
theorem memoryOk_settle {s : State} (c t : Nat) (h : s.memoryOk) : (settle s c t).memoryOk := by
  unfold settle
  extract_lets s0 clears s1
  have h1 : s1.memoryOk := foldl_keeps (P := State.memoryOk) _ (fun _ _ hm => memoryOk_emptyBuffer c _ hm) clears (memoryOk_settleDevice c t h)
  clear_value s1
  split
  next k es _ => exact foldl_keeps (P := State.memoryOk) _ (fun m e (hm : m.memoryOk) => (⟨hm.1, hm.2⟩ : State.memoryOk (raiseCore m _ _ _ _ _))) es h1

end Sys2Proof.Machine
end

