-- ==== Sys2Proof/Laws/Sequencer.lean ====
section
/-! SUPPORT. What the shared operations of a core do: reads, writes and their checks (R54, R82, R83), the issue of a sequencer instruction (R52 to R76),
and the execution of an engine's command (R56, R85). -/

namespace Sys2Proof.Machine

open Sys2Proof

/-! ### Reads and writes of registers -/

theorem tagged_eq_false {kind n : Nat} : tagged kind n = false ↔ (kind = 0 ∨ kind = 2) ∧ n = 0 := by
  unfold tagged; by_cases h0 : kind = 0 <;> by_cases h2 : kind = 2 <;> simp [h0, h2]

/-- A register that may be read passes the check. -/
theorem Core.chkRead_ok {k : Core} {kind n t : Nat} (h : Readable k kind n t) : k.chkRead kind n t = .ok () := by
  unfold Core.chkRead
  rcases h with h | h
  · simp [tagged_eq_false.mpr h]
  · simp [Nat.not_lt.mpr h]

/-- A read that comes too early is fault 0x0101 with its shortfall. -/
theorem Core.chkRead_early {k : Core} {kind n t : Nat} (hg : tagged kind n = true) (h : t < (k.tag kind n).ready) :
    k.chkRead kind n t = .error { reason := 0x0101, object := obj kind n, shortfall := (k.tag kind n).ready - t } := by
  unfold Core.chkRead; simp [hg, h]

theorem Core.readS_ok {k : Core} {n t : Nat} (h : Readable k 0 n t) : k.readS n t = .ok (k.sreg n) := by
  unfold Core.readS; rw [Core.chkRead_ok h]; rfl

theorem Core.readV_ok {k : Core} {n t : Nat} (h : Readable k 1 n t) : k.readV n t = .ok (k.vreg n) := by
  unfold Core.readV; rw [Core.chkRead_ok h]; rfl

theorem Core.readP_ok {k : Core} {n t : Nat} (h : Readable k 2 n t) : k.readP n t = .ok (k.preg n) := by
  unfold Core.readP; rw [Core.chkRead_ok h]; rfl

theorem Core.readT_ok {k : Core} {n t : Nat} (h : Readable k 3 n t) : k.readT n t = .ok (k.tile n) := by
  unfold Core.readT; rw [Core.chkRead_ok h]; rfl

/-- A register that may be written passes both checks. -/
theorem Core.chkWrite_ok {s : State} {k : Core} {kind n r : Nat} (h : Writable s k kind n r) : k.chkWrite kind n r = .ok () := by
  unfold Core.chkWrite
  rcases h.1 with h | h
  · simp [tagged_eq_false.mpr h]
  · simp [Nat.not_le.mpr h]

theorem chkSpill_ok {s : State} {k : Core} {kind n r : Nat} (o : Nat) (h : Writable s k kind n r) : chkSpill s.frame.e r o = .ok () := by
  unfold chkSpill; simp [Nat.not_le.mpr h.2]

/-- A scalar result: the register and its tag. -/
theorem Core.writeS_ok {s : State} {k : Core} {n r : Nat} (v : Word) (unit pc : Nat) (h : Writable s k 0 n r) :
    k.writeS s.frame.e n v r unit pc = .ok ((k.setSreg n v).setTag 0 n r unit pc) := by
  unfold Core.writeS; rw [Core.chkWrite_ok h, chkSpill_ok _ h]; rfl

/-- A check of every element holds where it holds of each. -/
theorem checkAll_ok {α : Type} {f : α → Res Unit} {l : List α} (h : ∀ a ∈ l, f a = .ok ()) : checkAll f l = .ok () := by
  induction l with
  | nil => rfl
  | cons a t ih =>
    unfold checkAll
    rw [h a (by simp)]
    exact ih fun b hb => h b (by simp [hb])

/-! ### The issue of a sequencer instruction -/

/-- The fetch check passes in a page that is ready (R66). -/
theorem Core.chkPage_ok {k : Core} {word t : Nat} (h : (k.tag 6 (word / 96)).ready ≤ t) : k.chkPage word t = .ok () := by
  unfold Core.chkPage; simp [Nat.not_lt.mpr h]

/-- Bringing a core to a cycle does not move its own cycle count. -/
theorem cyc_settle (s : State) (c t : Nat) : ((settle s c t).core c).cyc = (s.core c).cyc := by
  have hraise : ∀ (m : State) (u pc y : Nat) (f : FaultRec), ((raiseCore m c u pc y f).core c).cyc = (m.core c).cyc := by
    intro m u pc y f
    change ((m.setCore c { m.core c with halted := true }).core c).cyc = _
    rw [State.core_setCore_self]
  have hdev : ∀ (m : State) (w : MemWrite), (m.applyDevice w).cores = m.cores := by
    intro m w
    unfold State.applyDevice
    split
    · obtain ⟨b, e, h, -⟩ := State.cellarWrite_eq w.bytes m w.addr; rw [h]
    · rfl
    · rfl
  have h0 : ((settleDevice s c t).core c).cyc = (s.core c).cyc := by
    unfold settleDevice
    extract_lets k due
    split
    · rfl
    · have hc : ∀ (l : List MemWrite) (m : State), (l.foldl State.applyDevice m).cores = m.cores := by
        intro l
        induction l with
        | nil => intro m; rfl
        | cons w r ih => intro m; exact (ih _).trans (hdev m w)
      have e : ∀ m m' : State, m.cores = m'.cores → m.core c = m'.core c := fun _ _ h => by unfold State.core; rw [h]
      rw [e _ _ (hc _ _), State.core_setCore_self]
  have hflag : ∀ (k : Core) (p : Pending), (k.flagAction p).1.cyc = k.cyc := by
    intro k p
    unfold Core.flagAction
    extract_lets k1
    have hk : k1.cyc = k.cyc := by simp only [k1]; split <;> rfl
    split
    · exact hk
    · split <;> exact hk
  have hflags : ∀ (l : List Pending) (a : Core × List (Pending × FaultRec)),
      (l.foldl (fun (acc : Core × List (Pending × FaultRec)) p =>
        match acc.1.flagAction p with
        | (k', none) => (k', acc.2)
        | (k', some e) => (k', acc.2 ++ [e])) a).1.cyc = a.1.cyc := by
    intro l
    induction l with
    | nil => intro a; rfl
    | cons p r ih =>
      intro a
      refine (ih _).trans ?_
      have := hflag a.1 p
      dsimp only
      split <;> simp_all
  have hwrites : ∀ (l : List MemWrite) (k : Core), (l.foldl Core.applyWrite k).cyc = k.cyc := by
    intro l
    induction l with
    | nil => intro k; rfl
    | cons w r ih => intro k; refine (ih _).trans ?_; unfold Core.applyWrite; split <;> rfl
  have hmem : ∀ k : Core, (k.settleMem t).cyc = k.cyc := by
    intro k
    unfold Core.settleMem
    extract_lets due k1 k2
    have h2 : k2.cyc = k.cyc := hwrites _ _
    exact foldl_keeps (P := fun m : Core => m.cyc = k.cyc) _ (fun m p hm => by split <;> exact hm) due h2
  unfold settle
  extract_lets s0 clears s1
  have h1 : (s1.core c).cyc = (s.core c).cyc :=
    foldl_keeps (P := fun m : State => (m.core c).cyc = (s.core c).cyc) _
      (fun m f hm => by unfold State.emptyBuffer; split <;> exact hm) clears h0
  clear_value s1
  split
  next k es hk =>
    refine foldl_keeps (P := fun m : State => (m.core c).cyc = (s.core c).cyc) _
      (fun m e hm => (hraise m _ _ _ _).trans hm) es ?_
    rw [State.core_setCore_self]
    have : k = (((s1.core c).settleMem t).settleFlags t).1 := by rw [hk]
    rw [this]
    exact ((hflags _ _).trans (hmem _)).trans h1

/-- The core that issues is at its own cycle. -/
theorem issuing_cyc (s : State) (c : Nat) : (issuing s c).cyc = (s.core c).cyc := cyc_settle s c _

/-- The word of a core in a page that is ready and not in the range of a `SKIP` has its effect. -/
theorem seqBody_issues {c t : Nat} {s1 : State} {k : Core} {form : Core → Bool → Res Unit} {run : State → Core → Res SeqEff} {e : SeqEff}
    (hw : k.pc ≤ 1535) (hp : k.chkPage k.pc t = .ok ()) (hs : k.skip = 0) (hf : form k false = .ok ())
    (hr : run s1 k = .ok e) : seqBody c t s1 k form run = applySeq s1 c k e := by
  have hw' : ¬ lastWord < k.pc := Nat.not_lt.mpr hw
  unfold seqBody
  split
  next f hd =>
    rw [if_neg hw'] at hd
    simp [hs, hf, hp, bind, Except.bind] at hd
  next => rw [if_neg (by simp [hs]), hr]

/-- An instruction that issues, passes its form and has an effect puts that effect into the state. -/
theorem seqRun_issues {c : Nat} {s : State} {form : Core → Bool → Res Unit} {run : State → Core → Res SeqEff} {e : SeqEff} (h : Issues s c)
    (hf : form (issuing s c) false = .ok ()) (hr : run (atIssue s c) (issuing s c) = .ok e) :
    seqRun c s form run = applySeq (atIssue s c) c (issuing s c) e := by
  have hp := Core.chkPage_ok h.page
  rw [issuing_cyc] at hp
  have ha : ((atIssue s c).core c).halted = false := h.alive
  unfold seqRun
  rw [if_neg (by simp [h.can, h.noWait])]
  change (if ((atIssue s c).core c).halted then atIssue s c else seqBody c (s.core c).cyc (atIssue s c) (issuing s c) form run) = _
  rw [if_neg (by simp [ha]), seqBody_issues h.word hp h.unskipped hf hr]

/-- The effect of an instruction that uses no bank, no generator context and no arrival flag: the core, and `CUR_CYCLE`. -/
theorem applySeq_plain {s : State} {c : Nat} {e : SeqEff} {k : Core} (hu : e.uses = []) (hx : e.ctx = none) (hq : e.request = none)
    (ha : e.core.advance (issuing s c).pc (e.next.getD ((issuing s c).pc + 1)) e.exit = .ok k) :
    applySeq (atIssue s c) c (issuing s c) e = issued s c k := by
  unfold applySeq
  simp only [ha, hu, hx, hq]
  rfl

/-! ### The execution of an engine's command -/

/-- A command that an engine has taken and whose effect is computed puts that effect into the state. -/
theorem engRun_executes {s : State} {c : Nat} {e : Engine} {cop : Nat} {fl : InFlight} {f : State → Core → InFlight → CRes CmdEff} {g : CmdEff}
    (h : Executes s c e cop fl) (hf : f (begun s c e) (fl.view ((s.core c).setEng e { (s.core c).eng e with cur := none })) fl = .ok g) :
    engRun c e cop s f = applyCmd (begun s c e) c e fl
      { g with core := restoreTags fl ((s.core c).setEng e { (s.core c).eng e with cur := none }) g.core } := by
  unfold engRun
  simp only [h.taken]
  rw [if_neg (by simp [h.opcode, h.alive, h.runs])]
  split
  next t r hd => exact absurd (hd.symm.trans hf) (by simp)
  next g' hd =>
    have : g' = g := by simpa using hd.symm.trans hf
    rw [this]
    rfl

/-- The effect of a command without banks, paths, beats or effects elsewhere: the core. -/
theorem applyCmd_plain {s : State} {c : Nat} {e : Engine} {fl : InFlight} (k : Core) : applyCmd s c e fl { core := k } = s.setCore c k := by
  unfold applyCmd
  simp [firstPathConflict, logOther, raiseUse, Core.logUses, State.setCore]

end Sys2Proof.Machine
end

