-- ==== Sys2Proof/WellFormed.lean ====
section
/-! DEFINITION. Well-formed commands: every operand lies in the range of the field or of the part that it names. -/

namespace Sys2Proof.WellFormed

/-- A logical core index (R10, R60). -/
def coreOk (c : Nat) : Bool := decide (c < 81920)

/-- A port index of some variant (R184). -/
def portOk (p : Nat) : Bool := decide (p < 22)

/-- A slot memory controller: 160 × MIO + pseudo-channel (R9, R154). -/
def ctlOk (k : Nat) : Bool := decide (k < 640)

/-- The fields of a command packet (R410). -/
def packetOk (k : Packet) : Bool :=
  decide (k.seq < 2 ^ 32) && decide (k.role < 256) && decide (k.pver < 256) && decide (k.plen < 2 ^ 32) && decide (k.paddr < 2 ^ 64)

/-- A ring slot: a 16-bit opcode and its packet (R410). -/
def slotOk (r : RingSlot) : Bool := decide (r.opcode < 2 ^ 16) && packetOk r.packet

end Sys2Proof.WellFormed

namespace Sys2Proof

open WellFormed

/-- Whether a command names parts and field values that its encodings can carry. -/
def Instr.wf : Instr → Bool
  | .nop c => coreOk c
  | .frameEnd c => coreOk c
  | .loop c len cnt => coreOk c && decide (len < 2048) && decide (cnt < 65536)
  | .brb c _ len tgt cnt => coreOk c && decide (len < 2048) && decide (tgt < 2048) && decide (cnt < 65536)
  | .jmp c tgt => coreOk c && decide (tgt < 2048)
  | .skip c _ len => coreOk c && decide (len < 2048)
  | .call c tgt => coreOk c && decide (tgt < 2048)
  | .ret c => coreOk c
  | .add c _ _ _ => coreOk c
  | .sub c _ _ _ => coreOk c
  | .and c _ _ _ => coreOk c
  | .or c _ _ _ => coreOk c
  | .xor c _ _ _ => coreOk c
  | .shl c _ _ _ => coreOk c
  | .shr c _ _ _ => coreOk c
  | .sra c _ _ _ => coreOk c
  | .mul c _ _ _ => coreOk c
  | .mulhu c _ _ _ => coreOk c
  | .min c _ _ _ => coreOk c
  | .max c _ _ _ => coreOk c
  | .slt c _ _ _ => coreOk c
  | .sltu c _ _ _ => coreOk c
  | .seq c _ _ _ => coreOk c
  | .csel c _ _ _ => coreOk c
  | .addi c _ _ _ => coreOk c
  | .andi c _ _ _ => coreOk c
  | .ori c _ _ _ => coreOk c
  | .xori c _ _ _ => coreOk c
  | .shli c _ _ _ => coreOk c
  | .shri c _ _ _ => coreOk c
  | .srai c _ _ _ => coreOk c
  | .muli c _ _ _ => coreOk c
  | .li c _ _ => coreOk c
  | .lds c _ _ _ _ => coreOk c
  | .sts c _ _ _ _ => coreOk c
  | .rdid c _ => coreOk c
  | .tget c _ _ => coreOk c
  | .waitf c _ => coreOk c
  | .setf c _ => coreOk c
  | .clrf c _ => coreOk c
  | .chka c _ => coreOk c
  | .clra c _ => coreOk c
  | .pset c _ _ => coreOk c
  | .pget c _ _ => coreOk c
  | .gload c _ _ _ => coreOk c
  | .gstep c _ _ => coreOk c
  | .enq c daddr => coreOk c && decide (daddr < 2048)
  | .illegalOpcode c _ => coreOk c
  | .enqueueAfterStall c => coreOk c
  | .engineDispatch c _ => coreOk c
  | .commandComplete c _ => coreOk c
  | .mma c => coreOk c
  | .maxexp c => coreOk c
  | .tclr c => coreOk c
  | .tset c => coreOk c
  | .texp c => coreOk c
  | .texpmx c => coreOk c
  | .toutp c => coreOk c
  | .taddp c => coreOk c
  | .vld c => coreOk c
  | .vst c => coreOk c
  | .vadd c => coreOk c
  | .vsub c => coreOk c
  | .vmul c => coreOk c
  | .vfma c => coreOk c
  | .vdiv c => coreOk c
  | .vmin c => coreOk c
  | .vmax c => coreOk c
  | .vcmp c => coreOk c
  | .sel c => coreOk c
  | .vcvt c => coreOk c
  | .vfn c => coreOk c
  | .vasum c => coreOk c
  | .vainit c => coreOk c
  | .vacvt c => coreOk c
  | .vmaxe c => coreOk c
  | .vargmax c => coreOk c
  | .vmovs c => coreOk c
  | .vbcast c => coreOk c
  | .draw c => coreOk c
  | .gather c => coreOk c
  | .scatter c => coreOk c
  | .xmov c => coreOk c
  | .xput c => coreOk c
  | .xcrd c => coreOk c
  | .xcwr c => coreOk c
  | .xhrd c => coreOk c
  | .xhwr c => coreOk c
  | .xovl c => coreOk c
  | .xstream c => coreOk c
  | .post c => coreOk c
  | .nclra c => coreOk c
  | .streamElement c prog => coreOk c && decide (prog < 16)
  | .streamElementReady c prog => coreOk c && decide (prog < 16)
  | .scheduleEnd => true
  | .freezeHalt => true
  | .freezeResume _ => true
  | .freezeOver => true
  | .circularWait => true
  | .arrivalTimeout => true
  | .faultHalt => true
  | .frameTick ring => ring.all slotOk
  | .frameStart => true
  | .holdHorizon => true
  | .holdTimeout x y z => decide (x < 256) && decide (y < 256) && decide (z < 256)
  | .holdNote x y z frame cause _ => decide (x < 256) && decide (y < 256) && decide (z < 256) && decide (frame < 18446744073709551616) && decide (cause < 256)
  | .ready x y z frame _ => decide (x < 256) && decide (y < 256) && decide (z < 256) && decide (frame < 18446744073709551616)
  | .stop x y z frame reason => decide (x < 256) && decide (y < 256) && decide (z < 256) && decide (frame < 18446744073709551616) && decide (reason < 65536)
  | .detour x y z _ lostPort frame => decide (x < 256) && decide (y < 256) && decide (z < 256) && decide (lostPort < 32) && decide (frame < 18446744073709551616)
  | .detourFlip => true
  | .tableSetWritten => true
  | .resend x y z flow frame first count => decide (x < 256) && decide (y < 256) && decide (z < 256) && decide (flow < 1048576) && decide (frame < 18446744073709551616) && decide (first < 4096) && decide (count < 4096)
  | .resendWaitExpiry c _ => coreOk c
  | .foMsg x y z _ => decide (x < 256) && decide (y < 256) && decide (z < 256)
  | .routedNoteReceive p _ => portOk p
  | .noteGap x y z => decide (x < 256) && decide (y < 256) && decide (z < 256)
  | .roundStart => true
  | .roundMarker p lane _ => portOk p && decide (lane < 16)
  | .dataSlot p slot => portOk p && decide (slot < 1536)
  | .serviceSlot p slot => portOk p && decide (slot < 1536)
  | .containerReceive p _ slot ws => portOk p && decide (slot < 1536) && decide (ws.length ≤ 2) && ws.all (fun w => w.length == 544)
  | .parcelLanding => true
  | .heartbeat p _ => portOk p
  | .portDown p => portOk p
  | .portTrain p _ => portOk p
  | .trainRetry p _ => portOk p
  | .identity p _ => portOk p
  | .idkey p idx _ => portOk p && decide (idx < 256)
  | .idsig p idx _ => portOk p && decide (idx < 256)
  | .identProofChecked p => portOk p
  | .loss p _ slot cause => portOk p && decide (slot < 1536) && decide (cause < 256)
  | .flightMeasure p => portOk p
  | .sync p _ _ => portOk p
  | .holdoverExpiry => true
  | .ethFrameReceive p _ _ => portOk p
  | .ptpMessage p _ => portOk p
  | .ptpAnnounceTimeout => true
  | .transitApply => true
  | .sectorReturn k => ctlOk k
  | .act k delta bank row => ctlOk k && decide (delta < 65536) && decide (bank < 64) && decide (row < 32768)
  | .pre k delta bank => ctlOk k && decide (delta < 65536) && decide (bank < 64)
  | .rd k delta bank row col tag => ctlOk k && decide (delta < 65536) && decide (bank < 64) && decide (row < 32768) && decide (col < 1024) && decide (tag < 256)
  | .wr k delta bank row col tag => ctlOk k && decide (delta < 65536) && decide (bank < 64) && decide (row < 32768) && decide (col < 1024) && decide (tag < 256)
  | .bact k delta bank tag => ctlOk k && decide (delta < 65536) && decide (bank < 64) && decide (tag < 256)
  | .repeat k _ _ _ _ => ctlOk k
  | .gap k delay => ctlOk k && decide (delay < 65536)
  | .progEnd k => ctlOk k
  | .pinnedRefresh k => ctlOk k
  | .scrubWindow k => ctlOk k
  | .retentionRefresh k bank => ctlOk k && decide (bank < 64)
  | .hostHatchWrite off data => decide (off < 268435456) && decide (off % 64 + data.length ≤ 64)
  | .hostHatchRead off len => decide (off < 268435456) && decide (off % 64 + len ≤ 64)
  | .cellarWindowRead off => decide (off < 1099511627776)
  | .cellarWindowWrite off _ => decide (off < 1099511627776)
  | .intake ring => ring.all slotOk
  | .replyWrite => true
  | .longCommandDone => true
  | .ping k => packetOk k
  | .identify k => packetOk k
  | .negotiate k => packetOk k
  | .setMode k => packetOk k
  | .getSettings k => packetOk k
  | .stageSettings k => packetOk k
  | .commitSettings k => packetOk k
  | .loadCrate k => packetOk k
  | .verify k => packetOk k
  | .place k => packetOk k
  | .loadTimetable k => packetOk k
  | .start k => packetOk k
  | .hold k => packetOk k
  | .resume k => packetOk k
  | .abort k => packetOk k
  | .runToFrame k => packetOk k
  | .checkpoint k => packetOk k
  | .restore k => packetOk k
  | .admitStream k => packetOk k
  | .retireStream k => packetOk k
  | .streamStatus k => packetOk k
  | .readInventory k => packetOk k
  | .replayBegin k => packetOk k
  | .getCertificate k => packetOk k
  | .attest k => packetOk k
  | .debugUnlockChallenge k => packetOk k
  | .debugUnlockResponse k => packetOk k
  | .challengeLapse => true
  | .setSlice k => packetOk k
  | .loadTransit k => packetOk k
  | .portDisable k => packetOk k
  | .portEnable k => packetOk k
  | .portRetrain k => packetOk k
  | .discover k => packetOk k
  | .resetSystem k => packetOk k
  | .resetCore k => packetOk k
  | .timeSetUtc k => packetOk k
  | .timeStatus k => packetOk k
  | .firmwareStage k => packetOk k
  | .firmwareActivateMark k => packetOk k
  | .firmwareActivateNow k => packetOk k
  | .cmdEnable _ => true
  | .cmdDisable _ => true
  | .rplConsumedWrite _ => true
  | .reacquire => true
  | .mtNsRead => true
  | .alarmAck slot => decide (slot < 512)
  | .alarmClear => true
  | .rstCauseClear _ => true
  | .sampleCfgWrite p _ => portOk p
  | .ovfGibWrite _ => true
  | .registerWrite addr _ => decide (addr < 268435456)
  | .blockReset kind index => decide (kind < 256) && decide (index < 65536)
  | .blockQuiesceTimeout => true
  | .blockResetDone _ _ => true
  | .ringWrite => true
  | .boxRoomWrite => true
  | .pldmEventSend => true
  | .marginCheck region _ => decide (region < 64)
  | .stretchEventApply region => decide (region < 64)
  | .beatCapture region _ => decide (region < 64)
  | .governorStep power => decide (power < 65536)
  | .autoThrottle => true
  | .targetApply => true
  | .avsConfirm _ => true
  | .sensorSample _ => true
  | .thermalThrottle => true
  | .thermalTrip _ _ => true
  | .thermalTripRelease => true
  | .refclkLoss _ => true
  | .refclkRestore _ => true
  | .ppsInEdge => true
  | .ppsMissing => true
  | .ppsOutEdge => true
  | .railFail rail => decide (rail < 16)
  | .powerOnRelease => true
  | .hbmEnSequence => true
  | .porst _ => true
  | .sysrst _ => true
  | .debugReset _ => true
  | .wdog _ _ => true
  | .cxlHot => true
  | .cxlLdn => true
  | .resetRelease _ => true
  | .tapInstruction code => decide (code < 256)
  | .setEndpointId _ => true
  | .setEventReceiver _ => true
  | .pldmRequest ptype command _ => decide (ptype < 64) && decide (command < 256)
  | .requestUpdate => true
  | .activateFirmware => true
  | .spdmGetVersion => true
  | .spdmGetCapabilities => true
  | .spdmNegotiateAlgorithms => true
  | .spdmGetCertificate slot off _ => decide (slot < 8) && decide (off < 67108864)
  | .spdmChallenge slot _ => decide (slot < 8)
  | .spdmGetMeasurements index _ => decide (index < 65536)
  | .spdmKeyExchange => true
  | .spdmFinish _ => true
  | .spdmKeyUpdate _ => true
  | .spdmHeartbeat _ => true
  | .spdmEndSession _ => true
  | .ideKm _ _ => true
  | .certSigned => true
  | .timeErrExceeded => true
  | .delayReq => true
  | .activeToggle => true
  | .deviceCommitWritten _ => true
  | .pldmFirmwareData _ _ => true

end Sys2Proof
end

