-- ==== Sys2Proof/Tests/Slice0.lean ====
section
/-! SUPPORT. Tests: an ill-formed command for each check of well-formedness, for each statement concrete states and operands that meet its
hypotheses, and small concrete runs of one step. A test that needs a free value to come out one way (a signature that verifies) has that as its
hypothesis: nothing can be proved of an opaque constant. -/

namespace Sys2Proof.Tests

set_option Elab.async false

open Sys2Proof Sys2Proof.Machine

/-! ### Ill-formed commands -/

theorem test_wf_core : (Instr.nop 81920).wf = false := by decide
theorem test_wf_port : (Instr.portDown 22).wf = false := by decide
theorem test_wf_controller : (Instr.progEnd 640).wf = false := by decide
theorem test_wf_packet_seq : (Instr.ping { seq := 4294967296 }).wf = false := by decide
theorem test_wf_packet_role : (Instr.ping { role := 256 }).wf = false := by decide
theorem test_wf_packet_pver : (Instr.ping { pver := 256 }).wf = false := by decide
theorem test_wf_packet_plen : (Instr.ping { plen := 4294967296 }).wf = false := by decide
theorem test_wf_packet_paddr : (Instr.ping { paddr := 18446744073709551616 }).wf = false := by decide
theorem test_wf_slot : (Instr.intake [{ opcode := 65536, packet := {} }]).wf = false := by decide
theorem test_wf_good : (Instr.ping {}).wf = true := by decide

/-- One ill-formed command for each remaining bound, each one past the end of its range. -/
theorem test_wf_control : ∀ i ∈ [Instr.loop 0 2048 0, .loop 0 0 65536, .brb 0 0 2048 0 0, .brb 0 0 0 2048 0, .brb 0 0 0 0 65536, .jmp 0 2048, .skip 0 0 2048,
    .call 0 2048, .enq 0 2048, .streamElement 0 16, .streamElementReady 0 16], i.wf = false := by decide
theorem test_wf_notes : ∀ i ∈ [Instr.holdTimeout 256 0 0, .holdTimeout 0 256 0, .holdTimeout 0 0 256, .stop 0 0 0 (2 ^ 64) 0, .stop 0 0 0 0 65536,
    .foMsg 256 0 0 [], .noteGap 0 256 0, .resend 0 0 0 1048576 0 0 0, .resend 0 0 0 0 0 4096 0, .resend 0 0 0 0 0 0 4096], i.wf = false := by decide
theorem test_wf_ports : ∀ i ∈ [Instr.roundMarker 0 16 [], .dataSlot 0 1536, .serviceSlot 0 1536, .containerReceive 0 0 1536 [], .containerReceive 0 0 0 [[]],
    .containerReceive 0 0 0 (List.replicate 3 (List.replicate 544 0)), .idkey 0 256 [], .idsig 0 256 [], .loss 0 0 1536 0, .loss 0 0 0 256], i.wf = false := by
  decide +kernel
theorem test_wf_dram : ∀ i ∈ [Instr.act 0 65536 0 0, .act 0 0 64 0, .act 0 0 0 32768, .pre 0 0 64, .rd 0 0 0 0 1024 0, .rd 0 0 0 0 0 256, .wr 0 0 64 0 0 0,
    .bact 0 0 0 256, .gap 0 65536, .retentionRefresh 0 64], i.wf = false := by decide
theorem test_wf_host : ∀ i ∈ [Instr.hostHatchWrite 268435456 [], .hostHatchWrite 63 [0, 0], .hostHatchRead 268435456 0, .hostHatchRead 63 2,
    .cellarWindowRead 1099511627776, .cellarWindowWrite 1099511627776 [], .alarmAck 512, .registerWrite 268435456 0, .blockReset 256 0,
    .blockReset 0 65536], i.wf = false := by decide
theorem test_wf_parts : ∀ i ∈ [Instr.marginCheck 64 [], .stretchEventApply 64, .beatCapture 64 0, .governorStep 65536, .railFail 16, .tapInstruction 256,
    .pldmRequest 64 0 [], .pldmRequest 0 256 [], .spdmGetCertificate 8 0 0, .spdmGetCertificate 0 67108864 0, .spdmChallenge 8 [],
    .spdmGetMeasurements 65536 []], i.wf = false := by decide

/-! ### The statements about the sequencer -/

theorem issues_iff (s : State) (c : Nat) : Issues s c ↔ c < 81920 ∧ s.canIssue c = true ∧ (s.core c).waitFlag = none ∧
    (issuing s c).halted = false ∧ (issuing s c).pc ≤ 1535 ∧
    ((issuing s c).tag 6 ((issuing s c).pc / 96)).ready ≤ (issuing s c).cyc ∧ (issuing s c).skip = 0 :=
  ⟨fun h => ⟨h.1, h.2, h.3, h.4, h.5, h.6, h.7⟩, fun h => ⟨h.1, h.2.1, h.2.2.1, h.2.2.2.1, h.2.2.2.2.1, h.2.2.2.2.2.1, h.2.2.2.2.2.2⟩⟩

/-- Whether a check passes. -/
def okRes {α : Type} (r : Res α) : Bool := match r with
  | .ok _ => true
  | .error _ => false

theorem exists_leaves {k : Core} {n : Nat} {ex : Exit} (h : okRes (k.advance k.pc n ex) = true) : ∃ k', LeavesFor k n ex k' := by
  unfold LeavesFor
  cases hk : k.advance k.pc n ex with
  | ok a => exact ⟨a, rfl⟩
  | error e => rw [hk] at h; cases h

/-- Whether a core can fall through. -/
def falls (k : Core) : Bool := okRes (k.advance k.pc (k.pc + 1) .fall)

theorem exists_falls {k : Core} (h : falls k = true) : ∃ k', Falls k k' := exists_leaves h

/-- A package in a frame of 1,000 cycles in which core 0 is `k`. -/
def run0 (k : Core) : State := { dev := .running, frame := { e := 1000 }, cores := [(0, k)] }

/-- A core of the timetable in cycle 7 at word 3. -/
def core0 : Core := { section_ := true, pc := 3, cyc := 7, sregs := [(1, 5), (2, 7)], owner := true }

/-- Core 0 as it issues. -/
def at0 (k : Core) : Core := issuing (run0 k) 0

theorem witness_issues : Issues (run0 core0) 0 := by rw [issues_iff]; decide +kernel

theorem witness_scalarArithmetic :
    (∀ row ∈ aluRowsR 0 3 1 2, Readable (at0 core0) 0 (1 : Fin 32) (at0 core0).cyc ∧ Readable (at0 core0) 0 (2 : Fin 32) (at0 core0).cyc ∧
      Writable (atIssue (run0 core0) 0) (at0 core0) 0 (3 : Fin 32) ((at0 core0).cyc + row.2.1) ∧
      falls (withScalar (at0 core0) (3 : Fin 32) (row.2.2 ((at0 core0).sreg (1 : Fin 32)) ((at0 core0).sreg (2 : Fin 32))) row.2.1) = true) ∧
    (∀ row ∈ aluRowsI 0 0 1 9, Readable (at0 core0) 0 (1 : Fin 32) (at0 core0).cyc ∧
      Writable (atIssue (run0 core0) 0) (at0 core0) 0 (0 : Fin 32) ((at0 core0).cyc + row.2.1) ∧
      falls (withScalar (at0 core0) (0 : Fin 32) (row.2.2 ((at0 core0).sreg (1 : Fin 32)) 9) row.2.1) = true) ∧
    Readable (at0 core0) 2 (1 : Fin 32).val (at0 core0).cyc ∧
    falls (withScalar (at0 core0) 3 0 1) = true := by
  unfold Readable Writable; decide +kernel

/-- A core in a loop of one word with two iterations left and with a return address. -/
def core1 : Core := { core0 with loops := [{ first := 3, last := 3, left := 2 }], rets := [9] }

theorem witness_loop : (at0 core0).loops.length < 4 ∧ 3 + 1532 ≤ 1535 ∧ ¬(1 ≤ (at0 core0).opcodeAt (3 + 1532) ∧ (at0 core0).opcodeAt (3 + 1532) ≤ 7) ∧
    falls { at0 core0 with loops := { first := 4, last := 3 + 1532, left := 65534 } :: (at0 core0).loops } = true := by decide +kernel

theorem witness_control : falls core1 = true ∧ falls { core0 with ended := true } = true ∧
    okRes (core0.advance core0.pc 1535 .jmp) = true ∧ okRes ({ core0 with rets := [4] }.advance core0.pc 1535 .other) = true ∧
    Issues (run0 core1) 0 ∧ (at0 core1).rets = 9 :: [] ∧ okRes ({ core1 with rets := [] }.advance core1.pc 9 .other) = true := by
  rw [issues_iff]; decide +kernel

theorem witness_skip : Readable (at0 core0) 0 (1 : Fin 32) (at0 core0).cyc ∧ (at0 core0).sreg 1 ≠ 0 ∧
    (∀ a ∈ skipEnds (at0 core0) 64, ¬((at0 core0).pc < a ∧ a ≤ (at0 core0).pc + 64)) ∧ falls { at0 core0 with skip := 64 } = true := by
  unfold Readable; decide +kernel

theorem witness_brb_first : Readable (at0 core0) 0 (3 : Fin 32) (at0 core0).cyc ∧ (at0 core0).sreg 3 = 0 ∧ (at0 core0).pc + 1024 ≤ 1535 ∧
    1100 + 436 ≤ 1536 ∧ leaveArms 3 4 .other false 0 (at0 core0).arms = .ok [] ∧
    okRes ({ at0 core0 with arms := [{ second := false, first := 4, last := 3 + 1024, rejoin := 3 + 1025, depth := 0 }] }.advance 3 4 .fall) = true := by
  refine ⟨?_, ?_, ?_, ?_, rfl, ?_⟩ <;> (try unfold Readable) <;> decide +kernel

theorem witness_brb_second : (at0 core0).sreg 1 ≠ 0 ∧ leaveArms 3 1100 .other false 0 (at0 core0).arms = .ok [] ∧
    okRes ({ at0 core0 with arms := [{ second := true, first := 1100, last := 1100 + 436 - 1, rejoin := 3 + 2, depth := 0 }] }.advance
      3 1100 .other) = true := by
  refine ⟨?_, rfl, ?_⟩ <;> decide +kernel

/-- A core whose register s1 holds an address. -/
def coreAddr (a : Word) : Core := { core0 with sregs := [(1, a), (2, 7)] }

/-- The conditions of `LDS` and `STS` that hold for every address. -/
def WordReady (k : Core) : Prop :=
  Issues (run0 k) 0 ∧ Readable (at0 k) 0 (1 : Fin 32) (at0 k).cyc ∧ bit 0xFF (ldsAddr (at0 k) 1 0 / 32 % 8) = true ∧
  Writable (atIssue (run0 k) 0) (at0 k) 0 (3 : Fin 32) ((at0 k).cyc + 2) ∧ Readable (at0 k) 0 (3 : Fin 32) (at0 k).cyc ∧
  (at0 k).cyc + 2 < (atIssue (run0 k) 0).frame.e

theorem witness_word_last : WordReady (coreAddr 0xBFFC) ∧ ldsAddr (at0 (coreAddr 0xBFFC)) 1 0 ≤ 0xBFFF ∧
    ldsAddr (at0 (coreAddr 0xBFFC)) 1 0 % 4 = 0 ∧ BankFree (at0 (coreAddr 0xBFFC)) (ldsAddr (at0 (coreAddr 0xBFFC)) 1 0 / 32 % 8) 8 ∧
    falls (withScalar (at0 (coreAddr 0xBFFC)) 3 (BitVec.ofNat 32 (ofLe ((at0 (coreAddr 0xBFFC)).load .shelf 0xBFFC 4 8))) 2) = true ∧
    falls (withPending (at0 (coreAddr 0xBFFC)) {
      unit := 0, pc := 3, ready := 9
      writes := [{ space := .shelf, core := 0, addr := 0xBFFC, bytes := leBytes 4 ((at0 (coreAddr 0xBFFC)).sreg 3).toNat }] }) = true := by
  unfold WordReady Readable Writable BankFree; rw [issues_iff]; decide +kernel

theorem witness_word_above : WordReady (coreAddr 0xC001) ∧ 0xBFFF < ldsAddr (at0 (coreAddr 0xC001)) 1 0 := by
  unfold WordReady Readable Writable; rw [issues_iff]; decide +kernel

theorem witness_word_misaligned : WordReady (coreAddr 0xBFFE) ∧ ldsAddr (at0 (coreAddr 0xBFFE)) 1 0 ≤ 0xBFFF ∧
    ldsAddr (at0 (coreAddr 0xBFFE)) 1 0 % 4 ≠ 0 := by
  unfold WordReady Readable Writable; rw [issues_iff]; decide +kernel

theorem witness_gload : (at0 (coreAddr 0xBFE0)).owner = true ∧ Readable (at0 (coreAddr 0xBFE0)) 0 (1 : Fin 32) 7 ∧
    7 + 3 < (atIssue (run0 (coreAddr 0xBFE0)) 0).frame.e ∧ WordAccess ((at0 (coreAddr 0xBFE0)).sreg 1).toNat 32 true 0x80 ∧
    BankFree (at0 (coreAddr 0xBFE0)) 7 8 ∧ falls (at0 (coreAddr 0xBFE0)) = true := by
  unfold Readable WordAccess BankFree; decide +kernel

theorem witness_tilePredicateContext : Readable (at0 core0) 3 3 7 ∧ Writable (atIssue (run0 core0) 0) (at0 core0) 0 (3 : Fin 32) 9 ∧
    falls (withScalar (at0 core0) 3 ((at0 core0).tile 3).control 2) = true ∧
    Writable (atIssue (run0 core0) 0) (at0 core0) 2 ((8 : Fin 32).val % 8) 8 ∧
    falls (((at0 core0).setPreg 7 (((at0 core0).sreg 1).setWidth 16)).setTag 2 7 8 0 3) = true ∧ (at0 core0).owner = true ∧
    7 + 2 < (atIssue (run0 core0) 0).frame.e := by
  unfold Readable Writable; decide +kernel

/-- A core with its flags 63 set, the sync flag since cycle 6. -/
def coreFlag : Core := { core0 with sflags := [(63, true)], sflagAt := [(63, 6)], aflags := [(63, true)] }

theorem witness_flags : Issues (run0 coreFlag) 0 ∧ (at0 coreFlag).cyc + 1 < (atIssue (run0 coreFlag) 0).frame.e ∧
    falls (withPending (at0 coreFlag) { unit := 0, pc := 3, ready := 8, flag := some 63 }) = true ∧
    falls (withPending (at0 coreFlag) { unit := 0, pc := 3, ready := 8, clearFlag := some 63 }) = true ∧
    falls (withPending (at0 coreFlag) { unit := 0, pc := 3, ready := 8, clearArrival := some 63 }) = true ∧
    (at0 coreFlag).arrived 63 = true ∧ falls (at0 coreFlag) = true := by
  rw [issues_iff]; decide +kernel

/-- The same core in its wait for the flag. -/
def coreWait : Core := { coreFlag with waitFlag := some 63 }

theorem witness_waitf : Issues (unwaited (run0 coreWait) 0) 0 ∧ ((run0 coreWait).core 0).waitFlag = some 63 ∧
    (issuing (unwaited (run0 coreWait) 0) 0).flagSeen 63 7 = true ∧
    falls ((issuing (unwaited (run0 coreWait) 0) 0).clearFlag 63) = true := by
  rw [issues_iff]; decide +kernel

theorem witness_waitf_clear : Issues (run0 core0) 0 ∧ (issuing (unwaited (run0 core0) 0) 0).flagSeen 63 7 = false ∧
    (atIssue (unwaited (run0 core0) 0) 0).freeze.reqs = [] ∧ (atIssue (unwaited (run0 core0) 0) 0).freeze.held = none := by
  rw [issues_iff]; decide +kernel

theorem witness_illegalOpcode : Issues (run0 core0) 0 ∧ knownOpcode 0xFF = false := by rw [issues_iff]; decide +kernel

/-! ### The statements about the engines -/

/-- A core whose VX has the given command at the head of its queue, enqueued in cycle 7. -/
def coreQueued (d : Desc) : Core := { core0 with vx := { queue := [{ desc := d, enqCycle := 7, pc := 2 }] } }

/-- `VADD` of v1 and v2 into v3, in binary32, that waits for sync flag 63, clears it and sets flag 62. -/
def dVadd : Desc := { eng := 1, cop := 0x12, fmta := 0xA, vd := 3, va := 1, vb := 2, wen := true, wclr := true, wflag := 63, sen := true, sflag := 62 }

theorem witness_dispatch_clear : (0 : Nat) < 81920 ∧ (run0 (coreQueued dVadd)).cycling = true ∧ ((run0 (coreQueued dVadd)).core 0).section_ = true ∧
    ((run0 (coreQueued dVadd)).core 0).halted = false ∧ (((run0 (coreQueued dVadd)).core 0).eng .vx).queue = [{ desc := dVadd, enqCycle := 7, pc := 2 }] ∧
    (((run0 (coreQueued dVadd)).core 0).eng .vx).cur = none ∧ 8 < (run0 (coreQueued dVadd)).heldFrom ∧
    ((settle (run0 (coreQueued dVadd)) 0 8).core 0).halted = false ∧ ((settle (run0 (coreQueued dVadd)) 0 8).core 0).flagSeen 63 8 = false ∧
    (settle (run0 (coreQueued dVadd)) 0 8).freeze.reqs = [] ∧ (settle (run0 (coreQueued dVadd)) 0 8).freeze.held = none := by decide +kernel

/-- The same with the flag set. -/
def coreSeen : Core := { coreQueued dVadd with sflags := [(63, true)], sflagAt := [(63, 6)] }

theorem witness_dispatch : Dispatches (run0 coreSeen) 0 .vx { desc := dVadd, enqCycle := 7, pc := 2 } [] ∧
    okRes (chkDispatch (atDispatch ((settle (run0 coreSeen) 0 8).core 0) { desc := dVadd, enqCycle := 7, pc := 2 }) 1000
      { desc := dVadd, enqCycle := 7, pc := 2 } 8 (timing (settle (run0 coreSeen) 0 8) 0 { desc := dVadd, enqCycle := 7, pc := 2 } 8)) = true := by
  refine ⟨⟨?_, ?_, ?_, ?_, ?_, ?_, ?_, ?_, ?_⟩, ?_⟩ <;> decide +kernel

/-- A core with the descriptor of `VADD` at word 1532, and with the queue of VX as given. -/
def coreEnq (q : List QEntry) : Core := { core0 with
  code := [(1532, 0xA00001211), (1533, 0x204300000)]
  vx := { queue := q } }

theorem witness_descriptor : ((coreEnq []).descAt 1532).cop = 0x12 ∧ ((coreEnq []).descAt 1532).eng = 1 := by decide +kernel

theorem witness_enqueue : Issues (run0 (coreEnq [])) 0 ∧ Enqueues 0 (at0 (coreEnq [])) 1532 ∧ ((at0 (coreEnq [])).eng .vx).full 7 = false ∧
    falls (withCommand (at0 (coreEnq [])) 1532) = true := by
  rw [issues_iff]; unfold Enqueues Readable; decide +kernel

/-- A queue entry of `VADD`. -/
def qVadd (n : Nat) : QEntry := { desc := dVadd, enqCycle := n }

theorem witness_enqueue_full : ((at0 (coreEnq (List.replicate 8 (qVadd 1)))).eng .vx).full 7 = true ∧
    Issues (run0 (coreEnq (List.replicate 8 (qVadd 1)))) 0 ∧ Enqueues 0 (at0 (coreEnq (List.replicate 8 (qVadd 1)))) 1532 := by
  rw [issues_iff]; unfold Enqueues Readable; decide +kernel

/-- A core whose enqueue is stalled, and a dispatch in cycle 20 has freed an entry. -/
def coreStalled : Core := { coreEnq [] with stalled := some 1532, vx := { queue := List.replicate 7 (qVadd 1), freedAt := 20 } }

theorem witness_retried : ((run0 coreStalled).core 0).stalled = some 1532 ∧ ((run0 coreStalled).core 0).halted = false ∧
    (((run0 coreStalled).core 0).eng .vx).queue.length < 8 ∧ Issues (retried (run0 coreStalled) 0 1532) 0 ∧
    Enqueues 0 (issuing (retried (run0 coreStalled) 0 1532) 0) 1532 ∧
    ((issuing (retried (run0 coreStalled) 0 1532) 0).eng .vx).full (issuing (retried (run0 coreStalled) 0 1532) 0).cyc = false ∧
    (issuing (retried (run0 coreStalled) 0 1532) 0).cyc = 21 ∧
    falls (withCommand (issuing (retried (run0 coreStalled) 0 1532) 0) 1532) = true := by
  rw [issues_iff]; unfold Enqueues Readable; decide +kernel

/-- An action of `VADD` that sets flag 62 in cycle 12. -/
def setFlag : Pending := { unit := 2, pc := 2, ready := 12, flag := some 62 }

theorem witness_flagAction : setFlag.clearFlag = none ∧ setFlag.flag = some 62 ∧ spGet false core0.sflags 62 = false ∧
    spGet false { core0 with sflags := [(62, true)] }.sflags 62 = true := by decide +kernel

/-- A core whose VX has executed its command. -/
def coreDone : Core := { core0 with pend := [setFlag] }

theorem witness_complete : (run0 coreDone).cycling = true ∧ ((run0 coreDone).core 0).halted = false ∧ (((run0 coreDone).core 0).eng .vx).cur = none ∧
    setFlag ∈ ((run0 coreDone).core 0).pend ∧ setFlag.unit = unitOf .vx ∧ setFlag.src = none ∧ setFlag.ready < (run0 coreDone).heldFrom ∧
    (∀ q ∈ ((run0 coreDone).core 0).pend, q.unit = unitOf .vx → q.src = none → setFlag.ready ≤ q.ready) := by decide +kernel

theorem executes_iff (s : State) (c : Nat) (e : Engine) (cop : Nat) (fl : InFlight) : Executes s c e cop fl ↔ c < 81920 ∧ s.cycling = true ∧
    (s.core c).halted = false ∧ ((s.core c).eng e).cur = some fl ∧ fl.q.desc.cop = cop :=
  ⟨fun h => ⟨h.1, h.2, h.3, h.4, h.5⟩, fun h => ⟨h.1, h.2.1, h.2.2.1, h.2.2.2.1, h.2.2.2.2⟩⟩

/-- A queue entry of cycle 7 at word 2. -/
def qOf (d : Desc) : QEntry := { desc := d, enqCycle := 7, pc := 2, pred := 0xFFFF }

/-- The command of a queue entry as dispatched in cycle 9. -/
def flOf (q : QEntry) : InFlight := { q := q, d := 9 }

/-- Core 0 as `k` but with engine `e` executing the command of `q`. -/
def runE (e : Engine) (k : Core) (q : QEntry) : State := run0 (k.setEng e { cur := some (flOf q) })

/-- Core 0 as that command sees it. -/
def seen0 (e : Engine) (k : Core) (q : QEntry) : Core := seen (runE e k q) 0 e (flOf q)

/-- The largest binary32 in lane 0 of v1, and v2 as an anchored register with the window of 2^-149. -/
def coreBig : Core := { core0 with vregs := [(1, 0x7F7FFFFF), (2, mkAnchored 0 0 (-149) 24)] }

def dVasum : Desc := { eng := 1, cop := 0x1D, fmta := 0xA, vd := 2, va := 1 }

theorem witness_vasum_breach : Executes (runE .vx coreBig (qOf dVasum)) 0 .vx 0x1D (flOf (qOf dVasum)) ∧
    Readable (seen0 .vx coreBig (qOf dVasum)) 1 1 10 ∧ Readable (seen0 .vx coreBig (qOf dVasum)) 1 2 10 ∧ dVasum.fn ≠ 1 ∧
    (((List.range (laneCount (dVasum.fmta == 0xA))).filter (fun i => dVasum.pred == 0 || bit (qOf dVasum).pred.toNat i)).foldl
      (fun (p : Partial) i => p.add (ancWexp ((seen0 .vx coreBig (qOf dVasum)).vreg 2)).toInt (ancH ((seen0 .vx coreBig (qOf dVasum)).vreg 2)).toNat
        (decodeVal 0xA (laneOf true ((seen0 .vx coreBig (qOf dVasum)).vreg 1) i))) {}).breach = true := by
  rw [executes_iff]; unfold Readable; decide +kernel

/-- An overlay of two pages from page 0 on, the page of the core's own word. -/
def dXovl : Desc := { eng := 2, cop := 0x38, count := 2, fn := 0, opnd0 := 0x40000 }

theorem witness_xovl_inUse : Executes (runE .sx core0 (qOf dXovl)) 0 .sx 0x38 (flOf (qOf dXovl)) ∧
    OperandAt (flOf (qOf dXovl)) dXovl.opnd0 (qOf dXovl).base0 (768 * dXovl.count) .staging 0 ∧
    (∃ i, i < dXovl.count ∧ dXovl.fn + i ∈ (seen0 .sx core0 (qOf dXovl)).pagesInUse) := by
  rw [executes_iff]; unfold OperandAt; exact ⟨by decide, by decide, 0, by decide +kernel⟩

/-- Two parcels from shelf address 0 on. -/
def dPost : Desc := { eng := 3, cop := 0x40, count := 2, bankm := 0xFF }

/-- A core that owns flow 5 with two parcels, of which one is posted. -/
def coreFlow (n : Nat) : Core := { core0 with flows := [{ flow := 5, count := 2, posted := n }] }

/-- The entry of `POST` to the flow in its scalar. -/
def qPost (flow : Word) : QEntry := { qOf dPost with sa := flow }

theorem witness_post_notOwned : Executes (runE .nx (coreFlow 0) (qPost 6)) 0 .nx 0x40 (flOf (qPost 6)) ∧
    OperandAt (flOf (qPost 6)) dPost.opnd0 0 (256 * dPost.count) .shelf 0 ∧
    (seen0 .nx (coreFlow 0) (qPost 6)).flows.find? (fun f => f.flow == 6) = none := by
  rw [executes_iff]; unfold OperandAt; decide +kernel

theorem witness_post_over : Executes (runE .nx (coreFlow 1) (qPost 5)) 0 .nx 0x40 (flOf (qPost 5)) ∧
    (seen0 .nx (coreFlow 1) (qPost 5)).flows.find? (fun f => f.flow == 5) = some { flow := 5, count := 2, posted := 1 } ∧ 2 < 1 + dPost.count := by
  rw [executes_iff]; decide +kernel

/-! ### The commands of VX -/

/-- Core 0 with binary32 1.0 in the lanes of v1, 2.0 in those of v2, and v3 as an anchored register with the window of 2^-149. -/
def coreVec : Core := { core0 with
  vregs := [(1, packVec true (List.replicate 8 0x3F800000)), (2, packVec true (List.replicate 8 0x40000000)), (3, mkAnchored 1 0 (-149) 24),
    (4, mkAnchored 2 1 (-149) 24)]
  pregs := [(1, 0x0F)] }

/-- A command of VX in binary32 from v1 and v2 to v3, under p1. -/
def dVx (cop : Nat) : Desc := { eng := 1, cop := cop, fmta := 0xA, fmtd := 0xA, vd := 3, va := 1, vb := 2, pred := 1, fn := 1 }

/-- Its entry, with the predicate as it read it. -/
def qVx (cop : Nat) : QEntry := { qOf (dVx cop) with pred := 0x0F }

theorem witness_vectorArithmetic : ∀ row ∈ vxRows 0,
    (0 < 81920 ∧ (runE .vx coreVec (qVx row.2.1)).cycling = true ∧ ((runE .vx coreVec (qVx row.2.1)).core 0).halted = false ∧
      (((runE .vx coreVec (qVx row.2.1)).core 0).eng .vx).cur = some (flOf (qVx row.2.1)) ∧ (flOf (qVx row.2.1)).q.desc.cop = row.2.1) ∧
    VxReady (seen0 .vx coreVec (qVx row.2.1)) (flOf (qVx row.2.1)) (if row.2.2.1 then [1, 2, 3] else [1, 2]) := by
  unfold VxReady Readable; decide +kernel

theorem witness_vcmp : Executes (runE .vx coreVec (qVx 0x19)) 0 .vx 0x19 (flOf (qVx 0x19)) ∧
    Readable (seen0 .vx coreVec (qVx 0x19)) 1 1 10 ∧ Readable (seen0 .vx coreVec (qVx 0x19)) 1 2 10 ∧
    Readable (seen0 .vx coreVec (qVx 0x19)) 2 ((dVx 0x19).fn % 8) 10 := by
  rw [executes_iff]; unfold Readable; decide +kernel

theorem witness_sel : Executes (runE .vx coreVec (qVx 0x1A)) 0 .vx 0x1A (flOf (qVx 0x1A)) ∧
    Readable (seen0 .vx coreVec (qVx 0x1A)) 1 1 10 ∧ Readable (seen0 .vx coreVec (qVx 0x1A)) 1 2 10 := by
  rw [executes_iff]; unfold Readable; decide +kernel

/-- A stochastic `VCVT`. -/
def qVcvt : QEntry := { qVx 0x1B with desc := { dVx 0x1B with rnd := 4 } }

theorem witness_vcvt : Executes (runE .vx coreVec qVcvt) 0 .vx 0x1B (flOf qVcvt) ∧ VxReady (seen0 .vx coreVec qVcvt) (flOf qVcvt) [1] ∧
    GeneratorReady (runE .vx coreVec qVcvt) 0 (flOf qVcvt) := by
  rw [executes_iff]; unfold VxReady Readable GeneratorReady GeneratorFree; decide +kernel

theorem witness_vfn : Executes (runE .vx coreVec (qVx 0x1C)) 0 .vx 0x1C (flOf (qVx 0x1C)) ∧
    VxReady (seen0 .vx coreVec (qVx 0x1C)) (flOf (qVx 0x1C)) [1] := by
  rw [executes_iff]; unfold VxReady Readable; decide +kernel

theorem witness_lanes : (List.replicate 8 0xFFFFFFFF).length = laneCount true ∧ (∀ x ∈ List.replicate 8 0xFFFFFFFF, x < 2 ^ 32) ∧
    (List.replicate 16 0xFFFF).length = laneCount false ∧ (∀ x ∈ List.replicate 16 0xFFFF, x < 2 ^ 16) := by decide +kernel

theorem witness_vainit : Executes (runE .vx coreVec (qVx 0x1E)) 0 .vx 0x1E (flOf (qVx 0x1E)) := by rw [executes_iff]; decide +kernel

/-- An anchored sum of lanes, or of the register v4. -/
def qVasum (fn va : Nat) : QEntry := { qOf { eng := 1, cop := 0x1D, fmta := 0xA, vd := 3, va := va, fn := fn } with pred := 0x0F }

theorem witness_vasum_lanes : Executes (runE .vx coreVec (qVasum 0 1)) 0 .vx 0x1D (flOf (qVasum 0 1)) ∧
    Readable (seen0 .vx coreVec (qVasum 0 1)) 1 1 10 ∧ Readable (seen0 .vx coreVec (qVasum 0 1)) 1 3 10 ∧ (0 : Nat) ≠ 1 ∧
    ((List.range (laneCount ((qVasum 0 1).desc.fmta == 0xA))).foldl
      (fun (p : Partial) i => p.add (ancWexp ((seen0 .vx coreVec (qVasum 0 1)).vreg 3)).toInt (ancH ((seen0 .vx coreVec (qVasum 0 1)).vreg 3)).toNat
        (decodeVal 0xA (laneOf true 0 i))) {}).breach = false := by
  rw [executes_iff]; unfold Readable; decide +kernel

theorem witness_vasum_anchored : Executes (runE .vx coreVec (qVasum 1 4)) 0 .vx 0x1D (flOf (qVasum 1 4)) ∧
    ancWexp ((seen0 .vx coreVec (qVasum 1 4)).vreg 4) = ancWexp ((seen0 .vx coreVec (qVasum 1 4)).vreg 3) ∧
    ancH ((seen0 .vx coreVec (qVasum 1 4)).vreg 4) = ancH ((seen0 .vx coreVec (qVasum 1 4)).vreg 3) := by
  rw [executes_iff]; decide +kernel

theorem witness_vacvt : Executes (runE .vx coreVec (qVx 0x1F)) 0 .vx 0x1F (flOf (qVx 0x1F)) ∧ Readable (seen0 .vx coreVec (qVx 0x1F)) 1 1 10 := by
  rw [executes_iff]; unfold Readable; decide +kernel

theorem witness_vectorScalar : Readable (seen0 .vx coreVec (qVx 0x20)) 1 1 10 ∧ Executes (runE .vx coreVec (qVx 0x20)) 0 .vx 0x20 (flOf (qVx 0x20)) ∧
    Executes (runE .vx coreVec (qVx 0x21)) 0 .vx 0x21 (flOf (qVx 0x21)) ∧ Executes (runE .vx coreVec (qVx 0x22)) 0 .vx 0x22 (flOf (qVx 0x22)) ∧
    Executes (runE .vx coreVec (qVx 0x23)) 0 .vx 0x23 (flOf (qVx 0x23)) ∧ VxReady (seen0 .vx coreVec (qVx 0x23)) (flOf (qVx 0x23)) [] := by
  simp only [executes_iff]; unfold VxReady Readable; decide +kernel

/-- A draw of eight words. -/
def qDraw : QEntry := { qVx 0x24 with desc := { dVx 0x24 with count := 8 } }

theorem witness_draw : Executes (runE .vx coreVec qDraw) 0 .vx 0x24 (flOf qDraw) ∧ VxReady (seen0 .vx coreVec qDraw) (flOf qDraw) [] ∧
    (spGet {} (runE .vx coreVec qDraw).contexts 0).ready ≤ 10 ∧ GeneratorFree (runE .vx coreVec qDraw) 0 (flOf qDraw) := by
  rw [executes_iff]; unfold VxReady Readable GeneratorFree; decide +kernel

/-- A load or a store of the last 32 bytes of the shelf. -/
def qVmem (cop : Nat) : QEntry := { qVx cop with desc := { dVx cop with opnd0 := 0xBFE0, bankm := 0xFF } }

theorem witness_vectorMemory : OperandAt (flOf (qVmem 0x10)) 0xBFE0 0 32 .shelf 0xBFE0 ∧ Executes (runE .vx coreVec (qVmem 0x10)) 0 .vx 0x10 (flOf (qVmem 0x10)) ∧
    VxReady (seen0 .vx coreVec (qVmem 0x10)) (flOf (qVmem 0x10)) [] ∧
    NoConflict (seen0 .vx coreVec (qVmem 0x10)) (usesOf 2 2 .shelf 0xBFE0 32 10) ∧
    Executes (runE .vx coreVec (qVmem 0x11)) 0 .vx 0x11 (flOf (qVmem 0x11)) ∧ Readable (seen0 .vx coreVec (qVmem 0x11)) 1 1 10 ∧
    NoConflict (seen0 .vx coreVec (qVmem 0x11)) (usesOf 2 2 .shelf 0xBFE0 32 11) := by
  simp only [executes_iff]; unfold VxReady Readable OperandAt NoConflict; decide +kernel

/-! ### The commands of MX -/

/-- A step sequence of one step of int8 operands at shelf addresses 0 and 32, without scales. -/
def dMx (cop : Nat) : Desc := { eng := 0, cop := cop, fmta := 6, fmtb := 6, fmtd := 8, count := 1, tile := 3, opnd1 := 32, opnd2 := 0x60000, opnd3 := 0x60000, bankm := 0xFF }

def qMx (cop : Nat) : QEntry := qOf (dMx cop)

/-- Core 0 with a byte 1 in each of the operands, and a window with overflow detection. -/
def coreMx : Core := { core0 with
  shelf := [(0, 1), (32, 1)]
  tiles := [(3, { ovfEn := true, wexp := 0, h := 24 })] }

theorem witness_mma_operands : (match readMx (seen0 .mx coreMx (qMx 1)) (flOf (qMx 1)) with
    | .ok o => decide ((seen0 .mx coreMx (qMx 1)).logUses o.uses).2.isNone &&
        (List.range 64).all (fun e => !(o.entrySum 0 24 (e / 8) (e % 8)).breach)
    | .error _ => false) = true := by decide +kernel

theorem witness_mma : Executes (runE .mx coreMx (qMx 1)) 0 .mx 1 (flOf (qMx 1)) ∧ ((seen0 .mx coreMx (qMx 1)).tile 3).ovfEn = true ∧
    Readable (seen0 .mx coreMx (qMx 1)) 3 3 ((timing (begun (runE .mx coreMx (qMx 1)) 0 .mx) 0 (qMx 1) 9).last - 1) ∧
    Executes (runE .mx coreMx (qMx 2)) 0 .mx 2 (flOf (qMx 2)) ∧ okRes (match readMx (seen0 .mx coreMx (qMx 2)) (flOf (qMx 2)) with
      | .ok o => (.ok o : Res MxOperands)
      | .error e => .error e.2) = true := by
  simp only [executes_iff]; unfold Readable; decide +kernel

theorem witness_tileControl : Executes (runE .mx coreMx (qMx 3)) 0 .mx 3 (flOf (qMx 3)) ∧ Executes (runE .mx coreMx (qMx 4)) 0 .mx 4 (flOf (qMx 4)) := by
  simp only [executes_iff]; decide +kernel

/-- A partial at shelf address 0 with its trailer at 1,024, of the window of `coreMx`. -/
def qTaddp : QEntry := qOf { dMx 0xB with opnd1 := 1024 }

def corePart : Core := { coreMx with shelf := [(1024, 1), (1028, 24)] }

theorem witness_taddp : Executes (runE .mx corePart qTaddp) 0 .mx 0xB (flOf qTaddp) ∧ OperandAt (flOf qTaddp) 0 0 1024 .shelf 0 ∧
    OperandAt (flOf qTaddp) 1024 0 32 .shelf 1024 ∧
    Readable (seen0 .mx corePart qTaddp) 3 3 ((timing (begun (runE .mx corePart qTaddp) 0 .mx) 0 qTaddp 9).last - 2) := by
  simp only [executes_iff]; unfold Readable OperandAt; decide +kernel

theorem witness_taddp_trailer :
    let k := seen0 .mx corePart qTaddp
    let vals := fetchUnits k 1 2 .shelf 0 1024 (fun o => 10 + o / 32)
    let tr := fetchUnits k 1 2 .shelf 1024 32 (fun _ => 9 + (timing (begun (runE .mx corePart qTaddp) 0 .mx) 0 qTaddp 9).occ)
    le tr.1 0 1 = 1 ∧ le tr.1 2 2 = (k.tile 3).wexp.toNat ∧ le tr.1 4 1 = (k.tile 3).h.toNat ∧
    NoConflict (k.setTile 3 ((k.tile 3).addPart vals.1 tr.1)) (vals.2 ++ tr.2) := by
  unfold NoConflict; decide +kernel

theorem witness_perm : [Val.nan, Val.inf true].Perm [Val.inf true, Val.nan] := by decide +kernel

/-- An export of tile 3 to registers, or to rows of shelf address 0 on with scales or trailer at 2,048. -/
def qExport (cop : Nat) (regs : Bool) : QEntry :=
  qOf { dMx cop with fmtd := if cop = 9 then 6 else 8, fn := 1, opnd0 := if regs then 0x60000 else 0, opnd1 := 2048 }

theorem witness_texp : Executes (runE .mx coreMx (qExport 8 false)) 0 .mx 8 (flOf (qExport 8 false)) ∧
    GeneratorReady (runE .mx coreMx (qExport 8 false)) 0 (flOf (qExport 8 false)) ∧ Readable (seen0 .mx coreMx (qExport 8 false)) 3 3 10 ∧
    OperandAt (flOf (qExport 8 false)) 0 0 (8 * packedBytes 16 8) .shelf 0 ∧
    NoConflict (seen0 .mx coreMx (qExport 8 false)) (((List.range 8).map fun i =>
      storeAt 0 1 2 .shelf (0 + i * packedBytes 16 8) (List.replicate 16 0) ((timing (runE .mx coreMx (qExport 8 false)) 0 (qExport 8 false) 9).last - 7 + i - 1)).map
        (·.2)).flatten := by
  simp only [executes_iff]; unfold Readable OperandAt NoConflict GeneratorReady GeneratorFree; decide +kernel

theorem witness_texp_registers : Executes (runE .mx coreMx (qExport 8 true)) 0 .mx 8 (flOf (qExport 8 true)) ∧ (opSpace (qExport 8 true).desc.opnd0).isNone = true ∧
    NoConflict ((List.range 8).foldl (fun m i => m.setVreg (0 + i) 0) (seen0 .mx coreMx (qExport 8 true))) [] := by
  simp only [executes_iff]; unfold NoConflict; decide +kernel

theorem witness_texpmx : Executes (runE .mx coreMx (qExport 9 true)) 0 .mx 9 (flOf (qExport 9 true)) ∧
    GeneratorReady (runE .mx coreMx (qExport 9 true)) 0 (flOf (qExport 9 true)) ∧ (∀ i, i < 4 → Readable (seen0 .mx coreMx (qExport 9 true)) 3 i (10 + i)) ∧
    (opSpace (qExport 9 true).desc.opnd0).isNone = true ∧ OperandAt (flOf (qExport 9 true)) 2048 0 8 .shelf 2048 ∧
    NoConflict (seen0 .mx coreMx (qExport 9 true)) (storeAt 0 1 2 .shelf 2048 (List.replicate 8 0) 46).2 := by
  simp only [executes_iff]; unfold Readable OperandAt NoConflict GeneratorReady GeneratorFree; decide +kernel

theorem witness_toutp : Executes (runE .mx coreMx (qExport 0xA false)) 0 .mx 0xA (flOf (qExport 0xA false)) ∧
    Readable (seen0 .mx coreMx (qExport 0xA false)) 3 3 10 ∧ OperandAt (flOf (qExport 0xA false)) 0 0 1024 .shelf 0 ∧
    OperandAt (flOf (qExport 0xA false)) 2048 0 32 .shelf 2048 := by
  simp only [executes_iff]; unfold Readable OperandAt; decide +kernel

set_option maxRecDepth 8000 in
theorem witness_toutp_banks :
    NoConflict (seen0 .mx coreMx (qExport 0xA false)) (((((chunks 32 ((List.range 64).flatMap
      (fun i => leBytes 16 (((seen0 .mx coreMx (qExport 0xA false)).tile 3).entry i).toNat))).zipIdx.map fun p =>
        storeAt 0 1 2 .shelf (0 + p.2 * 32) p.1 (12 + p.2)).map (·.2)).flatten) ++
      (storeAt 0 1 2 .shelf 2048 ((seen0 .mx coreMx (qExport 0xA false)).tile 3).trailer 44).2) := by
  unfold NoConflict; decide +kernel

/-! ### The commands of SX and NX -/

/-- A copy of 96 bytes from one store to another, at address 0 and at 64 of each: codes 0 shelf, 1 attic, 2 staging. -/
def qCopy (cop a b : Nat) : QEntry :=
  qOf { eng := 2, cop := cop, count := 96, opnd0 := BitVec.ofNat 32 (a * 2 ^ 17), opnd1 := BitVec.ofNat 32 (b * 2 ^ 17 + 64), bankm := 0xFF }

/-- The conditions of a copy within core 0. -/
def copyOk (cop a b : Nat) (src dst : Space) (w : Nat) (rd wr ready : Nat → Nat) : Bool :=
  decide (((runE .sx core0 (qCopy cop a b)).core 0).halted = false ∧
    opSpace (qCopy cop a b).desc.opnd0 = some src ∧ opSpace (qCopy cop a b).desc.opnd1 = some dst ∧ 0 % spaceAlign src = 0 ∧ 64 % spaceAlign dst = 0) &&
  ((seen0 .sx core0 (qCopy cop a b)).logUses
    (copyWithin 0 (seen0 .sx core0 (qCopy cop a b)) (flOf (qCopy cop a b)) 96 w (src, 0) (dst, 64) rd wr ready).uses).2.isNone

theorem witness_copies : copyOk 0x30 1 2 .attic .staging 64 (fun j => 10 + j) (fun j => 12 + j) (fun j => 13 + j) = true ∧
    copyOk 0x31 2 1 .staging .attic 64 (fun j => 10 + j) (fun j => 10 + j) (fun j => 11 + j) = true ∧
    copyOk 0x32 0 2 .shelf .staging 32 (fun j => 10 + j) (fun j => 11 + j) (fun j => 12 + j) = true := by decide +kernel

theorem witness_gather_operands : OperandAt (flOf (qCopy 0x30 1 2)) (qCopy 0x30 1 2).desc.opnd0 0 96 .attic 0 ∧
    OperandAt (flOf (qCopy 0x30 1 2)) (qCopy 0x30 1 2).desc.opnd1 0 96 .staging 64 := by unfold OperandAt; decide +kernel

theorem witness_scatter_operands : OperandAt (flOf (qCopy 0x31 2 1)) (qCopy 0x31 2 1).desc.opnd0 0 96 .staging 0 ∧
    OperandAt (flOf (qCopy 0x31 2 1)) (qCopy 0x31 2 1).desc.opnd1 0 96 .attic 64 := by unfold OperandAt; decide +kernel

theorem witness_xmov_operands : OperandAt (flOf (qCopy 0x32 0 2)) (qCopy 0x32 0 2).desc.opnd0 0 96 .shelf 0 ∧
    OperandAt (flOf (qCopy 0x32 0 2)) (qCopy 0x32 0 2).desc.opnd1 0 96 .staging 64 := by unfold OperandAt; decide +kernel

theorem witness_copies_execute : Executes (runE .sx core0 (qCopy 0x30 1 2)) 0 .sx 0x30 (flOf (qCopy 0x30 1 2)) ∧
    Executes (runE .sx core0 (qCopy 0x31 2 1)) 0 .sx 0x31 (flOf (qCopy 0x31 2 1)) ∧
    Executes (runE .sx core0 (qCopy 0x32 0 2)) 0 .sx 0x32 (flOf (qCopy 0x32 0 2)) := by simp only [executes_iff]; decide +kernel

/-- An overlay of the last two pages. -/
def qXovl : QEntry := qOf { dXovl with fn := 14 }

theorem witness_xovl : Executes (runE .sx core0 qXovl) 0 .sx 0x38 (flOf qXovl) ∧ OperandAt (flOf qXovl) qXovl.desc.opnd0 0 (768 * qXovl.desc.count) .staging 0 ∧
    (∀ i, i < qXovl.desc.count → qXovl.desc.fn + i ∉ (seen0 .sx core0 qXovl).pagesInUse) := by
  rw [executes_iff]; unfold OperandAt; decide +kernel

/-- A put of 40 bytes to the neighbour, core 1, with sync flag 63 set there. -/
def qXput : QEntry := qOf { eng := 2, cop := 0x33, count := 40, opnd0 := 0, opnd1 := 0x20000, opnd2 := 1, opnd3 := 0x7F, bankm := 0xFF }

theorem witness_xput : Executes (runE .sx core0 qXput) 0 .sx 0x33 (flOf qXput) ∧ OperandAt (flOf qXput) 0 0 40 .shelf 0 ∧
    OperandAt (flOf qXput) 0x20000 0 40 .attic 0 ∧ qXput.desc.opnd2.toNat % 2 ^ 17 ≠ 0 := by
  rw [executes_iff]; unfold OperandAt; decide +kernel

theorem witness_xput_paths :
    let ps := piecesOf 0 40 (pathOf 0).1
    PathsFree (begun (runE .sx core0 qXput) 0 .sx) 0 (ps.flatMap (fun p => beatPaths 0 0 1 0 (pathOf 0).2 9 p.1)) ∧
    NoConflict (seen0 .sx core0 qXput) (ps.flatMap (fun p => usesOf 3 2 .shelf p.2.1 p.2.2 (9 + p.1))) ∧
    NoConflict ((runE .sx core0 qXput).core 1) (ps.flatMap (fun p => (landingUses 2 .attic p.2.1 p.2.2 (11 + p.1)).map
      (fun u => (({ u.1 with src := some 0 } : BankUse), u.2)))) := by
  unfold PathsFree NoConflict; decide +kernel

/-- A transfer of 1,024 bytes between staging and a device address. -/
def qDev (cop : Nat) (da : BitVec 64) : QEntry :=
  qOf { eng := 2, cop := cop, count := 1024, opnd0 := 0x40000, opnd2 := da.setWidth 32, opnd3 := (da >>> 32).setWidth 32 }

/-- A package with a zone of one group of cellar 0. -/
def runDev (cop : Nat) (da : BitVec 64) : State :=
  { runE .sx core0 (qDev cop da) with cellar := { zones := [{ mio := 0, groups := [0] }] } }

theorem witness_transfers : OperandAt (flOf (qDev 0x34 512)) 0x40000 0 1024 .staging 0 ∧
    Executes (runDev 0x34 512) 0 .sx 0x34 (flOf (qDev 0x34 512)) ∧ Executes (runDev 0x35 512) 0 .sx 0x35 (flOf (qDev 0x35 512)) ∧
    Executes (runDev 0x36 0x012003FFFC00) 0 .sx 0x36 (flOf (qDev 0x36 0x012003FFFC00)) ∧
    Executes (runDev 0x37 0x012003FFFC00) 0 .sx 0x37 (flOf (qDev 0x37 0x012003FFFC00)) := by
  simp only [executes_iff]; unfold OperandAt; decide +kernel

theorem ok_of_toOption {α ε : Type} {r : Except ε α} {a : α} (h : r.toOption = some a) : r = .ok a := by
  cases r with
  | ok b => simp only [Except.toOption, Option.some.injEq] at h; rw [h]
  | error e => simp [Except.toOption] at h

theorem witness_transferAddresses : transferAddress (begun (runDev 0x34 512) 0 .sx) (flOf (qDev 0x34 512)) false = .ok 512 ∧
    transferAddress (begun (runDev 0x35 512) 0 .sx) (flOf (qDev 0x35 512)) false = .ok 512 ∧
    transferAddress (begun (runDev 0x36 0x012003FFFC00) 0 .sx) (flOf (qDev 0x36 0x012003FFFC00)) true = .ok 0x012003FFFC00 ∧
    transferAddress (begun (runDev 0x37 0x012003FFFC00) 0 .sx) (flOf (qDev 0x37 0x012003FFFC00)) true = .ok 0x012003FFFC00 :=
  ⟨ok_of_toOption (by decide), ok_of_toOption (by decide), ok_of_toOption (by decide), ok_of_toOption (by decide)⟩

set_option exponentiation.threshold 512 in
theorem witness_transferPaths : (∀ p ∈ piecesOf 0 1024 512, (begun (runDev 0x34 512) 0 .sx).firstBad (512 + p.2.1) p.2.2 = none) ∧
    PathsFree (begun (runDev 0x34 512) 0 .sx) 0 ((piecesOf 0 1024 512).map fun p => (9 + 76 + p.1, 0xA81)) ∧
    PathsFree (begun (runDev 0x35 512) 0 .sx) 0 ((piecesOf 0 1024 512).map fun p => (9 + p.1, 0xA80)) ∧
    PathsFree (begun (runDev 0x37 0x012003FFFC00) 0 .sx) 0
      ((piecesOf 0 1024 512).flatMap fun p => (9 + p.1, 0xA80) :: hatchPort (0x012003FFFC00 + p.2.1) (40 + p.1)) := by
  unfold PathsFree; decide +kernel

/-- The header of stream program 16: 1 element of 1 beat from device address 512 to shelf address 0, flag 63. -/
def coreStream : Core := { core0 with
  attic := [(0x17FE0, 1), (0x17FE1, 2), (0x17FE2, 63), (0x17FE5, 2), (0x17FF6, 1), (0x17FF8, 2), (0x17FFA, 100)] }

/-- `XSTREAM` of program 16. -/
def qXstream : QEntry := qOf { eng := 2, cop := 0x39, count := 16 }

theorem witness_xstream :
    let k := seen0 .sx coreStream qXstream
    let h := k.load .attic (0x17E00 + 32 * 15) 32 10
    let q := streamHeader 16 2 9 h
    Executes (runE .sx coreStream qXstream) 0 .sx 0x39 (flOf qXstream) ∧ le h 0 1 = 1 ∧ k.progs.length < 4 ∧ (∀ r ∈ k.progs, r.num ≠ 16) ∧ q.count = 2 ∧
    (∀ e, e < 2 → q.readyAt ((runE .sx coreStream qXstream).lambda 0 ((runE .sx coreStream qXstream).daSite (q.elemDa e))) (q.issue e) < 1000) ∧
    NoConflict { k with progs := k.progs ++ [q] } (usesOf 3 2 .attic (0x17E00 + 32 * 15) 32 10) := by
  simp only [executes_iff]; unfold NoConflict; decide +kernel

/-- That program. -/
def prog16 (next readyNext : Nat) : StreamProg :=
  { num := 16, pc := 2, start := 10, next := next, readyNext := readyNext, destAttic := false, setFlag := true, flag := 63, stage := 0, da := 512,
    stride := 0, dest := 0, ring := 0, beats := 1, count := 2, period := 100 }

/-- A package in which it runs. -/
def runProg (next readyNext : Nat) : State :=
  { run0 { core0 with progs := [prog16 next readyNext] } with cellar := { zones := [{ mio := 0, groups := [0] }] } }

/-- Whether an effect is free of conflicts. -/
def effectFree (s : State) (c : Nat) (r : CRes CmdEff) : Bool :=
  match r with
  | .ok g => (firstPathConflict s c g.paths).isNone && (g.core.logUses g.uses).2.isNone
  | .error _ => false

set_option maxRecDepth 8000 in
set_option exponentiation.threshold 512 in
theorem witness_streamElement : (runProg 1 0).cycling = true ∧ ((runProg 1 0).core 0).halted = false ∧
    ((runProg 1 0).core 0).progs.find? (fun r => r.num == 16) = some (prog16 1 0) ∧ (prog16 1 0).next < (prog16 1 0).count ∧
    (prog16 1 0).issue (prog16 1 0).next < (runProg 1 0).heldFrom ∧
    effectFree (settle (runProg 1 0) 0 110) 0 (streamEffect (settle (runProg 1 0) 0 110) 0 ((settle (runProg 1 0) 0 110).core 0) (prog16 1 0)) = true := by
  decide +kernel

theorem witness_streamElementReady : (prog16 2 1).readyNext < (prog16 2 1).next ∧
    (prog16 2 1).readyAt ((runProg 2 1).lambda 0 ((runProg 2 1).daSite ((prog16 2 1).elemDa 1))) ((prog16 2 1).issue 1) < (runProg 2 1).heldFrom := by decide +kernel

theorem witness_post : Executes (runE .nx (coreFlow 0) (qPost 5)) 0 .nx 0x40 (flOf (qPost 5)) ∧
    OperandAt (flOf (qPost 5)) dPost.opnd0 0 (256 * dPost.count) .shelf 0 ∧
    (seen0 .nx (coreFlow 0) (qPost 5)).flows.find? (fun f => f.flow == 5) = some { flow := 5, count := 2 } ∧ 0 + dPost.count ≤ 2 ∧
    NoConflict ((seen0 .nx (coreFlow 0) (qPost 5)).countPosts 5 2 2) ((List.range 2).flatMap fun i => (List.range 8).flatMap fun j =>
      usesOf 4 2 .shelf (256 * i + 32 * j) 32 (9 + 8 * i + 1 + j)) ∧
    Executes (runE .nx core0 (qOf { eng := 3, cop := 0x41, fn := 15, opnd0 := 3 })) 0 .nx 0x41 (flOf (qOf { eng := 3, cop := 0x41, fn := 15, opnd0 := 3 })) := by
  simp only [executes_iff]; unfold OperandAt NoConflict; decide +kernel

/-! ### Frames, freezes and notes -/

/-- A package whose only core has executed its `FRAME_END`, with flow 5 complete. -/
def runEnded : State := run0 { core0 with ended := true, flows := [{ flow := 5, count := 2, posted := 2 }] }

theorem witness_scheduleEnd : runEnded.cycling = true ∧ runEnded.freeze.faultAt = none ∧ runEnded.freeze.held = none ∧
    runEnded.frame.holdOut = false ∧
    (settleAll (runEnded.advanceTo (runEnded.cycleTime runEnded.frame.e)) runEnded.frame.e).freeze.faultAt = none ∧
    (∀ c ∈ (settleAll (runEnded.advanceTo (runEnded.cycleTime runEnded.frame.e)) runEnded.frame.e).usedCores,
      ((settleAll (runEnded.advanceTo (runEnded.cycleTime runEnded.frame.e)) runEnded.frame.e).core c).halted = true ∨
      (((settleAll (runEnded.advanceTo (runEnded.cycleTime runEnded.frame.e)) runEnded.frame.e).core c).ended = true ∧
        ∀ f ∈ ((settleAll (runEnded.advanceTo (runEnded.cycleTime runEnded.frame.e)) runEnded.frame.e).core c).flows,
          f.posted = 0 ∨ f.count ≤ f.posted)) := by decide +kernel

/-- A package whose tick has come, with two frame entries. -/
def runTick : State := { run0 { core0 with entries := [100, 200] } with frame := { e := 1000, tickTaken := true, tickWait := true } }

theorem witness_frameStart : runTick.inRun = true ∧ runTick.frame.tickTaken = true ∧ runTick.frame.tickWait = true ∧ 0 ∈ runTick.usedCores := by decide +kernel

/-- A request of core 0 for a flag. -/
def req0 (arrival : Bool) (flag : Nat) : FreezeReq := { core := 0, unit := 0, arrival := arrival, flag := flag, cycle := 7 }

/-- A package with a freeze: the first held index, whether it is halted, and the requests. -/
def runFreeze (halted : Bool) (reqs : List FreezeReq) : State :=
  { run0 coreFlag with freeze := { held := some 19, halted := halted, reqs := reqs, causes := reqs } }

theorem witness_freezeHalt : (runFreeze false [req0 false 1]).cycling = true ∧ (runFreeze false [req0 false 1]).freeze.held = some 19 ∧
    (runFreeze false [req0 false 1]).freeze.halted = false ∧ (∀ f, (runFreeze false [req0 false 1]).freeze.faultAt = some f → 19 < f) ∧
    (settleAll (runFreeze false [req0 false 1]) 19).freeze.faultAt = none := by
  refine ⟨by decide, by decide, by decide, ?_, by decide +kernel⟩
  intro f h
  cases h

theorem witness_freezeResume : (runFreeze true [req0 false 63]).cycling = true ∧ (runFreeze true [req0 false 63]).freeze.halted = true ∧
    (∀ r ∈ (settleAll (runFreeze true [req0 false 63]) 19).freeze.reqs, (settleAll (runFreeze true [req0 false 63]) 19).stillWaits r = false) := by decide +kernel

theorem witness_freezeOver : (runFreeze true [req0 false 1]).inFrame = true ∧ (runFreeze true [req0 false 1]).freeze.overThis = false ∧
    (runFreeze true [req0 false 1]).freeze.halted = true ∧ (runFreeze true [req0 false 1]).frame.completedAt = none := by decide +kernel

theorem witness_circularWait : (runFreeze true [req0 false 1]).freeze.causes.any (·.arrival) = false ∧
    lowestReq ((runFreeze true [req0 false 1]).freeze.reqs.filter (runFreeze true [req0 false 1]).stillWaits) = some (req0 false 1) ∧
    (runFreeze true [req0 false 1]).alarms.latch = none := by decide +kernel

theorem witness_arrivalTimeout : (runFreeze true [req0 true 1]).cycling = true ∧
    lowestReq (((runFreeze true [req0 true 1]).freeze.reqs.filter (runFreeze true [req0 true 1]).stillWaits).filter (·.arrival)) = some (req0 true 1) ∧
    (runFreeze true [req0 true 1]).alarms.latch = none := by decide +kernel

theorem witness_faultHalt : { runFreeze false [] with freeze := { faultAt := some 19 } }.cycling = true ∧
    { runFreeze false [] with freeze := { faultAt := some 19 } }.freeze.faultAt = some 19 := by decide +kernel

/-- A package whose frame is complete, with the holds given. -/
def runComplete (holds : List HoldRec) : State :=
  { run0 core0 with frame := { e := 1000, completedAt := some 900, nextTick := 65536, tickWait := true, holds := holds } }

/-- The hold of the device at (1, 0, 0). -/
def hold1 (ready : Option Nat) : HoldRec := { x := 1, y := 0, z := 0, frame := 0, pause := false, at_ := 800, ready := ready }

theorem witness_frameTick : (runComplete []).inRun = true ∧ (runComplete []).frame.stopFor = none ∧ (runComplete []).frame.abortAt = none ∧
    (runComplete []).frame.waitStart = false ∧ (runComplete []).frame.tickTaken = false ∧ (runComplete []).frame.completedAt.isSome = true ∧
    (runComplete []).agreedTick = some 65536 ∧ 576 ≤ (runComplete []).bufFree ∧ (runComplete []).cmd.en = false ∧ (runComplete []).inv.replay = none := by decide +kernel

theorem witness_noTick : (runComplete [hold1 none]).inRun = true ∧ (runComplete [hold1 none]).frame.tickTaken = false ∧
    (runComplete [hold1 none]).frame.completedAt.isSome = true ∧ (runComplete [hold1 none]).agreedTick = none := by decide +kernel

theorem witness_holds : (runFreeze true []).inFrame = true ∧ (runFreeze true []).frame.horizonDone = false ∧ (runFreeze true []).freeze.halted = true ∧
    (runComplete [hold1 none]).runOn = true ∧ (runComplete [hold1 none]).holdFrame ≤ 0 ∧
    (∃ h ∈ (runComplete [hold1 none]).holdsNow, h.x = 1 ∧ h.y = 0 ∧ h.z = 0 ∧ h.ready = none ∧ h.pause = false) := by
  refine ⟨by decide, by decide, by decide, by decide, by decide, hold1 none, by decide +kernel⟩

/-- The package once the ready note of that device has come for 66,560 ns. -/
def runReady : State :=
  let s1 := takeNote (runComplete [hold1 none]) 0x11 1 0 0
  { s1 with frame := { s1.frame with holds := s1.frame.holds.map fun h =>
    if h.x = 1 ∧ h.y = 0 ∧ h.z = 0 ∧ h.frame = 0 ∧ h.ready = none then { h with ready := some 66560 } else h } }

theorem witness_ready : 0 = (runComplete [hold1 none]).holdFrame ∧ (∀ a, runReady.agreedTick = some a → runReady.now ≤ a) := by
  refine ⟨by decide, fun a h => ?_⟩
  have : runReady.agreedTick = some 66560 := by decide +kernel
  rw [this] at h; cases h; decide +kernel

theorem witness_stop : (runComplete []).runOn = true ∧ (runComplete []).frame.stopFor = none ∧ (runComplete []).freeze.halted = false ∧
    (runComplete []).paused = false ∧ (runComplete []).alarms.latch = none ∧ (runFreeze true []).runOn = true ∧ (runFreeze true []).freeze.halted = true := by decide +kernel

/-- A job with a table set 1 that replaces set 0 where the link of the device (1, 0, 0) at port 0 is lost. -/
def image0 : Image := {
  variant := 0, fit := true, sources := [{ flow := 5, phase := 0, attic := false, lcore := 0, base := 0 }]
  sets := [{ index := 0 }, { index := 1, base := some 0, lossSet := [{ x := 1, y := 0, z := 0, port := 0 }] }] }

def runJob : State := { runFreeze true [req0 true 3] with
  mgmt := { loadedImage := some image0 }
  fabric := { writable := true, frameIndex := 4 }
  verA := { set := some 0, landing := [{ flow := 9, pmod := 1, phase := 0, lcore := 0, attic := false, base := 0, count := 4, aflag := 3 }] }
  cores := [(0, { core0 with afmap := [(3, 0)] })] }

theorem witness_detour : runJob.runOn = true ∧ runJob.fabric.writable = true ∧ runJob.fabric.flippedUnion = none ∧
    runJob.planFor runJob.baseSet ([] ++ [runJob.linkName 1 0 0 0]) = some 1 := by decide +kernel

/-- The same with set 1 being written for round 70. -/
def runWriting : State := { runJob with fabric := { writing := some 1, flipRound := some 70 } }

theorem witness_tableSetWritten : runWriting.fabric.writing = some 1 ∧
    runWriting.tableSet 1 = some { index := 1, base := some 0, lossSet := [{ x := 1, y := 0, z := 0, port := 0 }] } ∧
    runWriting.runOn = true ∧ runWriting.fabric.flipRound = some 70 := by decide +kernel

theorem witness_transitApply : ({ transit := some (true, [], []) } : State).transit = some (true, [], []) := rfl

theorem witness_resend : runJob.sourcesOf 5 ≠ [] ∧ (4 = runJob.frameIndex ∨ 4 + 1 = runJob.frameIndex) ∧ runJob.requests = [] := by decide +kernel

theorem witness_resend_before : 3 + 1 = runJob.frameIndex := by decide +kernel

theorem witness_resendWait : runJob.cycling = true ∧ runJob.freeze.halted = true ∧
    (∃ r ∈ runJob.freeze.reqs, r.core = 0 ∧ r.arrival = true ∧ r.flag = 3 ∧ runJob.stillWaits r = true) ∧
    runJob.landingOf 0 3 = some (0, { flow := 9, pmod := 1, phase := 0, lcore := 0, attic := false, base := 0, count := 4, aflag := 3 }) :=
  ⟨by decide, by decide, ⟨req0 true 3, by decide +kernel⟩, by decide⟩

/-- A ready note for the device at (0, 0, 0). -/
def note0 (seq : Nat) : RNote :=
  { ntype := 0x11, destX := 0, destY := 0, destZ := 0, srcX := 1, srcY := 0, srcZ := 0, srcSlice := 0, seq := seq, lastp := true, tag := 0, part := 0,
    payload := List.replicate 16 0 }

/-- A package with port 5 up, and with a note of (1, 0, 0) held since round 3. -/
def netUp : State := {
  dev := .idle, ports := [(5, { state := .up })]
  noteSrcs := [{ x := 1, y := 0, z := 0, bcast := false, held := [note0 2], gapAt := some 3 }] }

theorem witness_routedNote : netUp.portUp 5 = true ∧ (note0 0).ntype ≠ 0x30 ∧ 0x10 ≤ (note0 0).ntype ∧ (note0 0).ntype ≤ 0x14 ∧
    (note0 0).srcSlice = netUp.fabric.slice ∧ ((note0 0).destX, (note0 0).destY, (note0 0).destZ) = netUp.coords ∧
    (note0 0).seq = (netUp.noteSrc 1 0 0 false).next.toNat ∧ (∀ m ∈ (netUp.noteSrc 1 0 0 false).held, m.seq ≠ (note0 0).seq) := by decide +kernel

theorem witness_noteGap : (netUp.noteSrc 1 0 0 false).gapAt = some 3 ∧ (netUp.noteSrc 1 0 0 false).held ≠ [] ∧
    (netUp.noteSrc 1 0 0 true).gapAt = none ∧ netUp.dev ≠ .off ∧ netUp.dev ≠ .boot := by decide +kernel

/-! ### Ports -/

/-- Port 5 as given. -/
def port5 (q : Port) : State := { dev := .idle, ports := [(5, q)] }

theorem witness_roundStart : (port5 { state := .quiet }).dev ≠ .off ∧ 5 ∈ (port5 { state := .quiet }).portList ∧
    ((port5 { state := .quiet }).port 5).talks = true := by decide +kernel

/-- A round marker of lane 15 of round 9, and one whose check fails. -/
def marker0 : List Byte := markerBytes 4 15 2 9
def markerBad : List Byte := marker0.take 26 ++ [0]

set_option maxRecDepth 8000 in
theorem witness_roundMarker : portExists (port5 { state := .training }).variant 5 = true ∧ ((port5 { state := .training }).port 5).ethernet = false ∧
    ((port5 { state := .training }).port 5).state ≠ .off ∧ ((port5 { state := .training }).port 5).state ≠ .disabled ∧ 15 < fullWidth 5 ∧
    bits (le marker0 8 1) 7 4 = 1 ∧ crc32c (slice marker0 8 15) = ofBe (slice marker0 23 4) ∧
    crc32c (slice markerBad 8 15) ≠ ofBe (slice markerBad 23 4) := by decide +kernel

/-- A package with a copy of flow 7 due at port 5 in its last slot, and a container asked for again. -/
def sending : State := {
  dev := .idle
  ports := [(5, { state := .up, width := 2, departure := [{ hdr := { cls := 2, flow := 7 }, payload := List.replicate 256 1, order := 3 }],
                  resends := [{ round := 4, slot := 5, cont := 1, hdr := {}, payload := [] }] })]
  verA := { ttx := [{ port := 5, transit := true, round := 0, slot := 1535, flow := 7, run := 1, rounds := 1 }] } }

set_option maxRecDepth 8000 in
theorem witness_dataSlot : portExists sending.variant 5 = true ∧ 1535 < (sending.port 5).slots ∧ (sending.port 5).ethernet = false ∧
    (sending.port 5).state = .up ∧ 1535 % 32 ≠ 0 ∧
    (atSlot sending 5 1535).slotEntry 5 1535 = some { port := 5, transit := true, round := 0, slot := 1535, flow := 7, run := 1, rounds := 1 } ∧
    (atSlot sending 5 1535).slotCopy 5 { port := 5, transit := true, round := 0, slot := 1535, flow := 7, run := 1, rounds := 1 } =
      some { hdr := { cls := 2, flow := 7 }, payload := List.replicate 256 1, order := 3 } ∧
    (atSlot sending 5 1).slotEntry 5 1 = none := by decide +kernel

theorem witness_serviceSlot : 1504 < (sending.port 5).slots ∧ (sending.port 5).talks = true ∧ 1504 % 32 = 0 ∧
    (sending.port 5).resends = { round := 4, slot := 5, cont := 1, hdr := {}, payload := [] } :: [] := by decide +kernel

/-- The code word of slot 0 of a round that begins with the given container. -/
def wire (b : List Byte) : List (List (BitVec 10)) := (roundWords 1 [b ++ zeros 363]).map (fun w => w.map (BitVec.ofNat 10))

/-- A parcel of flow 7 for one more hop. -/
def parcel0 : List Byte := TxContainer.bytes { round := 0, slot := 0, cont := 1, hdr := { flow := 7, hops := 1 }, payload := List.replicate 256 1 }

/-- A package that forwards flow 7 from port 5 to port 21. -/
def forwarding : State := {
  variant := .d1l, dev := .idle, ports := [(5, { state := .up, permit := 1 }), (21, { state := .up })]
  verA := { xbar := [{ transit := false, input := 5, flow := 7, dmask := 0x200000, hops := 1, outclass := false }] } }

theorem witness_forwarded : portExists forwarding.variant 5 = true ∧ 0 < (forwarding.port 5).slots ∧ (forwarding.port 5).state = .up ∧
    (forwarding.port 5).ethernet = false ∧ forwarding.fabric.writing = none ∧
    (forwarding.version false).lookup 5 7 = some { transit := false, input := 5, flow := 7, dmask := 0x200000, hops := 1, outclass := false } ∧
    bit (0x200000 : BitVec 24).toNat 21 = true ∧ (forwarding.port 21).named = true ∧ (forwarding.port 21).departure.length < 1024 ∧
    bit (forwarding.port 5).permit.toNat 0 = true := by decide +kernel

set_option maxRecDepth 100000 in
theorem witness_wire_parcel : wordsFit 0 (wire parcel0) = true ∧ (lineContainer 0 (wire parcel0)).ok = true ∧
    (lineContainer 0 (wire parcel0)).bytes = parcel0 := by decide +kernel

set_option maxRecDepth 100000 in
theorem witness_parcel : containerOk parcel0 ∧ noNak parcel0 ∧ containerCont parcel0 = 1 ∧ (hdrOf (slice parcel0 4 16)).hver = 1 ∧
    (hdrOf (slice parcel0 4 16)).cls = 0 ∧ (hdrOf (slice parcel0 4 16)).slice = forwarding.fabric.slice ∧ (hdrOf (slice parcel0 4 16)).flow = 7 ∧
    (hdrOf (slice parcel0 4 16)).epoch = false ∧ (hdrOf (slice parcel0 4 16)).hops = 1 := by
  unfold containerOk noNak containerCont; decide +kernel

set_option maxRecDepth 100000 in
theorem witness_badContainer : (forwarding.port 5).talks = true ∧ (forwarding.port 5).retryOn = true ∧
    (lineContainer 0 (wire (zeros 280))).ok = true ∧ (lineContainer 0 (wire (zeros 280))).bytes = zeros 280 ∧ containerCont (zeros 280) ≠ 3 ∧
    ¬containerOk (zeros 280) := by
  unfold containerOk containerCont; decide +kernel

/-- A code word with 16 wrong symbols. -/
def broken : List (List (BitVec 10)) := [List.replicate 528 0 ++ (List.range 16).map (fun i => BitVec.ofNat 10 (i + 1))]

set_option maxRecDepth 100000 in
theorem witness_failedCode : wordsFit 0 broken = true ∧ (lineContainer 0 broken).ok = false := by decide +kernel

/-- A package with a parcel of flow 9 in front of the landing queue, the last of the buffer of two offsets at attic address 256, and one of a flow
that no landing entry names. -/
def landing0 (flow : Nat) : State := { runJob with
  alarms := {}
  landQueue := [{ input := 31, hdr := { flow := flow, framelo := 4, lastf := true, seq := 1, offset := 1 }, payload := List.replicate 256 7 }]
  land := [(0, { inst := some 4, landed := [0] })]
  verA := { landing := [{ flow := 9, pmod := 1, phase := 0, lcore := 0, attic := true, base := 256, count := 2, aflag := 3 }] } }

theorem witness_landing : (landing0 9).capture = false ∧ (landing0 9).nearFrame 4 = 4 ∧
    (landing0 9).landBuf { flow := 9, framelo := 4, lastf := true, seq := 1, offset := 1 } 4 =
      some (0, { flow := 9, pmod := 1, phase := 0, lcore := 0, attic := true, base := 256, count := 2, aflag := 3 }) ∧
    (spGet {} (landing0 9).land 0).inst = some 4 ∧ 1 ∉ (spGet {} (landing0 9).land 0).landed ∧ 2 ≤ (spGet {} (landing0 9).land 0).landed.length + 1 := by decide +kernel

theorem witness_landing_unknown : (landing0 8).capture = false ∧ (landing0 8).runOn = true ∧ (landing0 8).alarms.latch = none ∧
    (landing0 8).landBuf { flow := 8, framelo := 4, lastf := true, seq := 1, offset := 1 } ((landing0 8).nearFrame 4) = none := by decide +kernel

theorem witness_portDown : portExists (port5 { state := .up, hbSeen := [] }).variant 5 = true ∧ ((port5 { state := .up, hbSeen := [] }).port 5).talks = true ∧
    (∀ n ∈ ((port5 { state := .up, hbSeen := [] }).port 5).hbSeen, n + 4 < (port5 { state := .up, hbSeen := [] }).round) ∧ le [2] 0 1 < 3 := by decide +kernel

theorem witness_training : ((port5 { state := .down, enable := true }).port 5).enable = true ∧ (port5 { state := .down, enable := true }).time.refSys = true ∧
    ((port5 { state := .down, enable := true }).port 5).state = .down ∧ widthOf 5 0xFF00 16 = some (1, true) ∧ widthOf 5 0x0FF0 16 = none := by decide +kernel

/-- The key of a partner, its plan entry and the pieces of its proof. -/
def key0 : List Byte := zeros 1952
def plan0 (keydig : List Byte) : WiringPlan := {
  x := 0, y := 0, z := 0, slice := 0, serial := 0, extX := 1, extY := 1, extZ := 1, wrapX := false, wrapY := false, wrapZ := false
  entries := [{ port := 5, sigReq := true, valid := true, serial := 0, x := 0, y := 0, z := 1, peerPort := 4, slice := 0, keydig := keydig }] }
def proving (keydig : List Byte) (keyPieces : List (Nat × List Byte)) : State := { port5 {
  state := .discovery, keyPieces := keyPieces, sigPieces := (List.range 119).map (fun i => (i, [])) } with plan := some (plan0 keydig) }

theorem witness_identity : portExists (proving [] []).variant 5 = true ∧ ((proving [] []).port 5).talks = true ∧ ((proving [] []).port 5).signed = false ∧
    (∃ e, (proving [] []).planEntry 5 = some e ∧ e.sigReq = true) ∧ proofOk (proving [] []) 5 = false := by
  refine ⟨by decide, by decide, by decide, ⟨_, rfl, rfl⟩, by decide +kernel⟩


theorem keccakRound_length (s : Lanes) (rc : BitVec 64) : (keccakRound s rc).length = 25 := by
  unfold keccakRound
  have h : (stepChi (stepRhoPi (stepTheta s))).length = 25 := by unfold stepChi; simp [lanePositions]
  split
  next e => rw [e] at h; exact h
  next a t e => rw [e] at h; exact h

theorem keccakF_length (s : Lanes) : (keccakF s).length = 25 := by
  unfold keccakF roundConstants
  simp only [List.foldl_cons, List.foldl_nil]
  exact keccakRound_length _ _

theorem ofLanes_length (s : Lanes) : (ofLanes s).length = 8 * s.length := by
  unfold ofLanes
  induction s with
  | nil => rfl
  | cons a t ih => simp [List.flatMap_cons, leBytes]; omega

/-- The pieces of a key of zeros. -/
def keyPieces0 : List (Nat × List Byte) := (List.range 70).map (fun i => (i, []))

theorem key0_shake : shake256 key0 32 = slice (shake256 key0 32) 0 32 := by
  have h : (shake256 key0 32).length = 32 := by
    unfold shake256 sponge
    have e : (chunks 136 (spongePad 136 0x1F key0)).length = 14 + 1 := by decide +kernel
    obtain ⟨a, l, e'⟩ : ∃ a l, (chunks 136 (spongePad 136 0x1F key0)) = l ++ [a] := by
      rcases List.eq_nil_or_concat (chunks 136 (spongePad 136 0x1F key0)) with h | ⟨l, a, h⟩
      · rw [h] at e; cases e
      · exact ⟨a, l, by simpa using h⟩
    simp only [e', List.foldl_append, List.foldl_cons, List.foldl_nil]
    rw [show ceilDiv 32 136 = 1 from rfl]
    simp [squeeze, ofLanes_length, keccakF_length]
  unfold slice
  simp [h, zeros]

theorem proofOk_of (d : List Byte) (hd : shake256 key0 32 = slice d 0 32)
    (h : Config.mldsaVerify key0 [] (ascii "D1-IDENT" ++ zeros 28) (zeros 3309) = true) : proofOk (proving d keyPieces0) 5 = true := by
  have h1 : joinPieces ((proving d keyPieces0).port 5).keyPieces 70 = some (zeros 1960) := by
    show joinPieces keyPieces0 70 = some (zeros 1960)
    decide +kernel
  have h2 : joinPieces ((proving d keyPieces0).port 5).sigPieces 119 = some (zeros 3332) := by
    show joinPieces ((List.range 119).map (fun i => (i, []))) 119 = some (zeros 3332)
    decide +kernel
  have h3 : (proving d keyPieces0).planEntry 5 = some { port := 5, sigReq := true, valid := true, serial := 0, x := 0, y := 0, z := 1, peerPort := 4,
                                                        slice := 0, keydig := d } := rfl
  have h4 : (zeros 1960).take 1952 = key0 := by decide +kernel
  have h5 : (zeros 3332).take 3309 = zeros 3309 := by decide +kernel
  have h6 : ascii "D1-IDENT" ++ slice ((proving d keyPieces0).port 5).peerIdentity 0 28 ++ ((proving d keyPieces0).port 5).ownNonce =
      ascii "D1-IDENT" ++ zeros 28 := by
    show ascii "D1-IDENT" ++ slice ([] : List Byte) 0 28 ++ [] = ascii "D1-IDENT" ++ zeros 28
    decide
  unfold proofOk
  simp only [h3, h1, h2, h4, h5, h6, h]
  simp [← hd]

/-- A proof passes where the signature verifies. -/
theorem witness_proof (h : Config.mldsaVerify key0 [] (ascii "D1-IDENT" ++ zeros 28) (zeros 3309) = true) :
    proofOk (proving (shake256 key0 32) keyPieces0) 5 = true := proofOk_of _ key0_shake h

/-! ### Losses, request frames and time -/

/-- A port 5 with a retry record of slot 40 in round 3, a measured flight and a sync note outstanding. -/
def sync5 : State := { port5 {
    state := .up, retry := [{ round := 3, slot := 40, cont := 3, hdr := {}, payload := [] }], ownLag := some 2, peerLag := some 3
    peerSseq := 8, peerRxseq := 3, ssent := 5 } with
  time := { parent := 5, mtState := .holdover } }

theorem witness_loss : (sync5.port 5).talks = true ∧ (sync5.port 5).retry.find? (fun r => r.round % 2 ^ 32 == 3 && r.slot == 40) =
    some { round := 3, slot := 40, cont := 3, hdr := {}, payload := [] } ∧ (sync5.port 5).measure = some 2 := by decide +kernel

/-- A package with port 9 in Ethernet mode and an ingest area, and a request frame for it. -/
def ethUp : State := {
  variant := .d1l, dev := .running, ports := [(9, { state := .up, pmode := 1, ethMac := 0x112233445566 })]
  mgmt := { loadedImage := some image0 }, hatch := { areas := [{ offset := 0, size := 4096, kind := 3 }] } }

def request0 : List Byte :=
  [0x11, 0x22, 0x33, 0x44, 0x55, 0x66, 0, 0, 0, 0, 0, 1, 0x88, 0xB5] ++ [1, 0, 8, 0, 0, 0, 0, 0] ++ zeros 8

theorem witness_ethernet : portExists ethUp.variant 9 = true ∧ isIngest 9 = true ∧ (ethUp.port 9).ethernet = true ∧ (ethUp.port 9).state = .up ∧
    FrameForPort (ethUp.port 9) request0 ∧ ofBe (slice request0 12 2) = (ethUp.port 9).ethReqType.toNat % 65536 ∧ 8 ≤ (request0.drop 14).length ∧
    le (request0.drop 14) 0 1 = 1 ∧ 8 + le (request0.drop 14) 2 2 ≤ (request0.drop 14).length ∧ ethUp.ttLoaded = true ∧
    (ethUp.areaOf 3).isSome = true ∧ ethUp.requestBytes + roundUp (8 + le (request0.drop 14) 2 2) 32 ≤ 1048576 := by
  unfold FrameForPort; decide +kernel

/-- A sync note with `SSEQ` 9 that answers this device's note 4, from a time-transmitter of depth 3. -/
def note9 : List Byte := zeros 10 ++ [9, 0] ++ zeros 10 ++ [4, 0] ++ [3, 1] ++ zeros 2

theorem witness_sync : portExists sync5.variant 5 = true ∧ (sync5.port 5).talks = true ∧ (sync5.port 5).state = .up ∧ 5 = sync5.time.parent ∧
    sync5.time.root = false ∧ bit (le note9 25 1) 0 = true ∧ ((sync5.port 5).peerSseq + 1).toNat = le note9 10 2 ∧
    ((sync5.port 5).peerRxseq + 1).toNat = le note9 22 2 ∧ le note9 22 2 ≠ 0xFFFF ∧ le note9 22 2 = ((sync5.port 5).ssent - 1).toNat := by decide +kernel

theorem witness_holdover : ({ sync5 with dev := .running } : State).time.mtState = .holdover ∧ ({ sync5 with dev := .running } : State).runOn = true := by decide +kernel

/-- A time-receiver on port 9 that follows grandmaster 7 and knows one more. -/
def ptp0 : State := { ethUp with time := { ptpEn := true, ptpPort := 0, masters := [(7, 1, 37, true), (8, 2, 37, true)], master := some 7 } }

theorem witness_ptp : (∃ p, p < 22 ∧ portExists ptp0.variant p = true ∧ ptp0.ptpOn p = true) ∧ (∀ m ∈ ptp0.time.masters, m.1 ≠ 9) ∧
    ptp0.time.masters.length < 4 ∧ ptp0.time.master = some 7 := by
  refine ⟨⟨9, by decide +kernel⟩, by decide⟩

/-- A package whose PPS input is on and whose `TIME_SET_UTC` waits, a locked time, and a crate with a bound of 1,000 ns. -/
def timed : State := { ethUp with
  time := { ppsInEn := true, ppsOutEn := true, mtState := .locked, ltState := .locked, errBound := 1001 }
  cmd := { en := true }
  mgmt := { loadedImage := some image0
            crate := some { digest := [], fpcmin := 1, mode := .cool, props := 0, features := 0, frameRounds := 64, nvar := 1, shapeWrap := 0, shapeX := 1, shapeY := 1,
                            shapeZ := 1, timeErr := 1000, nflows := 0, reserve := 0, nframes := 0, sections := [], signed := false } } }

theorem witness_pps : timed.time.ppsInEn = true ∧ timed.time.ppsWait = none ∧ timed.time.ppsInDisc = false ∧ timed.time.ppsOutEn = true ∧
    ({ timed with time := { ppsWait := some (5, 37, 9) } } : State).time.ppsWait = some (5, 37, 9) ∧ timed.cmd.en = true ∧ timed.cmd.queue.length < 1024 ∧
    ethUp.time.ppsOutEn = false := by decide +kernel

theorem witness_refclk : timed.time.refTime = true ∧ timed.time.mtState = .locked ∧ timed.time.refSys = true ∧ timed.ttLoaded = true ∧
    netUp.ttLoaded = false ∧ netUp.dev ≠ .off ∧ netUp.dev ≠ .boot ∧ (∃ c, timed.mgmt.crate = some c ∧ c.timeErr < timed.errNow) := by
  refine ⟨by decide, by decide, by decide, by decide, by decide, by decide, by decide, ⟨_, rfl, by decide +kernel⟩⟩

/-! ### Controllers and host windows -/

/-- The last controller of a D1-M in a run: a sector on its way, an open row in bank 31, and its refreshes and windows begun. -/
def ctlRun : State := { run0 core0 with cellar := { ctls := [(639, {
  cycle := 7, openRow := [(31, 5)], entries := [{ kind := 3, delta := 1 }], returns := [(9, 40)] })] } }

theorem witness_controller : 639 < 160 * mioCount ctlRun.variant ∧ ctlRun.cycling = true ∧ (ctlRun.ctl 639).ended = false ∧
    (ctlRun.ctl 639).cycle + 2 < ctlRun.heldFrom ∧ (ctlRun.ctl 639).returns = (9, 40) :: [] ∧ 9 + 76 < ctlRun.heldFrom ∧
    48 * (ctlRun.ctl 639).refreshN + 3 * (639 % 160) % 48 < ctlRun.frame.e ∧ 48 * (ctlRun.ctl 639).refreshN + 3 * (639 % 160) % 48 < ctlRun.heldFrom ∧
    2064 * (ctlRun.ctl 639).scrubN + 3 * (639 % 160) % 48 + 187 < ctlRun.frame.e ∧
    2064 * (ctlRun.ctl 639).scrubN + 3 * (639 % 160) % 48 + 187 < ctlRun.heldFrom := by decide +kernel

theorem witness_retention : (31 : Nat) < 32 ∧ netUp.programsHalted = true ∧ netUp.dev ≠ .off ∧ netUp.dev ≠ .boot ∧ netUp.nextCycle0 = none := by decide +kernel

/-- A run with an input area of one page. -/
def areaRun : State := { timed with hatch := { areas := [{ offset := 0, size := 4096, kind := 0 }] } }

theorem witness_hatch : netUp.ideWaits = false ∧ 0x3FFFFFF + [(1 : Byte)].length ≤ 0x4000000 ∧ netUp.mgmt.loadedImage = none ∧
    0x3FFFFC0 + 64 ≤ 0x4000000 ∧ areaRun.ideWaits = false ∧ areaRun.mgmt.loadedImage.isSome = true ∧
    areaRun.hatchArea 4095 = some { offset := 0, size := 4096, kind := 0 } ∧ areaRun.inv.replay = none ∧ areaRun.inRun = true ∧
    areaRun.hatch.withheld = [] ∧ areaRun.hatch.journalBytes + [(1 : Byte)].length ≤ 1048576 := by decide +kernel

/-- An idle package with its window open and a zone of three groups of cellar 0. -/
def windowUp : State := { dev := .idle, cellar := { windowOpen := true, zones := [{ mio := 0, groups := [0, 1, 2] }] } }

theorem witness_window : windowUp.ideWaits = false ∧ windowUp.lineAllowed 0x400000000 true = true ∧ windowUp.lineAllowed 0x400000000 false = true ∧
    windowUp.firstBad 0x400000000 64 = none ∧ netUp.lineAllowed 64 true = false ∧ netUp.lineAllowed 64 false = false := by decide +kernel

/-! ### Host commands -/

/-- The checks of R415 that come before a command's own rules, for a command that needs no owner. -/
def passes (s : State) (c : Cmd) (k : Packet) : Bool :=
  let s1 := received s c.opcode k
  s.takesCommands && k.formOk && (!k.pblk || k.readOk) &&
    (!recorded c.opcode || State.commandFits { s with cmd := { s.cmd with commands := s.cmd.commands + 1 } } c.opcode k) && stateAllows s1 c .ring &&
    !needsOwner k c && k.role == 0 && !(c.single && s1.cmd.out.any (·.long)) && !s1.cmd.out.any (fun o => o.opcode == c.opcode)

theorem passes_of {s : State} {c : Cmd} {k : Packet} (h : passes s c k = true) : Passes s c k (received s c.opcode k) := by
  unfold passes at h
  simp only [Bool.and_eq_true, Bool.or_eq_true, Bool.not_eq_true', beq_iff_eq, Bool.and_eq_false_iff] at h
  obtain ⟨⟨⟨⟨⟨⟨⟨⟨h1, h2⟩, h3⟩, h4⟩, h5⟩, h6⟩, h7⟩, h8⟩, h9⟩ := h
  refine ⟨h1, h2, fun e => ?_, fun e => ?_, h5, fun e => ?_, fun _ => ⟨h7, rfl⟩, fun e => ?_, h9⟩
  · rcases h3 with h | h
    · rw [e] at h; cases h
    · exact h
  · rcases h4 with h | h
    · rw [e] at h; cases h
    · exact h
  · rw [h6] at e; cases e
  · rcases h8 with h | h
    · rw [e] at h; cases h
    · exact h

/-- A packet of 240 parameter bytes that begin with those given. -/
def pkt (ps : List Byte) : Packet := { plen := 240, params := ps }

/-- A crate of one variant with streams, and its image. -/
def crate0 : Crate :=
  { digest := [], fpcmin := 1, mode := .cool, props := 0, features := 16, frameRounds := 64, nvar := 1, shapeWrap := 0, shapeX := 1, shapeY := 1,
    shapeZ := 1, timeErr := 1000, nflows := 0, reserve := 0, nframes := 0, sections := [], signed := false }

/-- An idle package with a crate, verified. -/
def idle0 : State := {
  dev := .idle, cmd := { en := true }, mgmt := { crate := some crate0, images := [{ image0 with mode := .peak }], verified := true }
  time := { mtState := .locked, ltState := .locked }
  settings := { staged := some {} }
  sec := { fwStaged := true }
  streams := { entries := [(16383, { state := .done, endFrame := 9 })] } }

/-- The same with its timetable loaded, and in a run, paused, and faulted. -/
def inState (d : DevState) : State := { idle0 with
  dev := d
  mgmt := { idle0.mgmt with loadedImage := some image0 }
  streams := { entries := [(16383, { state := .done, endFrame := 9 }), (2, { state := .active })], positions := 1 }
  hatch := { areas := [{ offset := 0, size := 16777216, kind := 3 }, { offset := 16777216, size := 4096, kind := 0 }] } }

theorem witness_ping : passes idle0 cPing (pkt []) = true ∧ passes idle0 cIdentify (pkt []) = true ∧ passes idle0 cTimeStatus (pkt []) = true := by decide +kernel

theorem witness_getSettings : passes idle0 cGetSettings (pkt [0, 0, 0, 0, 0, 0, 0, 0, 0, 0, 1, 0, 1]) = true ∧
    (pkt [0, 0, 0, 0, 0, 0, 0, 0, 0, 0, 1, 0, 1]).par 28 1 = 1 ∧ idle0.settings.staged = some {} ∧
    ({} : SetCopy).bytes.length ≤ (pkt [0, 0, 0, 0, 0, 0, 0, 0, 0, 0, 1, 0, 1]).par 24 4 := by decide +kernel

theorem witness_readInventory : passes idle0 cReadInventory (pkt [0, 0, 0, 0, 0, 0, 0, 0, 64]) = true ∧
    (pkt [0, 0, 0, 0, 0, 0, 0, 0, 64]).par 24 4 = 64 ∧ (pkt [0, 0, 0, 0, 0, 0, 0, 0, 64]).par 16 8 % 64 = 0 ∧
    (pkt [0, 0, 0, 0, 0, 0, 0, 0, 64]).par 32 8 ≤ idle0.inv.nextSeq.toNat := by decide +kernel

theorem witness_getCertificate : passes { idle0 with inv := { cert := some { body := [], ckind := 1, signature := none } } } cGetCertificate (pkt []) = true ∧
    passes (inState .held) cGetCertificate (pkt [0, 0, 0, 0, 0, 0, 0, 0, 1]) = true ∧ (pkt [0, 0, 0, 0, 0, 0, 0, 0, 1]).par 24 1 = 1 := by decide +kernel

theorem witness_attest : passes idle0 cAttest (pkt (zeros 40 ++ [0x5D, 0x10])) = true ∧ 4189 ≤ (pkt (zeros 40 ++ [0x5D, 0x10])).par 56 4 := by decide +kernel

theorem witness_streamStatus : passes idle0 cStreamStatus (pkt [0xFF, 0x3F]) = true ∧ idle0.cmd.en = true ∧ idle0.cmd.queue.length < 1024 ∧
    ofLe (slice ((pkt [0xFF, 0x3F]).params.take (pkt [0xFF, 0x3F]).plen) 0 4) = 16383 := by decide +kernel

theorem witness_negotiate : passes idle0 cNegotiate (pkt [3]) = true ∧ (pkt [3]).par 16 1 % 4 ≠ 0 := by decide +kernel

theorem witness_setMode : passes idle0 cSetMode (pkt [2]) = true ∧ passes (inState .running) cSetMode (pkt [2]) = true ∧ (pkt [2]).par 16 1 ≤ 2 ∧
    ceilKhz (modeOf 2) ≤ ceilKhz image0.mode ∧ (inState .running).mgmt.loadedImage = some image0 := by decide +kernel

theorem witness_timeSetUtc : passes idle0 cTimeSetUtc (pkt []) = true ∧ passes idle0 cTimeSetUtc (pkt (zeros 10 ++ [1])) = true ∧
    idle0.time.ptpEn = false ∧ idle0.time.ppsWait = none ∧ bit ((pkt (zeros 10 ++ [1])).par 26 1) 0 = true ∧ (pkt (zeros 10 ++ [1])).par 16 8 % 1000000000 = 0 ∧
    bit ((pkt []).par 26 1) 0 = false ∧ idle0.inRun = false ∧ idle0.ttLoaded = false := by decide +kernel

/-- The text of a settings image without entries. -/
def settings0 : List Byte := ascii "FAELMSET" ++ [1] ++ zeros 23

/-- A staged image: its text and its digest. -/
def staged0 : Packet := { pkt (zeros 8 ++ [96]) with pulled := settings0 ++ hashH settings0 }

theorem witness_stageSettings : (readImage idle0 (slice staged0.pulled 0 96)).toOption.isSome = true ∧ staged0.par 24 4 = 96 ∧ idle0.inRun = false ∧
    idle0.signRequired = false := by decide +kernel

theorem witness_stageSettings_passes : passes idle0 cStageSettings staged0 = true := by decide +kernel

theorem witness_challenge : passes idle0 cDebugUnlock ((pkt []).withByte 16 0) = true := by decide +kernel

/-- A package whose challenge of zeros is live and that knows a debug key of zeros, and a response to it. -/
def unlocking : State := { idle0 with
  sec := { challenge := some (zeros 32), unlockFuses := 63 }, settings := { keys := [{ role := 3, index := 0, key := zeros 1952 }] } }
def response0 : Packet := { pblk := true, plen := 5309, params := [1, 1] ++ zeros 5307 }

set_option maxRecDepth 20000 in
theorem witness_response : passes unlocking cDebugUnlock (response0.withByte 16 1) = true ∧ (response0.withByte 16 1).pblk = true ∧
    (response0.withByte 16 1).plen = 5309 ∧ unlockGood unlocking (response0.withByte 16 1) = true ∧ unlocking.sec.unlockFuses < 64 ∧
    unlocking.sec.challenge.isSome = true := by decide +kernel

/-! ### Long commands -/

theorem witness_longRows : passes idle0 cLoadCrate (pkt []) = true ∧ passes idle0 cVerify (pkt [1]) = true ∧ passes idle0 cPlace (pkt [1, 1]) = true ∧
    passes idle0 cLoadTimetable (pkt []) = true ∧ passes idle0 cRestore (pkt []) = true ∧ passes (inState .loaded) cReplayBegin (pkt []) = true := by
  decide +kernel

theorem witness_longConditions : idle0.mgmt.crate.isSome = true ∧ (pkt [1]).par 16 1 ≤ 1 ∧ idle0.mgmt.verified = true ∧ (pkt [1, 1]).par 16 1 ≠ 0 ∧
    idle0.mgmt.crate = some crate0 ∧ bit ((pkt [1, 1]).par 17 1) 0 = true ∧ (inState .loaded).frame.ranOnce = false := by decide +kernel

theorem witness_commitSettings : passes idle0 cCommitSettings (pkt []) = true ∧ idle0.settings.staged = some {} ∧ ({} : SetCopy).entry 0x12 = none ∧
    ({} : SetCopy).entry 0x11 = none := by decide +kernel

theorem witness_firmware : passes idle0 cFirmwareStage (pkt []) = true ∧ (pkt []).par 24 8 ≤ 4190208 ∧ idle0.sec.pldmUpdate = false ∧ idle0.sec.fwStaged = true ∧
    passes idle0 cFirmwareActivate ((pkt []).withByte 16 0) = true ∧ passes idle0 cFirmwareActivate ((pkt []).withByte 16 1) = true := by decide +kernel

/-- A `CHECKPOINT` of mode 1 with room for 65,536 bytes, of a package whose timetable has no cores and no areas. -/
def checkpoint0 : Packet := pkt (zeros 10 ++ [1, 0, 0, 0, 0, 0, 1])
def bare : State := { idle0 with dev := .loaded, mgmt := { idle0.mgmt with loadedImage := some image0 } }

theorem witness_checkpoint : passes bare cCheckpoint checkpoint0 = true ∧ bare.mgmt.crate = some crate0 ∧ bare.mgmt.loadedImage = some image0 ∧
    checkpoint0.par 16 8 % 4096 = 0 ∧ checkpoint0.par 32 1 ≤ 1 ∧
    ((received bare 0x35 checkpoint0).ckImage crate0 image0 (checkpoint0.par 32 1)).length ≤ checkpoint0.par 24 8 := by decide +kernel

/-- A package with the long command of the opcode in progress. -/
def longIn (op : Nat) : State := { idle0 with cmd := { out := [{ opcode := op, packet := pkt [], long := true }] } }

theorem witness_longDone : (longIn 0x35).cmd.out.find? (·.long) = some { opcode := 0x35, packet := pkt [], long := true } ∧
    ({ opcode := 0xA1, packet := pkt [], long := true } : Outstanding).packet.par 16 1 ≠ 1 ∧ (longIn 0x13).settings.deviceDue = 0 ∧
    (longIn 0x13).settings.staged.isSome = true := by decide +kernel

theorem witness_longFinal : ∃ m st r res, longFinal { opcode := 0x35, packet := pkt [], long := true } (longIn 0x35) = some (m, st, r, res) := ⟨_, _, _, _, rfl⟩

/-! ### Runs and streams -/

/-- A tick of 1,024 ns times 80. -/
def tickPkt : Packet := pkt [0, 0x40, 1]

theorem witness_start : passes (inState .loaded) cStart tickPkt = true ∧ (inState .loaded).tickOk (tickPkt.par 16 8) = true ∧ (inState .loaded).time.mtState = .locked ∧
    (inState .loaded).inv.replayNext = false ∧ (inState .loaded).inv.replay = none := by decide +kernel

theorem witness_runControl : passes (inState .running) cHold (pkt (List.replicate 8 0xFF)) = true ∧ (pkt (List.replicate 8 0xFF)).par 16 8 = ones64 ∧
    passes (inState .running) cHold (pkt [1]) = true ∧ (inState .running).frameIndex ≤ 1 ∧ (inState .running).frame.completedAt = none ∧
    passes (inState .running) cRunToFrame (pkt [1]) = true ∧ passes (inState .held) cResume tickPkt = true ∧
    (inState .held).tickOk (tickPkt.par 16 8) = true := by decide +kernel

theorem witness_abort : passes (inState .running) cAbort (pkt [1]) = true ∧ passes (inState .held) cAbort (pkt []) = true ∧
    bit ((pkt []).par 16 1) 0 = false ∧ bit ((pkt [1]).par 16 1) 0 = true ∧ passes (inState .faulted) cAbort (pkt [1]) = true ∧
    passes (inState .loaded) cAbort (pkt [1]) = true := by decide +kernel

/-- `ADMIT_STREAM` of stream 9 into entry 3: frame 5, one token of prompt in the area of kind 0, one token to emit. -/
def admit0 : Packet := pkt ([3, 0, 0, 0, 9, 0, 0, 0, 5, 0, 0, 0, 0, 0, 0, 0] ++ zeros 24 ++ [1, 0, 0, 0, 1, 0, 0, 0, 0, 0, 0, 1, 0, 0, 0, 0, 0, 0, 0x80, 0x3F])

theorem witness_admit : passes (inState .running) cAdmit admit0 = true ∧ (inState .running).runsStreams = true ∧ admitOk (inState .running) admit0 = true ∧
    (inState .running).takenFrame (admit0.par 24 8) = some 5 ∧ ((inState .running).stream (admit0.par 16 4)).state = .free ∧
    (∀ e ∈ (inState .running).streams.entries, e.2.state = .free ∨ e.2.sid ≠ admit0.par 20 4) := by decide +kernel

/-- `RETIRE_STREAM` of an entry in frame 5. -/
def retire0 (n : List Byte) : Packet := pkt (n ++ [0, 0, 0, 0, 0, 0, 5])

theorem witness_retire : passes (inState .running) cRetire (retire0 [0xFF, 0x3F]) = true ∧ (retire0 [0xFF, 0x3F]).par 16 4 = 16383 ∧
    (inState .running).takenFrame ((retire0 [0xFF, 0x3F]).par 24 8) = some 5 ∧ ((inState .running).stream 16383).state = .done ∧
    passes (inState .running) cRetire (retire0 [2, 0]) = true ∧ ((inState .running).stream 2).state ≠ .done ∧ ((inState .running).stream 2).state ≠ .free := by
  decide +kernel

/-! ### Loading, and the fabric owner's commands -/

/-- An image of one table set, built for a package in slice 1. -/
def image1 : Image := {
  variant := 0, fit := true, sets := [{ index := 0 }], guardPm := 20, assy := assyCode .d1m
  inputDigest := State.inputDigest { dev := .idle, fabric := { slice := 1 } } }

/-- A verified and placed package in `IDLE` whose `LOAD_TIMETABLE` is in progress. -/
def placed0 : State := {
  dev := .idle, fabric := { slice := 1 }
  mgmt := {
    crate := some { crate0 with mode := .peak, features := 0 }
    images := [image1], verified := true
    verifiedSettings := State.settingsInForce {} |>.digest
    placed := some { variant := 0, flags := 0, policy := 1, frame := 0, regionMap := [], temps := [], wears := [], streamLoad := 0, binBase := 0,
                     binCount := 0, rowcol := [], binOrder := [], ttDigest := [], digest := [] } }
  cmd := { out := [{ opcode := 0x23, packet := pkt [], long := true }] } }

theorem witness_load : placed0.cmd.out.find? (·.long) = some { opcode := 0x23, packet := pkt [], long := true } ∧
    ∃ c p v i, placed0.toLoad = some (c, p, v, i) ∧ loadFault placed0 c i = none := by
  refine ⟨by decide, _, _, _, _, rfl, ?_⟩
  have h0 : image1.inputDigest = placed0.inputDigest := rfl
  have h1 : shapeMet placed0 { crate0 with mode := .peak, features := 0 } = true := by decide +kernel
  have h2 : tablesFault placed0 { crate0 with mode := .peak, features := 0 } image1 = none := by decide +kernel
  have h3 : portsFault placed0 { crate0 with mode := .peak, features := 0 } image1 = none := by decide +kernel
  have h4 : image1.fit = true := rfl
  have h5 : placed0.mgmt.verifiedSettings = placed0.settingsInForce.digest := rfl
  have h6 : image1.guardPm = placed0.fabric.guardPm := rfl
  have h7 : image1.crateDigest = Crate.digest { crate0 with mode := .peak, features := 0 } := rfl
  have h8 : placed0.clock.mode = image1.mode := rfl
  have h9 : (image1.stepping != placed0.stepping || image1.assy != assyCode placed0.variant ||
    slice image1.sheetDigest 0 64 != slice placed0.sec.sheetDigest 0 64) = false := by decide +kernel
  unfold loadFault bindingReason
  simp [h0, h1, h2, h3, h4, h5, h6, h7, h8, h9, faultIf, firstFault, reasonIf]

/-- The checks of R432 but the signature. -/
def ownerOk (s : State) (k : Packet) : Bool :=
  match k.trailer with
  | none => false
  | some t =>
    k.role == 1 && k.pblk && le t 0 1 == 1 && (s.keyOf 0 (le t 1 1)).isSome && decide ((spGet 0 s.sec.foCounters (le t 1 1)).toNat < le t 8 8) &&
      (le t 16 8 == s.serial.toNat || le t 16 8 == ones64)

/-- The signature of R432: a value of the signature function, which is open (log entry 12). -/
def SignatureGood (s : State) (op : Nat) (k : Packet) : Prop :=
  ∀ t e, k.trailer = some t → s.keyOf 0 (le t 1 1) = some e →
    Config.mldsaVerify e.key (ascii "D1-FO") (ascii "D1-FOAUTH" ++ leBytes 2 op ++ slice k.params 0 (k.plen - 3344) ++ slice t 0 32) (slice t 32 3309) = true

theorem authorise_of {s : State} {op : Nat} {k : Packet} (h : ownerOk s k = true) (hs : SignatureGood s op k) :
    ∃ c, authorise s op k = .ok { s with sec := { s.sec with foCounters := c } } := by
  unfold ownerOk at h
  unfold authorise
  cases ht : k.trailer with
  | none => rw [ht] at h; cases h
  | some t =>
    rw [ht] at h
    simp only [Bool.and_eq_true, beq_iff_eq, decide_eq_true_eq, Bool.or_eq_true, Option.isSome_iff_exists] at h
    obtain ⟨⟨⟨⟨⟨h1, h2⟩, h3⟩, e, h4⟩, h5⟩, h6⟩ := h
    have hv := hs t e ht h4
    refine ⟨spSet 0 s.sec.foCounters (le t 1 1) (BitVec.ofNat 64 (le t 8 8)), ?_⟩
    simp only [h1, h2, h3, h4, hv]
    simp only [Bool.not_true, ne_eq, not_true_eq_false, Bool.false_eq_true, or_self, ↓reduceIte, Nat.not_le.mpr h5]
    rw [if_neg (by rcases h6 with h | h <;> simp [h])]

/-- The checks of R415 and R432 but the signature, for a command of the fabric owner. -/
def passesOwner (s : State) (c : Cmd) (k : Packet) : Bool :=
  let s1 := received s c.opcode k
  s.takesCommands && k.formOk && k.readOk &&
    State.commandFits { s with cmd := { s.cmd with commands := s.cmd.commands + 1 } } c.opcode k && stateAllows s1 c .ring &&
    needsOwner k c && ownerOk s1 k && !c.single && s1.cmd.out.isEmpty

theorem passes_ofOwner {s : State} {c : Cmd} {k : Packet} (h : passesOwner s c k = true) (hs : SignatureGood (received s c.opcode k) c.opcode k) :
    ∃ s1, Passes s c k s1 := by
  unfold passesOwner at h
  simp only [Bool.and_eq_true, Bool.not_eq_true'] at h
  obtain ⟨⟨⟨⟨⟨⟨⟨⟨h1, h2⟩, h3⟩, h4⟩, h5⟩, h6⟩, h7⟩, h8⟩, h9⟩ := h
  obtain ⟨x, hx⟩ := authorise_of h7 hs
  have h10 : (received s c.opcode k).cmd.out = [] := by simpa using h9
  refine ⟨_, ⟨h1, h2, fun _ => h3, fun _ => h4, h5, fun _ => hx, fun e => ?_, fun e => ?_, ?_⟩⟩
  · rw [h6] at e; cases e
  · rw [h8] at e; cases e
  · simp [h10]

/-- Parameters with the trailer of key 0, counter 1 and serial number 0. -/
def signed0 (ps : List Byte) : Packet := { role := 1, pblk := true, plen := ps.length + 3344, params := ps ++ [1] ++ zeros 7 ++ [1] ++ zeros 3335 }

/-- An idle package that has enrolled a fabric owner's key of zeros, with a plan of 4 × 4 × 4 devices. -/
def owned : State := { idle0 with
  settings := { keys := [{ role := 0, index := 0, key := zeros 1952 }] }
  plan := some { plan0 [] with extX := 4, extY := 4, extZ := 4 }
  resets := { level := none } }

/-- `SET_SLICE` to slice 255 of this device alone. -/
def setSlice0 : Packet := signed0 ([255, 0, 0, 0, 0, 1, 1, 1, 4, 4, 4, 8, 0xFF, 0xFF, 0x0F, 0, 1, 0, 0, 0, 31, 1] ++ zeros 714)

set_option maxRecDepth 20000 in
theorem witness_setSlice : passesOwner owned cSetSlice setSlice0 = true ∧ 4080 ≤ setSlice0.plen ∧ bits (setSlice0.par 36 4) 4 0 = 31 ∧ setSlice0.par 16 1 ≠ 0 ∧
    sliceRanges owned setSlice0 = true ∧ sliceShapeOk owned setSlice0 = true := by decide +kernel

/-- `LOAD_TRANSIT` of an empty plan into version B. -/
def loadTransit0 : Packet := signed0 ([1, 1] ++ zeros 798)

set_option maxRecDepth 20000 in
theorem witness_loadTransit : passesOwner owned cLoadTransit loadTransit0 = true ∧ loadTransit0.par 16 1 = 1 ∧ loadTransit0.par 17 1 ≤ 1 ∧
    loadTransit0.plen = 800 + 8 * (((List.range 22).map (fun p => loadTransit0.par (24 + 4 * p) 4)).sum + loadTransit0.par 20 4) + 3344 ∧
    allSome (transitTx loadTransit0 ((List.range 22).map (fun p => loadTransit0.par (24 + 4 * p) 4)) 0 816) = some [] ∧
    allSome ((List.range (loadTransit0.par 20 4)).map (fun i => decodeX (loadTransit0.par (816 + 8 * i) 8))) = some [] ∧
    transitReason owned true [] [] = 0 := by decide +kernel

/-- `DISCOVER` with a plan without entries. -/
def discover0 : Packet := signed0 ([1] ++ zeros 15 ++ [4, 8, 16] ++ zeros 13)

set_option maxRecDepth 20000 in
theorem witness_discover : passesOwner owned cDiscover discover0 = true ∧ discover0.par 16 1 = 1 ∧ discover0.par 17 1 ≤ 22 ∧
    discover0.plen = 32 + 64 * discover0.par 17 1 + 3344 ∧ (planOf discover0).serial = owned.serial.toNat ∧ (planOf discover0).ok = true ∧
    (planOf discover0).x % 2 = owned.boardPos.toNat % 2 ∧ (planOf discover0).y % 2 = owned.boardPos.toNat / 2 := by decide +kernel

/-- `PORT_CONTROL` of port 10 with its force bit. -/
def portControl0 : Packet := signed0 [10, 0, 1]

set_option maxRecDepth 20000 in
theorem witness_portControl : portExists owned.variant (portControl0.par 16 1) = true ∧ 3 ≤ portControl0.plen ∧ (owned.runOn && owned.epochUses 10) = false ∧
    passesOwner owned cPortControl (portControl0.withByte 17 0) = true ∧ passesOwner owned cPortControl (portControl0.withByte 17 1) = true ∧
    passesOwner owned cPortControl (portControl0.withByte 17 2) = true := by decide +kernel

theorem witness_reset : passes owned cReset ((pkt []).withByte 16 1) = true ∧ passes owned cReset ((pkt []).withByte 16 2) = true ∧ (pkt []).seq ≠ 0 ∧
    owned.cmd.en = true ∧ owned.cmd.queue.length < 1024 ∧ owned.resets.level = none := by decide +kernel

/-- With port 10 used by the epoch in a run, the command is forced. -/
def ownedRun : State := { owned with dev := .running, ports := [(10, { state := .up })], verA := { tx := [
  { port := 10, transit := false, round := 0, slot := 1, flow := 7, run := 1, rounds := 1 }] } }

set_option maxRecDepth 20000 in
theorem witness_portForced : ownedRun.runOn = true ∧ ownedRun.epochUses 10 = true ∧ bit (portControl0.par 18 1) 0 = true ∧
    passesOwner ownedRun cPortControl (portControl0.withByte 17 0) = true ∧ passesOwner ownedRun cPortControl (portControl0.withByte 17 2) = true := by
  decide +kernel

/-! ### The window, resets, the clock and the board -/

/-- The next command of the ring with its `SEQ`, and one out of turn. -/
def slot0 (n : Nat) : RingSlot := { opcode := 0, packet := { seq := n } }

theorem witness_intake : ({ idle0 with cmd := { en := true, nextSeq := 5 } } : State).intakeOpen = true ∧ idle0.inRun = false ∧
    idle0.cmd.unread + 32 ≤ idle0.cmd.slots ∧ idle0.cmd.foMsgs = [] ∧ (slot0 5).packet.seq = (5 : BitVec 32).toNat ∧
    (slot0 6).packet.seq ≠ (5 : BitVec 32).toNat := by decide +kernel

/-- A window with one reply waiting and one space left. -/
def replying : State := { idle0 with cmd := { en := true, rplWritten := 70, rplConsumed := 7, queue := [{ seq := 9, status := 0, reason := 0, results := [] }] } }

theorem witness_replyWrite : replying.cmd.queue = { seq := 9, status := 0, reason := 0, results := [] } :: [] ∧ replying.cmd.replySpace = true ∧
    replying.ideWaits = false ∧ replying.resets.pendingReset = none := by decide +kernel

theorem witness_registers : idle0.dev ≠ .off ∧ idle0.dev ≠ .boot ∧ (inState .running).dev ≠ .idle ∧ portExists idle0.variant 10 = true ∧ (511 : Nat) < 512 ∧
    bits (32 <<< 21) 26 21 ≤ 32 ∧ bits (32 <<< 21) 26 21 ≠ idle0.alarms.ovfGib ∧ (0x200004 : Nat) ≤ 0x200004 ∧ (7 : Nat) < 8 := by decide +kernel

/-- A block reset of port 10 in progress. -/
def blocked : State := { idle0 with resets := { blockBusy := true, blockKind := 0, blockIndex := 10 } }

theorem witness_block : (10 : Nat) < 22 ∧ idle0.resets.blockBusy = false ∧ portExists idle0.variant 10 = true ∧ idle0.epochUses 10 = false ∧
    ownedRun.dev ≠ .boot ∧ ownedRun.resets.blockBusy = false ∧ ownedRun.epochUses 10 = true ∧
    blocked.resets.blockBusy = true ∧ blocked.resets.blockTimedOut = false ∧ blocked.resets.blockIndex = 10 ∧
    100 ≤ 10 * blocked.resets.quiesce10us := by decide +kernel

/-- A record of the inventory without content, and a record of the box room. -/
def rec0 : InvRec := { kind := 0x21, flags := 0, sub := 0, seqno := 0, frame := 0, length := 0, time := 0, src := 0, digest := zeros 32, content := [] }
def box0 : BoxRec := { part := 0, bytes := zeros 64 }

/-- A package with a record, an event and an event message to be stored. -/
def storing : State := { idle0 with
  inv := { buffer := [rec0] }, alarms := { boxQueue := [box0] }, sec := { eventReceiver := some 8, events := [(1, [5])] } }

theorem witness_stored : storing.ringInterval = true ∧ storing.inv.buffer = rec0 :: [] ∧ storing.inv.head + rec0.recLen ≤ storing.ringSize ∧
    storing.inv.ringBytes + rec0.recLen ≤ storing.ringSize ∧ nextBox storing.alarms.boxQueue = some (box0, []) ∧
    storing.alarms.placeHeld box0.part = false ∧ storing.sec.eventReceiver = some 8 ∧ storing.sec.events = (1, [5]) :: [] := by decide +kernel

/-- A run in which a stretch event of window 3 is known, and its device. -/
def stretched : State := { run0 core0 with clock := { events := [3] } }

theorem witness_margins : (∀ y ∈ ([12, 40] : List Int), 12 ≤ y) ∧ (∃ y ∈ ([0, 40] : List Int), y ≤ 0) ∧ (run0 core0).runOn = true ∧
    (run0 core0).alarms.latch = none ∧ stretched.cycling = true ∧ (stretched.nextEvent 63).isSome = true ∧ (-8 : Int).natAbs ≤ 8 ∧
    8 < (9 : Int).natAbs ∧ (run0 core0).logicalRegion 63 = some 63 := by decide +kernel

/-- A package that has been over its cap, and at throttle temperature, for 1,024 rounds in `PEAK`. -/
def throttled : State := { idle0 with clock := { overRounds := 1024, throttleRounds := 1024, nextTargetKhz := some 1100000 } }

theorem witness_governor : powerCap throttled.variant throttled.clock.mode < 60000 ∧ 100 * 0 ≤ 95 * powerCap throttled.variant throttled.clock.mode ∧
    throttled.stats.tstate < 2 ∧ 95 * powerCap throttled.variant throttled.clock.mode < 100 * powerCap throttled.variant throttled.clock.mode ∧
    throttled.clock.mode ≠ .cool ∧ 1024 ≤ throttled.clock.overRounds ∧ 1024 ≤ throttled.clock.throttleRounds ∧
    throttled.clock.nextTargetKhz = some 1100000 ∧ ({ idle0 with clock := { mode := .cool } } : State).clock.mode = .cool := by decide +kernel

/-- A package after a trip, and one whose HBM enables are down or up in part. -/
def tripped0 : State := { idle0 with resets := { tripped := true } }
def hbm (a b : Bool) : State := { idle0 with pins := { hbmVpp := a, hbmVdd := b } }

theorem witness_rails : 110 ≤ idle0.calibrated (.region 63) 110 ∧ sensorExists idle0.variant (.site 5) = true ∧ idle0.resets.tripped = false ∧
    atTrip (.site 5) 120 = true ∧ tripped0.resets.tripped = true ∧ owned.resets.level ≠ some 0 ∧
    (hbm false false).railGood 13 = true ∧ (hbm false false).railGood 14 = true ∧ (hbm false false).pins.hbmVpp = false ∧
    (hbm true false).pins.hbmVpp = true ∧ (hbm true false).pins.hbmVdd = false ∧ (hbm true false).railGood 10 = true ∧
    (hbm true true).pins.hbmVdd = true ∧ (hbm true true).pins.hbmVddq = false ∧ (hbm true true).railGood 8 = true := by decide +kernel

/-- An idle package without a reset in force, its firmware past step 3, unlocked. -/
def running0 : State := { idle0 with resets := { level := none, bootStep := 9 }, sec := { unlocked := true } }

theorem witness_resets : running0.resets.level = none ∧ running0.firmwareRuns = true ∧ running0.sec.unlocked = true ∧ running0.dev ≠ .off ∧
    running0.dev ≠ .boot ∧ running0.resets.bootFail ≠ 8 ∧ State.reset.resets.level = some 0 ∧ idle0.sec.unlocked = false := by decide +kernel

theorem witness_release : ({ resets := { level := some 2 } } : State).resets.asserted.any (fun i => decide (i ≤ 2)) = false ∧
    ({ resets := { level := some 2 } } : State).resets.tripped = false ∧ ({ resets := { level := some 1 } } : State).resets.level = some 1 ∧
    State.reset.resets.level = some 0 := by decide +kernel

/-- A package that stages an update over PLDM. -/
def updating : State := { idle0 with sec := { pldmUpdate := true, fwStaged := true } }

theorem witness_board : idle0.servesMctp = true ∧ idle0.sec.pldmUpdate = false ∧ idle0.hostUpdates = false ∧ updating.sec.pldmUpdate = true ∧
    updating.sec.fwStaged = true ∧ ({ idle0 with settings := { deviceDue := 1 } } : State).settings.deviceDue ≠ 0 ∧
    ({ idle0 with inv := { cert := some { body := [], ckind := 1, signature := none } } } : State).inv.cert =
      some { body := [], ckind := 1, signature := none } := by decide +kernel

theorem witness_spdm : idle0.servesDoe = true ∧ idle0.sec.sessions = [] ∧ ({ idle0 with sec := { sessions := [1] } } : State).servesDoe = true ∧
    1 ∈ ({ idle0 with sec := { sessions := [1] } } : State).sec.sessions := by decide +kernel

theorem witness_idle : State.reset.pending = [] ∧ State.reset.dev = .off ∧ idle0.pending = [] ∧ idle0.dev ≠ .off ∧ idle0.time.rho = 0 ∧
    idle0.time.pendingOff = 0 := by decide +kernel

/-- The invariants hold of a state from which a step is taken. -/
theorem witness_invariants : State.reset.memoryOk ∧ State.reset.cmd.ok ∧ step State.reset = .next State.reset := by
  refine ⟨?_, ?_, rfl⟩
  · unfold State.memoryOk; decide +kernel
  · unfold CmdWin.ok; decide +kernel

theorem witness_missing : (81920 : Nat) ≤ 81920 ∧ portExists State.reset.variant 22 = false ∧ 160 * mioCount State.reset.variant ≤ 640 ∧ (64 : Nat) ≤ 64 := by
  decide +kernel

/-! ### Small runs -/

/-- What a step with command `c` in front leaves of a state. -/
def after {α : Type} (c : Instr) (s : State) (f : State → α) : Option α :=
  match step { s with pending := [c] } with
  | .next t => some (f t)
  | _ => none

/-- A register of core 0. -/
def sreg0 (n : Nat) (s : State) : Word := (s.core 0).sreg n

/-- A core with the largest number in s1, 33 in s2 and a word in its shelf. -/
def core2 : Core := { core0 with sregs := [(1, 0xFFFFFFFF), (2, 33)], shelf := [(64, 1), (65, 2), (66, 3), (67, 4)] }

-- The sums, shifts and products are hand calculation from the operations of R134.
theorem test_add_wraps : after (.add 0 3 1 2) (run0 core2) (sreg0 3) = some 32 := by decide +kernel
theorem test_add_source_is_destination : after (.add 0 1 1 1) (run0 core2) (sreg0 1) = some 0xFFFFFFFE := by decide +kernel
theorem test_sub_order : after (.sub 0 3 2 1) (run0 core2) (sreg0 3) = some 34 := by decide +kernel
theorem test_shl_amount : after (.shl 0 3 2 2) (run0 core2) (sreg0 3) = some 66 := by decide +kernel
theorem test_sra_sign : after (.sra 0 3 1 2) (run0 core2) (sreg0 3) = some 0xFFFFFFFF := by decide +kernel
theorem test_shr_zero : after (.shr 0 3 1 2) (run0 core2) (sreg0 3) = some 0x7FFFFFFF := by decide +kernel
theorem test_mulhu : after (.mulhu 0 3 1 1) (run0 core2) (sreg0 3) = some 0xFFFFFFFE := by decide +kernel
theorem test_slt_signed : after (.slt 0 3 1 2) (run0 core2) (sreg0 3) = some 1 := by decide +kernel
theorem test_sltu_unsigned : after (.sltu 0 3 1 2) (run0 core2) (sreg0 3) = some 0 := by decide +kernel
theorem test_s0_is_zero : after (.addi 0 0 1 9) (run0 core2) (sreg0 0) = some 0 := by decide +kernel
theorem test_lds_little_endian : after (.lds 0 3 0 0 64) (run0 core2) (sreg0 3) = some 0x04030201 := by decide +kernel

-- The largest finite and the smallest nonzero values of the table of R89.
theorem test_e4m3_largest : decodeVal 1 0x7E = .fin false 14 5 false := by decide
theorem test_e4m3_nan : decodeVal 1 0x7F = .nan := by decide
theorem test_e5m2_largest : decodeVal 2 0x7B = .fin false 7 13 false := by decide
theorem test_e5m2_infinity : decodeVal 2 0xFC = .inf true := by decide
theorem test_e2m1_largest : decodeVal 5 7 = .fin false 3 1 false := by decide
theorem test_half_smallest : decodeVal 9 1 = .fin false 1 (-24) false := by decide

-- The rounding of 1 + 2^-11 to binary16 is the tie of R104: to even.
theorem test_round_tie_even : encodeVal 9 0 false 0 false (.fin false 2049 (-11) false) = 0x3C00 := by decide

-- The published check values of the two CRCs and of SHAKE256 (PRESUMED: outside the spec, which names the functions).
theorem test_crc32c : crc32c (ascii "123456789") = 0xE3069283 := by decide +kernel
theorem test_crc8 : crc8 (ascii "123456789") = 0xF4 := by decide +kernel
theorem test_shake256 : shake256 [] 4 = [70, 185, 221, 43] := by decide +kernel

theorem test_rstCause_clear : after (.rstCauseClear 4) { State.reset with dev := .idle, resets := { cause := 5 } } (·.resets.cause) = some 1 := by decide +kernel
theorem test_intakePeriod_range : after (.registerWrite 0x010018 499) idle0 (·.cmd.intakePeriod) = some 2000 := by decide +kernel
theorem test_ping_reply : after (.ping (pkt [])) idle0 (fun t => t.cmd.queue.map (·.status)) = some [0] := by decide +kernel
theorem test_idle_tick : (match step { idle0 with time := { idle0.time with mtNs := 41 } } with
    | .next t => some (t.time.mtNs, t.time.tick)
    | _ => none) = some (42, 1) := by decide +kernel
theorem test_missing_core : exec (.nop 81920) State.reset = .fault .noSuchCore := rfl

end Sys2Proof.Tests
end

section
/-! PROOFS. The word accesses of the sequencer to the shelf (R63, R123): what their address check answers, and what an instruction that uses one
bank, or that meets a fault, leaves in the package. -/

namespace Sys2Proof.Machine

open Sys2Proof

/-! ### The checks -/

/-- A result that is ready before the end of the schedule does not spill (R54). -/
theorem chkSpill_of_lt {e r : Nat} (o : Nat) (h : r < e) : chkSpill e r o = .ok () := if_neg (Nat.not_le.mpr h)

/-- An access that stays in its declared banks does not escape them (R63). -/
theorem bankEscape_eq_false {addr : Nat} {based : Bool} {bankm : Byte} (hbank : based = true → bit bankm.toNat (addr / 32 % 8) = true) :
    (based && !bit bankm.toNat (addr / 32 % 8)) = false := by
  cases based
  · rfl
  · simp [hbank rfl]

/-- A legal word access passes its check (R63, R123). -/
theorem chkWordAccess_ok {addr align : Nat} {based : Bool} {bankm : Byte} (h : WordAccess addr align based bankm) :
    chkWordAccess addr align based bankm = .ok () := by
  obtain ⟨hbank, hrange, halign⟩ := h
  simp [chkWordAccess, bankEscape_eq_false hbank, Nat.not_lt.mpr hrange, halign]

/-- The fault of a word access outside the shelf, or else misaligned: above the shelf comes first (R140). -/
def wordFault (addr : Nat) : FaultRec := { reason := if 0xBFFF < addr then 0x0404 else 0x0405, detail := addr }

/-- An address in a declared bank that lies above the shelf or is misaligned faults. -/
theorem chkWordAccess_fault {addr align : Nat} {based : Bool} {bankm : Byte} (hbank : based = true → bit bankm.toNat (addr / 32 % 8) = true)
    (h : 0xBFFF < addr ∨ addr % align ≠ 0) :
    chkWordAccess addr align based bankm = .error (wordFault addr) := by
  by_cases hrange : 0xBFFF < addr
  · simp [chkWordAccess, wordFault, bankEscape_eq_false hbank, hrange]
  · simp [chkWordAccess, wordFault, bankEscape_eq_false hbank, hrange, h.resolve_left hrange]

/-! ### One use of a bank -/

/-- Leaving a word logs no use of a bank. -/
theorem Core.uses_advance {k k' : Core} {a n : Nat} {ex : Exit} (h : k.advance a n ex = .ok k') : k'.uses = k.uses := by
  unfold Core.advance at h
  split at h
  next loops n' looped _ =>
    cases ha : leaveArms a n' ex looped k.rets.length k.arms with
    | error f => simp [ha, bind, Except.bind] at h
    | ok arms =>
      simp only [ha, bind, Except.bind, pure, Except.pure, Except.ok.injEq] at h
      rw [← h]

/-- The use of a shelf bank that is free in its cycle is logged without a conflict (R63). -/
theorem Core.logUses_seqUse {k : Core} (k0 : Core) {a t : Nat} (h : BankFree k (a / 32 % 8) t) :
    k.logUses (seqUse k0 a t) = (withUse k a t k0.pc, none) := by
  have hfind : k.uses.find? (fun v => v.cycle == t && v.bank == a / 32 % 8) = none := by
    rw [List.find?_eq_none]
    intro v hv
    simpa using h v hv
  simp only [seqUse, Core.logUses, useConflict, hfind]
  rfl

/-- An instruction that falls through and uses one free bank of the shelf: its effect, the use, and `CUR_CYCLE`. -/
theorem onCore_seqRun_use {s : State} {c a t : Nat} {k k' : Core} {run : State → Core → Res SeqEff} (h : Issues s c)
    (hr : run (atIssue s c) (issuing s c) = .ok { core := k, uses := seqUse (issuing s c) a t }) (hpc : k.pc = (issuing s c).pc)
    (hu : k.uses = (issuing s c).uses) (hb : BankFree (issuing s c) (a / 32 % 8) t) (hk : Falls k k') :
    onCore c s (fun s => seqRun c s noForm run) = .next (issued s c (withUse k' a t (issuing s c).pc)) := by
  have hk : k.advance (issuing s c).pc ((issuing s c).pc + 1) .fall = .ok k' := hpc ▸ hk
  have hb' : BankFree k' (a / 32 % 8) t := by
    unfold BankFree at hb ⊢
    rwa [Core.uses_advance hk, hu]
  rw [onCore_next _ _ h.exists_, seqRun_issues h rfl hr]
  unfold applySeq
  simp only [Option.getD_none, hk, Core.logUses_seqUse (issuing s c) hb']
  rfl

/-! ### A fault -/

/-- A fault of core `c` is the last record of the freeze network, with its reason and its core, and halts the core (R85 to R87). -/
theorem raiseCore_records (s : State) (c unit pc cycle : Nat) (f : FaultRec) :
    ∃ r, (raiseCore s c unit pc cycle f).freeze.raised = s.freeze.raised ++ [r] ∧ r.reason = f.reason ∧ r.lcore = c ∧
      ((raiseCore s c unit pc cycle f).core c).halted = true := by
  obtain ⟨x, n, he, hx⟩ := raiseCore_eq s c unit pc cycle f
  refine ⟨s.coreRec c unit pc cycle f, by rw [he]; exact hx, rfl, rfl, ?_⟩
  rw [he]
  exact congrArg Core.halted (State.core_setCore_self s c _)

/-- A sequencer that issues does what its word asks for. -/
theorem seqRun_eq_seqBody {c : Nat} {s : State} (form : Core → Bool → Res Unit) (run : State → Core → Res SeqEff) (h : Issues s c) :
    seqRun c s form run = seqBody c (issuing s c).cyc (atIssue s c) (issuing s c) form run := by
  have hcan : ¬ (!s.canIssue c || (s.core c).waitFlag.isSome) = true := by simp [h.can, h.noWait]
  have halive : ¬ ((atIssue s c).core c).halted = true := by simpa [issuing] using h.alive
  rw [issuing_cyc, seqRun, if_neg hcan]
  exact if_neg halive

/-- An instruction that issues, passes its form and meets a fault raises it. -/
theorem seqRun_raises {c : Nat} {s : State} {form : Core → Bool → Res Unit} {run : State → Core → Res SeqEff} {f : FaultRec} (h : Issues s c)
    (hf : form (issuing s c) false = .ok ()) (hr : run (atIssue s c) (issuing s c) = .error f) :
    seqRun c s form run = raiseCore (atIssue s c) c 0 (issuing s c).pc (issuing s c).cyc f := by
  have hw : ¬ lastWord < (issuing s c).pc := Nat.not_lt.mpr h.word
  rw [seqRun_eq_seqBody form run h, seqBody]
  simp [hw, h.unskipped, hf, Core.chkPage_ok h.page, hr, bind, Except.bind]

/-- What is left of an instruction that meets a fault: its record, and its core halted. -/
theorem onCore_seqRun_fault {s : State} {c : Nat} {run : State → Core → Res SeqEff} {f : FaultRec} (h : Issues s c)
    (hr : run (atIssue s c) (issuing s c) = .error f) :
    ∃ u r, onCore c s (fun s => seqRun c s noForm run) = .next u ∧ u.freeze.raised = (atIssue s c).freeze.raised ++ [r] ∧
      r.reason = f.reason ∧ r.lcore = c ∧ (u.core c).halted = true := by
  obtain ⟨r, hraised, hreason, hcore, hhalted⟩ := raiseCore_records (atIssue s c) c 0 (issuing s c).pc (issuing s c).cyc f
  exact ⟨_, r, by rw [onCore_next _ _ h.exists_, seqRun_raises h rfl hr], hraised, hreason, hcore, hhalted⟩

/-! ### `LDS` and `STS` (R122, R123, R134) -/

section
variable {s : State} {c : Nat} {rd ra : Fin 32} {bankm : Byte} {imm : Word} {k' : Core} (h : Issues s c)
  (hra : Readable (issuing s c) 0 ra (issuing s c).cyc)
include h hra

/-- `LDS` of a legal address in a free bank: the word of the shelf as it is readable at t + 1, ready at t + 2. -/
theorem exec_lds_of_wordAccess (hrd : Writable (atIssue s c) (issuing s c) 0 rd ((issuing s c).cyc + 2))
    (ha : WordAccess (ldsAddr (issuing s c) ra imm) 4 (ra ≠ 0) bankm)
    (hb : BankFree (issuing s c) (ldsAddr (issuing s c) ra imm / 32 % 8) ((issuing s c).cyc + 1))
    (hk : Falls (withScalar (issuing s c) rd
      (BitVec.ofNat 32 (ofLe ((issuing s c).load .shelf (ldsAddr (issuing s c) ra imm) 4 ((issuing s c).cyc + 1)))) 2) k') :
    exec (.lds c rd ra bankm imm) s =
      .next (issued s c (withUse k' (ldsAddr (issuing s c) ra imm) ((issuing s c).cyc + 1) (issuing s c).pc)) := by
  refine onCore_seqRun_use h ?_ (by simp [withScalar]) (by simp [withScalar]) hb hk
  have hc := chkWordAccess_ok ha
  unfold ldsAddr at hc
  simp only [Core.readS_ok hra, Core.chkWrite_ok hrd, chkSpill_ok _ hrd, hc, bind, Except.bind]
  rfl

/-- `LDS` of any other address in a declared bank faults. -/
theorem exec_lds_fault (hrd : Writable (atIssue s c) (issuing s c) 0 rd ((issuing s c).cyc + 2))
    (hbank : ra ≠ 0 → bit bankm.toNat (ldsAddr (issuing s c) ra imm / 32 % 8) = true)
    (ha : 0xBFFF < ldsAddr (issuing s c) ra imm ∨ ldsAddr (issuing s c) ra imm % 4 ≠ 0) :
    ∃ u r, exec (.lds c rd ra bankm imm) s = .next u ∧ u.freeze.raised = (atIssue s c).freeze.raised ++ [r] ∧
      r.reason = (if 0xBFFF < ldsAddr (issuing s c) ra imm then 0x0404 else 0x0405) ∧ r.lcore = c ∧ (u.core c).halted = true := by
  refine onCore_seqRun_fault (f := wordFault (ldsAddr (issuing s c) ra imm)) h ?_
  have hc := chkWordAccess_fault (based := ra ≠ 0) (by simpa using hbank) ha
  unfold ldsAddr at hc ⊢
  simp only [Core.readS_ok hra, Core.chkWrite_ok hrd, chkSpill_ok _ hrd, hc, bind, Except.bind]

/-- `STS` of a legal address in a free bank: the word is in flight to the shelf, readable at t + 2. -/
theorem exec_sts_of_wordAccess (hrd : Readable (issuing s c) 0 rd (issuing s c).cyc) (he : (issuing s c).cyc + 2 < (atIssue s c).frame.e)
    (ha : WordAccess (ldsAddr (issuing s c) ra imm) 4 (ra ≠ 0) bankm)
    (hb : BankFree (issuing s c) (ldsAddr (issuing s c) ra imm / 32 % 8) ((issuing s c).cyc + 1))
    (hk : Falls (withPending (issuing s c)
      { unit := 0, pc := (issuing s c).pc, ready := (issuing s c).cyc + 2,
        writes := [{ space := .shelf, core := c, addr := ldsAddr (issuing s c) ra imm,
                     bytes := leBytes 4 ((issuing s c).sreg rd).toNat }] }) k') :
    exec (.sts c rd ra bankm imm) s =
      .next (issued s c (withUse k' (ldsAddr (issuing s c) ra imm) ((issuing s c).cyc + 1) (issuing s c).pc)) := by
  refine onCore_seqRun_use h ?_ (by simp [withPending]) (by simp [withPending]) hb hk
  have hc := chkWordAccess_ok ha
  unfold ldsAddr at hc
  simp only [Core.readS_ok hra, Core.readS_ok hrd, chkSpill_of_lt _ he, hc, bind, Except.bind]
  rfl

/-- `STS` of any other address in a declared bank faults. -/
theorem exec_sts_fault (hrd : Readable (issuing s c) 0 rd (issuing s c).cyc) (he : (issuing s c).cyc + 2 < (atIssue s c).frame.e)
    (hbank : ra ≠ 0 → bit bankm.toNat (ldsAddr (issuing s c) ra imm / 32 % 8) = true)
    (ha : 0xBFFF < ldsAddr (issuing s c) ra imm ∨ ldsAddr (issuing s c) ra imm % 4 ≠ 0) :
    ∃ u r, exec (.sts c rd ra bankm imm) s = .next u ∧ u.freeze.raised = (atIssue s c).freeze.raised ++ [r] ∧
      r.reason = (if 0xBFFF < ldsAddr (issuing s c) ra imm then 0x0404 else 0x0405) ∧ r.lcore = c ∧ (u.core c).halted = true := by
  refine onCore_seqRun_fault (f := wordFault (ldsAddr (issuing s c) ra imm)) h ?_
  have hc := chkWordAccess_fault (based := ra ≠ 0) (by simpa using hbank) ha
  unfold ldsAddr at hc ⊢
  simp only [Core.readS_ok hra, Core.readS_ok hrd, chkSpill_of_lt _ he, hc, bind, Except.bind]
end

/-- Settles O3: an access whose address passes its check completes, and any other address in a declared bank faults. -/
theorem wordAccessesAreAlignedAndInRange : Obligations.WordAccessesAreAlignedAndInRange := by
  intro s c rd ra bankm imm k' h
  dsimp only
  intro hra hbank
  have hword : ldsAddr (issuing s c) ra imm ≤ 0xBFFF → ldsAddr (issuing s c) ra imm % 4 = 0 →
      WordAccess (ldsAddr (issuing s c) ra imm) 4 (ra ≠ 0) bankm := fun hrange halign => ⟨by simpa using hbank, hrange, halign⟩
  constructor
  · intro hrd
    exact ⟨fun hrange halign => exec_lds_of_wordAccess h hra hrd (hword hrange halign), exec_lds_fault h hra hrd hbank⟩
  · intro hrd he
    exact ⟨fun hrange halign => exec_sts_of_wordAccess h hra hrd he (hword hrange halign), exec_sts_fault h hra hrd he hbank⟩

end Sys2Proof.Machine
end

section
/-! PROOFS. What a host command that passes its checks does (R411, R415, R416), and the answer of `STREAM_STATUS` (R334). -/

namespace Sys2Proof.Machine

open Sys2Proof

/-! ### Runs of bytes and result bytes -/

@[simp] theorem length_slice (bs : List Byte) (a n : Nat) : (slice bs a n).length = n := by
  simp only [slice, zeros, List.length_append, List.length_replicate, List.length_take]
  omega

/-- Result bytes from byte `a` stand at `a`, `a + 1` and so on. -/
theorem map_fst_resAt (a : Nat) (bs : List Byte) : (resAt a bs).map (·.1) = (List.range bs.length).map (a + ·) := by
  have h : (resAt a bs).map (·.1) = (bs.zipIdx.map (·.2)).map (a + ·) := by
    simp only [resAt, List.map_map]
    rfl
  rw [h, List.zipIdx_map_snd, List.range_eq_range']

@[simp] theorem map_snd_resAt (a : Nat) (bs : List Byte) : (resAt a bs).map (·.2) = bs := by
  have h : (resAt a bs).map (·.2) = bs.zipIdx.map (·.1) := by
    simp only [resAt, List.map_map]
    rfl
  rw [h, List.zipIdx_map_fst]

/-! ### A host command -/

/-- A command that makes no record is only counted (R349, R416). -/
theorem received_of_not_recorded (s : State) {op : Nat} (k : Packet) (h : recorded op = false) :
    received s op k = { s with cmd := { s.cmd with commands := s.cmd.commands + 1 } } := by
  simp [received, h]

/-- The verdict on a command that passes its checks is that of its own rules (R415). -/
theorem verdict_of_passes {s s1 : State} {c : Cmd} {k : Packet} (h : Passes s c k s1) :
    verdict (received s c.opcode k) c.opcode (some c) .ring k = c.run k s1 := by
  have hread : (k.pblk && !k.readOk) = false := by
    cases hp : k.pblk
    · rfl
    · simp [h.read hp]
  have hbusy : (c.single && s1.cmd.out.any (·.long)) = false := by
    cases hs : c.single
    · rfl
    · simp [h.alone hs]
  have hauth : (if needsOwner k c = true then authorise (received s c.opcode k) c.opcode k
      else if k.role = 1 then .error 0x0815 else .ok (received s c.opcode k)) = .ok s1 := by
    cases ho : needsOwner k c
    · obtain ⟨hrole, rfl⟩ := h.host ho
      simp [hrole]
    · simpa using h.owner ho
  simp only [verdict, judge, h.form, hread, h.state, hauth, hbusy, h.once]
  rfl

/-- A command that passes its checks is answered by its own rules (R415, R416). -/
theorem hostCommand_of_passes {s s1 : State} {c : Cmd} {k : Packet} (h : Passes s c k s1) :
    hostCommand c k s = .next (closeLink (giveVerdict c.opcode c.single k (c.run k s1))) := by
  have hfits : ¬ (CmdSource.ring = .ring ∧ recorded c.opcode = true ∧
      (!State.commandFits { s with cmd := { s.cmd with commands := s.cmd.commands + 1 } } c.opcode k) = true) := by
    rintro ⟨-, hrec, hno⟩
    rw [h.fits hrec] at hno
    exact absurd hno (by decide)
  rw [← verdict_of_passes h, hostCommand, if_neg (by simp [h.taken]), takeCommand, if_neg hfits]
  simp only [received, true_and]

@[simp] theorem closeLink_cmd (s : State) : (closeLink s).cmd = s.cmd := by
  unfold closeLink
  split <;> rfl

/-- A final verdict other than `NOT_AUTHORISED` is the last reply of the queue: with room in the queue and `EN` set (R412). -/
theorem giveVerdict_final_queue {s : State} (op : Nat) (single : Bool) (k : Packet) {status : Nat} (reason : Nat) (results : List (Nat × Byte))
    (hst : status ≠ stNotAuth) (hen : s.cmd.en = true) (hroom : s.cmd.queue.length < 1024) :
    (giveVerdict op single k (.final s status reason results)).cmd.queue = s.cmd.queue ++ [{ seq := k.seq, status, reason, results }] := by
  rw [giveVerdict, if_neg hst, postReply_queued _ _ _ _ hen hroom]

/-! ### `STREAM_STATUS` (R334) -/

/-- The package that its own rules find is the one before, with the command counted: the host sends it, and it makes no record. -/
theorem eq_of_passes_cStreamStatus {s s1 : State} {k : Packet} (h : Passes s cStreamStatus k s1) :
    s1 = { s with cmd := { s.cmd with commands := s.cmd.commands + 1 } } := by
  obtain ⟨-, hs1⟩ := h.host rfl
  rw [hs1, received_of_not_recorded s k rfl]

/-- An entry number in range is answered `OK`, with the first 104 bytes of its entry. -/
theorem cStreamStatus_run (s : State) {k : Packet} (h : k.par 16 4 < 16384) :
    cStreamStatus.run k s = .final s stOk 0 (resAt 24 (slice (s.stream (k.par 16 4)).bytes 0 104)) :=
  if_neg (Nat.not_le.mpr h)

/-- Settles O38: the command passes, its own rules answer `OK`, and the reply is the last of the queue. -/
theorem streamStatusGivesTheEntry : Obligations.StreamStatusGivesTheEntry := by
  rintro s s1 k h hen hroom n rfl hn
  obtain rfl := eq_of_passes_cStreamStatus h
  refine ⟨_, { seq := k.seq, status := stOk, reason := 0, results := resAt 24 (slice (s.stream (k.par 16 4)).bytes 0 104) },
    hostCommand_of_passes h, ?_, rfl, rfl, rfl, ?_, map_snd_resAt 24 _⟩
  · rw [closeLink_cmd, cStreamStatus_run _ hn]
    exact giveVerdict_final_queue _ _ k 0 _ (by decide) hen hroom
  · rw [map_fst_resAt, length_slice]

end Sys2Proof.Machine
end

section
/-! PROOFS. What every step keeps: what the device is, the ranges of the command window (R409, R412), and the canonical form of the Hatch and of the
cellars. One relation, `Keeps`, and one lemma per function of the model that says the function keeps it; a step is then a short case analysis. -/

namespace Sys2Proof.Machine

open Sys2Proof

/-- What every step keeps, from a state to a later one: what the device is, the ranges of the command window, and the canonical form of the Hatch and
of the cellars. -/
structure Keeps (s t : State) : Prop where
  variant : t.variant = s.variant
  stepping : t.stepping = s.stepping
  serial : t.serial = s.serial
  boardPos : t.boardPos = s.boardPos
  window : s.cmd.ok → t.cmd.ok
  hatch : Memory.wf s.hatch.bytes = true → Memory.wf t.hatch.bytes = true
  cellar : Memory.wf s.cellar.bytes = true → Memory.wf t.cellar.bytes = true

section

variable {s t u : State}

theorem Keeps.refl (s : State) : Keeps s s := ⟨rfl, rfl, rfl, rfl, id, id, id⟩

theorem Keeps.trans (h : Keeps s t) (h' : Keeps t u) : Keeps s u where
  variant := h'.variant.trans h.variant
  stepping := h'.stepping.trans h.stepping
  serial := h'.serial.trans h.serial
  boardPos := h'.boardPos.trans h.boardPos
  window := h'.window ∘ h.window
  hatch := h'.hatch ∘ h.hatch
  cellar := h'.cellar ∘ h.cellar

/-- An update of the state keeps what it does not touch, and what its new window and memories keep. -/
theorem Keeps.update {dev cores contexts pathUses frame freeze fabric verA verB land landQueue capture ports plan noteIn xoff noteSrcs
    noteSeqs requests heldRequests resendQueue resendPosted transit cellar hatch cmd mgmt streams inv time clock stats alarms settings sec resets pins
    hostOut freeCtr pending} (h : Keeps s t) (hw : t.cmd.ok → CmdWin.ok cmd) (hh : Memory.wf t.hatch.bytes = true → Memory.wf
      (Hatch.bytes hatch) = true)
    (hc : Memory.wf t.cellar.bytes = true → Memory.wf (Cellar.bytes cellar) = true) :
    Keeps s { t with dev, cores, contexts, pathUses, frame, freeze, fabric, verA, verB, land, landQueue, capture, ports, plan, noteIn, xoff, noteSrcs,
                     noteSeqs, requests, heldRequests, resendQueue, resendPosted, transit, cellar, hatch, cmd, mgmt, streams, inv, time, clock, stats,
                     alarms, settings, sec, resets, pins, hostOut, freeCtr, pending } :=
  h.trans ⟨rfl, rfl, rfl, rfl, hw, hh, hc⟩

/-- An update of parts that are neither the window nor a memory. -/
theorem Keeps.set {dev cores contexts pathUses frame freeze fabric verA verB land landQueue capture ports plan noteIn xoff noteSrcs
    noteSeqs requests heldRequests resendQueue resendPosted transit mgmt streams inv time clock stats alarms settings sec resets pins
    hostOut freeCtr pending} (h : Keeps s t) :
    Keeps s { t with dev, cores, contexts, pathUses, frame, freeze, fabric, verA, verB, land, landQueue, capture, ports, plan, noteIn, xoff, noteSrcs,
                     noteSeqs, requests, heldRequests, resendQueue, resendPosted, transit, mgmt, streams, inv, time, clock, stats,
                     alarms, settings, sec, resets, pins, hostOut, freeCtr, pending } :=
  h.trans ⟨rfl, rfl, rfl, rfl, id, id, id⟩

theorem keeps_ite {c : Prop} [Decidable c] (h : Keeps s t) (h' : Keeps s u) : Keeps s (if c then t else u) := by split <;> assumption

/-- What every element of a fold keeps, the fold keeps. -/
theorem keeps_foldl {β : Type} {f : State → β → State} {l : List β} (h : Keeps s t) (hf : ∀ u b, Keeps s u → Keeps s (f u b)) :
    Keeps s (l.foldl f t) := foldl_keeps (P := Keeps s) f hf l h

theorem Keeps.of_fst {α : Type} {p : State × α} {a : α} (h : Keeps s p.1) (hp : p = (t, a)) : Keeps s t := by rw [hp] at h; exact h

theorem Keeps.of_snd {α : Type} {p : α × State} {a : α} (h : Keeps s p.2) (hp : p = (a, t)) : Keeps s t := by rw [hp] at h; exact h

/-! ### Verdicts, commands and answers -/

/-- A verdict keeps: the state it is given in does, and so does what an accepted command then does at once. -/
def VerdictKeeps (s : State) : Verdict → Prop
  | .final t _ _ _ => Keeps s t
  | .silent t => Keeps s t
  | .long t act => Keeps s t ∧ ∀ u, Keeps s u → Keeps s (act u)

/-- The own rules of a command keep. -/
def CmdKeeps (c : Cmd) : Prop := ∀ k s t, Keeps s t → VerdictKeeps s (c.run k t)

/-- An answer keeps: a next state does. -/
def OutKeeps (s : State) (o : Out) : Prop := ∀ t, o = .next t → Keeps s t

theorem outKeeps_next (h : Keeps s t) : OutKeeps s (.next t) := by
  rintro _ ⟨rfl⟩
  exact h

theorem outKeeps_fault (f : Fault) : OutKeeps s (.fault f) := by simp [OutKeeps]

theorem outKeeps_onCore {c : Nat} {f : State → State} (h : Keeps s (f t)) : OutKeeps s (onCore c t f) := by
  unfold onCore
  split
  · exact outKeeps_next h
  · exact outKeeps_fault _

theorem outKeeps_onPort {p : Nat} {f : State → State} (h : Keeps s (f t)) : OutKeeps s (onPort p t f) := by
  unfold onPort
  split
  · exact outKeeps_next h
  · exact outKeeps_fault _

theorem outKeeps_onCtl {k : Nat} {f : State → State} (h : Keeps s (f t)) : OutKeeps s (onCtl k t f) := by
  unfold onCtl
  split
  · exact outKeeps_next h
  · exact outKeeps_fault _

theorem keeps_refuse {st r} (h : Keeps s t) : VerdictKeeps s (refuse t st r) := h

theorem keeps_okWith {bs} (h : Keeps s t) : VerdictKeeps s (okWith t bs) := h

/-! ### What a command of an engine does to the rest of the package -/

/-- The effect of a command on the rest of the package keeps. -/
def CmdEff.PostKeeps (g : CmdEff) : Prop := ∀ s t, Keeps s t → Keeps s (g.post t)

/-- Where a command has an effect, the part of it that lies outside the core keeps. -/
def ResKeeps (r : CRes CmdEff) : Prop := ∀ g, r = .ok g → g.PostKeeps

theorem resKeeps_error (f : Nat × FaultRec) : ResKeeps (.error f) := by simp [ResKeeps]

theorem resKeeps_throw (f : Nat × FaultRec) : ResKeeps (throw f) := resKeeps_error f

theorem throw_eq_ok {α : Type} (f : Nat × FaultRec) (a : α) : ((throw f : CRes α) = .ok a) ↔ False := by simp [throw, throwThe, MonadExceptOf.throw]

theorem resKeeps_pure (g : CmdEff) : ResKeeps (pure g) ↔ g.PostKeeps := by
  simp [ResKeeps, pure, Except.pure]

theorem resKeeps_bind {α : Type} (x : CRes α) (f : α → CRes CmdEff) : ResKeeps (x >>= f) ↔ ∀ a, x = .ok a → ResKeeps (f a) := by
  cases x with
  | error e => simp [bind, Except.bind, resKeeps_error]
  | ok a => simp [bind, Except.bind]

theorem resKeeps_ite {c : Prop} [Decidable c] (a b : CRes CmdEff) :
    ResKeeps (if c then a else b) ↔ (c → ResKeeps a) ∧ (¬ c → ResKeeps b) := by split <;> simp [*]

/-- A command whose effect lies in its core and in what it has in flight. -/
theorem CmdEff.postKeeps_id {core pends others uses otherUses paths} :
    CmdEff.PostKeeps { core, pends, others, uses, otherUses, paths, post := id } := fun _ _ h => h

/-! ### Operations that every part shares -/

theorem keeps_useFree {n} (h : Keeps s t) : Keeps s (t.useFree n) :=
  h.set

theorem keeps_setCore {c k} (h : Keeps s t) : Keeps s (t.setCore c k) :=
  h.set

theorem keeps_setPort {p q} (h : Keeps s t) : Keeps s (t.setPort p q) :=
  h.set

theorem keeps_modPort {p f} (h : Keeps s t) : Keeps s (t.modPort p f) :=
  keeps_setPort h

theorem keeps_setCtl {k x} (h : Keeps s t) : Keeps s (t.setCtl k x) :=
  h.update id id id

theorem keeps_advanceTo {t'} (h : Keeps s t) : Keeps s (t.advanceTo t') :=
  keeps_ite h.set h

theorem keeps_boxEvent {kind body} (h : Keeps s t) : Keeps s (boxEvent t kind body) :=
  keeps_ite h (keeps_ite h.set h.set)

theorem keeps_pldmEvent {cls body} (h : Keeps s t) : Keeps s (pldmEvent t cls body) :=
  keeps_ite h.set h.set

theorem keeps_setDev {d} (h : Keeps s t) : Keeps s (setDev t d) :=
  keeps_ite h.set (keeps_pldmEvent h.set)

theorem keeps_alertLine (h : Keeps s t) : Keeps s (t.alertLine) :=
  h.set

theorem keeps_raiseAlarm {reason source body fault perFrame} (h : Keeps s t) : Keeps s (raiseAlarm t reason source body fault perFrame) :=
  keeps_alertLine (keeps_ite (keeps_pldmEvent h.set) h.set)

theorem keeps_deviceCommit (h : Keeps s t) : Keeps s (deviceCommit t) :=
  h.set

theorem keeps_latchFault {f source} (h : Keeps s t) : Keeps s (latchFault t f source) :=
  keeps_ite (keeps_raiseAlarm h) (keeps_boxEvent ((keeps_raiseAlarm h).set))

theorem keeps_raiseCore {c unit pc cycle f} (h : Keeps s t) : Keeps s (raiseCore t c unit pc cycle f) :=
  (keeps_setCore h).set

theorem keeps_requestFreeze {c unit arrival f t' pc} (h : Keeps s t) : Keeps s (requestFreeze t c unit arrival f t' pc) :=
  keeps_ite h h.set

/-! ### The cellars’ map -/

theorem keeps_rewriteSector {n} (h : Keeps s t) : Keeps s (rewriteSector t n) :=
  h.update id id (Memory.wf_writeBytes _ _)

theorem keeps_cellarWrite {da bs} (h : Keeps s t) : Keeps s (t.cellarWrite da bs) := by
  obtain ⟨b, e, he, hb⟩ := State.cellarWrite_eq bs t da
  rw [he]
  exact h.update id id hb

theorem keeps_hatchWrite {off bs} (h : Keeps s t) : Keeps s (t.hatchWrite off bs) :=
  h.update id (Memory.wf_writeBytes _ _) id

theorem keeps_applyDevice {w} (h : Keeps s t) : Keeps s (t.applyDevice w) := by
  unfold State.applyDevice
  split
  · exact keeps_cellarWrite h
  · exact keeps_hatchWrite h
  · exact h

theorem keeps_settleDevice {c t'} (h : Keeps s t) : Keeps s (settleDevice t c t') :=
  keeps_ite h (keeps_foldl (keeps_setCore h) fun _ _ hu => keeps_applyDevice hu)

theorem keeps_emptyBuffer {c f} (h : Keeps s t) : Keeps s (t.emptyBuffer c f) := by
  unfold State.emptyBuffer
  split
  · exact h.set
  · exact h

theorem keeps_settle {c t'} (h : Keeps s t) : Keeps s (settle t c t') := by
  unfold settle
  dsimp only
  exact keeps_foldl (keeps_setCore (keeps_foldl (keeps_settleDevice h) fun _ _ hu => keeps_emptyBuffer hu)) fun _ _ hu => keeps_raiseCore hu

/-! ### Notes and the service lane -/

theorem keeps_setVersion {b v} (h : Keeps s t) : Keeps s (t.setVersion b v) :=
  keeps_ite h.set h.set

theorem keeps_portLoss {p} (h : Keeps s t) : Keeps s (portLoss t p) :=
  keeps_raiseAlarm (keeps_modPort h)

theorem keeps_dropHdr {p} (h : Keeps s t) : Keeps s (dropHdr t p) :=
  keeps_portLoss (keeps_modPort h)

theorem keeps_enqueueCopy {p h' payload straggler} (h : Keeps s t) : Keeps s (enqueueCopy t p h' payload straggler) :=
  keeps_ite (keeps_setPort h) (keeps_ite (keeps_portLoss (keeps_setPort h.set)) (keeps_setPort h))

theorem keeps_enqueueLanding {input h' payload} (h : Keeps s t) : Keeps s (enqueueLanding t input h' payload) :=
  keeps_ite (keeps_ite h (keeps_dropHdr h)) h.set

theorem keeps_postCopies {e h' payload straggler} (h : Keeps s t) : Keeps s (postCopies t e h' payload straggler) :=
  keeps_ite (keeps_enqueueLanding (keeps_foldl h fun _ _ hu => keeps_enqueueCopy hu)) (keeps_foldl h fun _ _ hu => keeps_enqueueCopy hu)

theorem keeps_frameCheck {e h' payload} (h : Keeps s t) : Keeps s (frameCheck t e h' payload) :=
  keeps_ite h (keeps_foldl h fun _ _ hu => hu.set)

theorem keeps_sampleHdr {p tx t' slot resent straggler service h'} (h : Keeps s t) : Keeps s (sampleHdr t p tx t' slot resent straggler service h') :=
  keeps_ite h (keeps_ite (keeps_setPort h) (keeps_ite ((keeps_setPort h).set) ((keeps_setPort h).set)))

theorem keeps_drainList {input : Nat} {l : List NoteCopy} {blocked : List Nat} (h : Keeps s t) : Keeps s (drainList input l blocked t).1 := by
  induction l generalizing blocked t with
  | nil => exact h
  | cons c l ih =>
    unfold drainList
    split
    · exact ih h
    · have h1 := keeps_foldl (l := c.outs) h fun _ q hu => keeps_modPort (p := q)
        (f := fun o => { o with noteSent := o.noteSent + 1, outNotes := o.outNotes ++ [c] }) hu
      exact ih (keeps_ite h1 (keeps_modPort h1))

theorem keeps_drainStore {input} (h : Keeps s t) : Keeps s (drainStore t input) := by
  unfold drainStore
  split
  next x s' rest heq =>
    have hu := Keeps.of_fst (keeps_drainList h) heq
    exact keeps_modPort hu

theorem keeps_drainNotes (h : Keeps s t) : Keeps s (drainNotes t) :=
  keeps_foldl h fun _ _ hu => keeps_drainStore hu

theorem keeps_storeNote {input n outs} (h : Keeps s t) : Keeps s (storeNote t input n outs) :=
  keeps_ite (keeps_ite h (keeps_modPort h)) (keeps_drainNotes (keeps_modPort h))

theorem keeps_dropNote (h : Keeps s t) : Keeps s (dropNote t) :=
  h.set

theorem keeps_updateXoff (h : Keeps s t) : Keeps s (t.updateXoff) :=
  h.set

theorem keeps_deliverNote {n} (h : Keeps s t) : Keeps s (deliverNote t n) :=
  keeps_ite (keeps_updateXoff h.set) (keeps_dropNote h)

theorem keeps_setNoteSrc {r} (h : Keeps s t) : Keeps s (t.setNoteSrc r) :=
  h.set

theorem keeps_releaseHeld {n : Nat} {r : NoteSrc} (h : Keeps s t) : Keeps s (releaseHeld n t r).1 := by
  induction n generalizing t r with
  | zero => exact h
  | succ n ih =>
    unfold releaseHeld
    split
    · exact h
    · exact ih (keeps_deliverNote h)

theorem keeps_sequenceNote {bc n} (h : Keeps s t) : Keeps s (sequenceNote t bc n) := by
  unfold sequenceNote
  dsimp only
  exact keeps_ite h.set (keeps_ite (keeps_setNoteSrc (keeps_releaseHeld (keeps_deliverNote h))) (keeps_ite (keeps_dropNote h) (keeps_setNoteSrc h)))

theorem keeps_receiveNote {p n} (h : Keeps s t) : Keeps s (receiveNote t p n) := by
  unfold receiveNote
  dsimp only
  split
  · exact keeps_dropNote (keeps_modPort (keeps_modPort h))
  · split
    · exact keeps_storeNote (keeps_ite (keeps_modPort h) (keeps_sequenceNote (keeps_modPort h)))
    · split
      · exact keeps_dropNote (keeps_modPort (keeps_modPort h))
      · split
        · exact keeps_sequenceNote (keeps_modPort (keeps_modPort h))
        · split
          · exact keeps_dropNote (keeps_modPort (keeps_modPort h))
          · exact keeps_storeNote (keeps_ite ((keeps_modPort h).set) (keeps_modPort h))

theorem keeps_sendNote {ntype dest payload} (h : Keeps s t) : Keeps s (sendNote t ntype dest payload) := by
  unfold sendNote
  split
  · split
    · exact keeps_storeNote h.set
    · split
      · exact keeps_dropNote h
      · dsimp only
        split
        · exact keeps_dropNote h
        · exact keeps_storeNote (keeps_ite h.set h.set)

theorem keeps_takeNote {ntype x y z} (h : Keeps s t) : Keeps s (takeNote t ntype x y z) := by
  unfold takeNote
  split
  · exact keeps_updateXoff h.set
  · exact h

theorem keeps_repost {flow frame seq} (h : Keeps s t) : Keeps s (repost t flow frame seq) := by
  unfold repost
  dsimp only
  split
  · exact keeps_postCopies h.set
  · exact h

theorem keeps_serveQueue {n : Nat} (h : Keeps s t) : Keeps s (serveQueue n t) := by
  induction n generalizing t with
  | zero => exact h
  | succ n ih =>
    unfold serveQueue
    split
    · exact h
    · split
      · exact h
      · exact ih (keeps_repost h.set)

theorem keeps_resendEvent {served flow frame first count} (h : Keeps s t) : Keeps s (resendEvent t served flow frame first count) :=
  keeps_boxEvent h

theorem keeps_serveResend {flow frame first count} (h : Keeps s t) : Keeps s (serveResend t flow frame first count) :=
  keeps_ite h (keeps_ite h.set (keeps_serveQueue ((keeps_resendEvent h).set)))

theorem keeps_requestResend {flow frame first count} (h : Keeps s t) : Keeps s (requestResend t flow frame first count) := by
  unfold requestResend
  split
  · exact keeps_serveResend h
  · split
    · exact h
    · exact keeps_ite h.set (keeps_sendNote (keeps_resendEvent h.set))

/-! ### The Inventory -/

theorem keeps_newSegment {crate} (h : Keeps s t) : Keeps s (newSegment t crate) :=
  h.set

theorem keeps_enterSet {rs} (h : Keeps s t) : Keeps s (enterSet t rs) :=
  h.set

theorem keeps_addChoices {n} (h : Keeps s t) : Keeps s (addChoices t n) :=
  h.set

theorem keeps_record {kind frame sub src content replayed pblk} (h : Keeps s t) : Keeps s (record t kind frame sub src content replayed pblk) :=
  keeps_ite (keeps_addChoices (keeps_enterSet h)) (keeps_ite (keeps_addChoices (keeps_enterSet h)) (keeps_enterSet h))

theorem keeps_boxSeal {r} (h : Keeps s t) : Keeps s (boxSeal t r) :=
  h.set

theorem keeps_sealFrame {k tick clean q} (h : Keeps s t) : Keeps s (sealFrame t k tick clean q) :=
  keeps_foldl (keeps_enterSet h.set) fun _ _ hu => keeps_boxSeal hu

/-- The copy of an area is a run of writes. -/
theorem wf_copyArea {m : List (Nat × Byte)} (a : Area) (h : Memory.wf m = true) : Memory.wf (copyArea m a) = true :=
  spWf_foldl_spSet 0 (fun e : Nat × Byte => e.1 + a.size) (fun e => e.2) _ (spWf_foldl_spSet 0 id (fun _ => 0) _ h)

theorem keeps_releaseOutputs (h : Keeps s t) : Keeps s (releaseOutputs t) :=
  h.update id (foldl_keeps (P := fun m => Memory.wf m = true) copyArea (fun _ a hm => wf_copyArea a hm) _) id

theorem keeps_clearDirty (h : Keeps s t) : Keeps s (clearDirty t) :=
  h.update id id id

theorem keeps_sealCertificate {ckind} (h : Keeps s t) : Keeps s (sealCertificate t ckind) :=
  h.set

theorem keeps_interimCertificate (h : Keeps s t) : Keeps s (interimCertificate t) :=
  h.set

theorem keeps_signCertificates (h : Keeps s t) : Keeps s (signCertificates t) :=
  keeps_useFree ((keeps_useFree h.set).set)

/-! ### The stream table -/

theorem keeps_hubWrite {off bs} (h : Keeps s t) : Keeps s (hubWrite t off bs) :=
  h.update id (Memory.wf_writeBytes _ _) id

theorem keeps_ingestWrite {off bs} (h : Keeps s t) : Keeps s (ingestWrite t off bs) := by
  unfold ingestWrite
  split
  · exact keeps_hubWrite h
  · exact h

theorem keeps_setStream {n e} (h : Keeps s t) : Keeps s (t.setStream n e) :=
  h.set

theorem keeps_markDrain {f n} (h : Keeps s t) : Keeps s (markDrain t f n) :=
  keeps_ite h.set h

theorem keeps_buildStop {f r} (h : Keeps s t) : Keeps s (buildStop f t r) :=
  keeps_ite h (keeps_setStream (keeps_ite (keeps_markDrain h) h))

theorem keeps_finishStream {n e} (h : Keeps s t) : Keeps s (finishStream t n e) :=
  (keeps_setStream h).set

theorem keeps_buildLeave {f x} (h : Keeps s t) : Keeps s (buildLeave f t x) :=
  keeps_ite (keeps_finishStream h) (keeps_ite (keeps_finishStream h) (keeps_ite (keeps_finishStream h) h))

theorem keeps_buildQueue {x} (h : Keeps s t) : Keeps s (buildQueue t x) :=
  (keeps_setStream h).set

theorem keeps_buildPlace {f n : Nat} (h : Keeps s t) : Keeps s (buildPlace f n t) := by
  induction n generalizing t with
  | zero => exact h
  | succ n ih =>
    unfold buildPlace
    split
    · dsimp only
      split
      · exact h
      · exact ih (keeps_setStream h).set
    · exact h

theorem keeps_buildRecord {acc : State × List BatchRec} {f b} (h : Keeps s acc.1) : Keeps s (buildRecord f acc b).1 := by
  unfold buildRecord
  dsimp only
  split
  · exact keeps_ingestWrite h
  · exact keeps_setStream (keeps_ite (keeps_ingestWrite (keeps_ingestWrite h)) (keeps_ingestWrite h))

theorem keeps_buildTable {f} (h : Keeps s t) : Keeps s (buildTable t f) := by
  unfold buildTable
  split
  · exact h
  · extract_lets s1 s2 due s3 s4
    have h2 : Keeps s s2 := keeps_foldl (keeps_ite h (keeps_foldl h fun _ _ hu => keeps_buildStop hu)) fun _ _ hu => keeps_buildLeave hu
    have h4 : Keeps s s4 := keeps_buildPlace (keeps_foldl h2 fun _ _ hu => keeps_buildQueue hu)
    have h5 : Keeps s ((List.range s4.streams.positions).foldl (buildRecord f) (s4, [])).1 :=
      foldl_keeps (P := fun acc : State × List BatchRec => Keeps s acc.1) _ (fun _ _ hacc => keeps_buildRecord hacc) _ h4
    exact h5.set

theorem keeps_checkToken {f r} (h : Keeps s t) : Keeps s (checkToken f t r) := by
  unfold checkToken
  split
  · exact h
  · exact keeps_ite (keeps_ite (keeps_markDrain (keeps_setStream (keeps_raiseAlarm ((keeps_ite (keeps_hubWrite h) h).set)))) (keeps_raiseAlarm
    ((keeps_ite (keeps_hubWrite h) h).set))) (keeps_ite (keeps_hubWrite h) h)

theorem keeps_checkTokens {f} (h : Keeps s t) : Keeps s (checkTokens t f) :=
  keeps_foldl h fun _ _ hu => keeps_checkToken hu

theorem keeps_applyIngest {f replayed} (h : Keeps s t) : Keeps s (applyIngest t f replayed) := by
  unfold applyIngest
  split
  · exact h
  · extract_lets ring n s1 _ s2
    have h2 : Keeps s s2 := (keeps_ingestWrite (keeps_ingestWrite h) : Keeps s s1).update id id id
    exact keeps_ite h2 (keeps_record h2)

theorem keeps_endStreams (h : Keeps s t) : Keeps s (endStreams t) :=
  keeps_foldl h fun _ _ hu => keeps_ite hu (keeps_finishStream hu)

theorem keeps_clearStreams (h : Keeps s t) : Keeps s (clearStreams t) :=
  h.set

/-! ### The run and its records -/

/-- A reply joins the queue only where it has room (R412). -/
theorem keeps_postReply {seq status reason results} (h : Keeps s t) : Keeps s (postReply t seq status reason results) := by
  unfold postReply
  split
  next => exact h.update id id id
  next hroom =>
    refine h.update (fun ⟨hlo, hhi, hpl, hph, _⟩ => ⟨hlo, hhi, hpl, hph, ?_⟩) id id
    simp only [Bool.or_eq_true, decide_eq_true_eq, not_or, not_le] at hroom
    rw [List.length_append]
    exact hroom.2

theorem keeps_finishCommand {opcode status reason results} (h : Keeps s t) : Keeps s (finishCommand t opcode status reason results) := by
  unfold finishCommand
  split
  · exact h
  · exact keeps_postReply (h.update id id id)

theorem keeps_sendStop {reason} (h : Keeps s t) : Keeps s (sendStop t reason) := by
  unfold sendStop
  split
  · exact keeps_sendNote (keeps_boxEvent h)

theorem keeps_closeRun {ckind} (h : Keeps s t) : Keeps s (closeRun t ckind) :=
  keeps_ite h ((keeps_sealCertificate (keeps_endStreams (keeps_ite (keeps_clearDirty (keeps_sealFrame h)) h))).set)

theorem keeps_failRunControl {reason abort} (h : Keeps s t) : Keeps s (failRunControl t reason abort) :=
  keeps_ite (keeps_finishCommand (keeps_finishCommand (keeps_finishCommand (keeps_finishCommand h)))) (keeps_finishCommand (keeps_finishCommand
    (keeps_finishCommand h)))

theorem keeps_enterStopped {reason} (h : Keeps s t) : Keeps s (enterStopped t reason) :=
  keeps_ite h (keeps_failRunControl (keeps_finishCommand (keeps_setDev (keeps_closeRun h))))

theorem keeps_stopNow {reason} (h : Keeps s t) : Keeps s (stopNow t reason) :=
  keeps_ite h (keeps_enterStopped (keeps_sendStop (keeps_latchFault h)))

theorem keeps_stopAtTick {reason} (h : Keeps s t) : Keeps s (stopAtTick t reason) :=
  keeps_ite h (keeps_ite (keeps_stopNow h) (keeps_ite h ((keeps_sendStop (keeps_latchFault h)).set)))

theorem keeps_failAll {reason spare} (h : Keeps s t) : Keeps s (failAll t reason spare) :=
  keeps_foldl h fun _ _ hu => keeps_finishCommand hu

theorem keeps_faultClose {reason} (h : Keeps s t) : Keeps s (faultClose t reason) :=
  keeps_failAll (keeps_setDev (keeps_closeRun (keeps_sendStop h)))

theorem keeps_enterFaulted {f source} (h : Keeps s t) : Keeps s (enterFaulted t f source) :=
  keeps_ite h (keeps_faultClose (keeps_latchFault h))

theorem keeps_deviceFault {reason source} (h : Keeps s t) : Keeps s (deviceFault t reason source) :=
  keeps_ite h (keeps_enterFaulted h.set)

theorem keeps_recordOrStop {kind frame sub src content replayed} (h : Keeps s t) : Keeps s (recordOrStop t kind frame sub src content replayed) :=
  keeps_ite (keeps_stopNow h) (keeps_record h)

/-! ### The epoch -/

theorem keeps_writeSet {n} (h : Keeps s t) : Keeps s (writeSet t n) := by
  unfold writeSet
  split
  · exact h
  · exact keeps_setVersion h

theorem keeps_finishWrite (h : Keeps s t) : Keeps s (finishWrite t) := by
  unfold finishWrite
  split
  · exact (keeps_writeSet h).set
  · exact h

theorem keeps_flip {detour} (h : Keeps s t) : Keeps s (flip t detour) :=
  keeps_boxEvent (keeps_foldl (keeps_foldl h.set fun _ _ hu => keeps_modPort hu) fun _ _ hu => keeps_ite (keeps_modPort hu) hu)

theorem keeps_startWrite {k} (h : Keeps s t) : Keeps s (startWrite t k) := by
  unfold startWrite
  split
  · exact h
  · split
    · exact h
    · split
      · exact h.set
      · exact h

theorem keeps_plannedFlip {f} (h : Keeps s t) : Keeps s (plannedFlip t f) := by
  unfold plannedFlip
  split
  · exact h
  · split
    · exact keeps_stopNow h
    · exact (keeps_flip (keeps_finishWrite h.set)).set

theorem keeps_releaseRequests (h : Keeps s t) : Keeps s (releaseRequests t) :=
  keeps_foldl h.set fun _ _ hu => keeps_requestResend hu

theorem keeps_announceLoss {l F} (h : Keeps s t) : Keeps s (announceLoss t l F) := by
  unfold announceLoss
  dsimp only
  split
  · exact keeps_ite h (keeps_stopNow h.set)
  · split
    · exact keeps_stopNow h.set
    · exact keeps_ite (keeps_stopNow h.set) h.set

theorem keeps_declareDetour {p} (h : Keeps s t) : Keeps s (declareDetour t p) := by
  unfold declareDetour
  split
  · exact h
  · split
    · exact keeps_announceLoss (keeps_sendNote h)

/-! ### Flags and completions -/

theorem keeps_raiseUse {c a} (h : Keeps s t) : Keeps s (raiseUse t c a) := by
  unfold raiseUse
  split
  · exact h
  · exact keeps_raiseCore h

theorem keeps_applySeq {c k0 e} (h : Keeps s t) : Keeps s (applySeq t c k0 e) := by
  unfold applySeq
  dsimp only
  split
  · exact keeps_raiseCore h
  · refine keeps_raiseUse ?_
    split
    · refine keeps_requestFreeze ?_
      split
      · exact (keeps_setCore h).set
      · exact (keeps_setCore h).set
    · split
      · exact (keeps_setCore h).set
      · exact (keeps_setCore h).set

theorem keeps_seqBody {c t' k form run} (h : Keeps s t) : Keeps s (seqBody c t' t k form run) := by
  unfold seqBody
  split
  · exact keeps_raiseCore h
  · split
    · exact keeps_applySeq h
    · split
      · exact keeps_raiseCore h
      · exact keeps_applySeq h

theorem keeps_seqRun {c form run} (h : Keeps s t) : Keeps s (seqRun c t form run) :=
  keeps_ite h (keeps_ite (keeps_settle h) (keeps_seqBody (keeps_settle h)))

/-! ### The queues of the engines -/

theorem keeps_enqCore {c daddr} (h : Keeps s t) : Keeps s (enqCore c daddr t) := by
  unfold enqCore
  split
  · exact h
  · dsimp only
    split
    · exact keeps_settle h
    · split
      · exact keeps_raiseCore (keeps_settle h)
      · split
        · exact keeps_setCore (keeps_settle h)
        · split
          · exact keeps_raiseCore (keeps_settle h)
          · exact keeps_applySeq (keeps_settle h)

theorem keeps_logOther {l : List (Nat × BankUse × Nat)} (h : Keeps s t) : Keeps s (logOther t l) := by
  induction l generalizing t with
  | nil => exact h
  | cons e l ih =>
    unfold logOther
    dsimp only
    split
    · exact ih (keeps_raiseCore (keeps_setCore h))
    · exact ih (keeps_setCore h)

theorem keeps_applyCmd {c e fl f} (h : Keeps s t) (hf : f.PostKeeps) : Keeps s (applyCmd t c e fl f) := by
  unfold applyCmd
  split
  · exact keeps_ite (keeps_raiseCore h) (keeps_raiseCore h)
  · exact keeps_raiseUse (hf _ _ (keeps_logOther (keeps_foldl (keeps_setCore h).set fun _ _ hu => keeps_setCore hu)))

/-- A command of an engine keeps where its effect on the rest of the package does. -/
theorem keeps_engRun {c e cop f} (h : Keeps s t) (hf : ∀ m k fl, ResKeeps (f m k fl)) : Keeps s (engRun c e cop t f) := by
  unfold engRun
  dsimp only
  split
  · exact h
  · split
    · exact h
    · split
      next => exact keeps_raiseCore (keeps_setCore h)
      next g hg => exact keeps_applyCmd (keeps_setCore h) (hf _ _ _ g hg)

/-! ### Frames -/

theorem keeps_applyMode {m gov} (h : Keeps s t) : Keeps s (applyMode t m gov) :=
  (keeps_boxEvent h).set

theorem keeps_stageMode {m gov} (h : Keeps s t) : Keeps s (stageMode t m gov) :=
  h.set

theorem keeps_applyStaged (h : Keeps s t) : Keeps s (applyStaged t) := by
  unfold applyStaged
  split
  · exact keeps_ite h (keeps_applyMode h)
  · exact h

theorem keeps_checkLate (h : Keeps s t) : Keeps s (checkLate t) := by
  unfold checkLate
  split
  · exact h
  · split
    · exact h
    · split
      · exact keeps_ite (keeps_stopNow h) h
      · exact h

theorem keeps_sendReady (h : Keeps s t) : Keeps s (sendReady t) := by
  unfold sendReady
  split
  · exact keeps_ite h (keeps_checkLate (keeps_sendNote h.set))
  · exact h

theorem keeps_sendHold {cause pause} (h : Keeps s t) : Keeps s (sendHold t cause pause) :=
  keeps_ite h (keeps_ite (keeps_ite (keeps_boxEvent ((keeps_sendNote h.set).set)) h) (keeps_sendReady (keeps_boxEvent ((keeps_sendNote h.set).set))))

theorem keeps_joinHold (h : Keeps s t) : Keeps s (joinHold t) :=
  keeps_ite (keeps_sendHold h) h

theorem keeps_applyJournal {k es replayed} (h : Keeps s t) : Keeps s (applyJournal t k es replayed) :=
  keeps_ite h (keeps_recordOrStop (keeps_foldl h fun _ _ hu => keeps_hubWrite hu))

theorem keeps_admitWithheld {n : Nat} (h : Keeps s t) : Keeps s (admitWithheld n t) := by
  induction n generalizing t with
  | zero => exact h
  | succ n ih =>
    unfold admitWithheld
    split
    · exact h
    · split
      · exact h
      · exact ih (h.update id id id)

theorem keeps_applyInputs {k} (h : Keeps s t) : Keeps s (applyInputs t k) := by
  unfold applyInputs
  split
  · extract_lets rs s1 reqs
    split
    · exact keeps_stopNow h
    · have h1 : Keeps s s1 := keeps_foldl h fun _ _ hu => keeps_applyJournal hu
      exact keeps_applyIngest (h1.update id id id)
  · split
    · exact h.set
    · extract_lets es _ s0 s1 s2
      have h1 : Keeps s s1 := keeps_applyJournal (h.update id id id)
      exact keeps_admitWithheld (keeps_ite (keeps_stopNow h1) (keeps_applyIngest h1))

theorem keeps_beginFrame {k t'} (h : Keeps s t) : Keeps s (beginFrame t k t') :=
  keeps_ite (keeps_sendHold (keeps_joinHold (keeps_applyInputs (keeps_startWrite (keeps_plannedFlip ((keeps_applyStaged h).set))))))
    (keeps_joinHold (keeps_applyInputs (keeps_startWrite (keeps_plannedFlip ((keeps_applyStaged h).set)))))

theorem keeps_compareSeal {k q} (h : Keeps s t) : Keeps s (compareSeal t k q) := by
  unfold compareSeal
  split
  · exact h
  · exact keeps_ite h (keeps_raiseAlarm h.set)

theorem keeps_sealTick {t'} (h : Keeps s t) : Keeps s (sealTick t t') :=
  keeps_ite (keeps_stopNow h) ((keeps_compareSeal (keeps_sealFrame (keeps_clearDirty (keeps_checkTokens (keeps_releaseOutputs h))))).set)

theorem keeps_countDeferral {k t'} (h : Keeps s t) : Keeps s (countDeferral t k t') :=
  keeps_ite h (keeps_boxEvent h.set)

theorem keeps_completeRun {k} (h : Keeps s t) : Keeps s (completeRun t k) :=
  keeps_finishCommand (keeps_finishCommand (keeps_finishCommand (keeps_setDev (keeps_closeRun h.set))))

theorem keeps_enterPause {k} (h : Keeps s t) : Keeps s (enterPause t k) :=
  keeps_ite (keeps_finishCommand (keeps_ite (keeps_finishCommand (keeps_setDev h.set)) (keeps_setDev h.set))) (keeps_ite (keeps_finishCommand
    (keeps_setDev h.set)) (keeps_setDev h.set))

theorem keeps_takeTick {t'} (h : Keeps s t) : Keeps s (takeTick t t') :=
  keeps_ite (keeps_sealTick (keeps_countDeferral (keeps_advanceTo h))) (keeps_ite (keeps_completeRun ((keeps_sealTick (keeps_countDeferral
    (keeps_advanceTo h))).set)) (keeps_ite (keeps_enterPause ((keeps_sealTick (keeps_countDeferral (keeps_advanceTo h))).set)) (keeps_beginFrame
      ((keeps_sealTick (keeps_countDeferral (keeps_advanceTo h))).set))))

theorem keeps_abortTick (h : Keeps s t) : Keeps s (abortTick t) := by
  unfold abortTick
  exact keeps_failRunControl (keeps_finishCommand (keeps_finishCommand (keeps_setDev (keeps_closeRun h))))

theorem keeps_firstTick (h : Keeps s t) : Keeps s (firstTick t) :=
  keeps_beginFrame ((keeps_advanceTo h).set)

theorem keeps_resumeTick {t'} (h : Keeps s t) : Keeps s (resumeTick t t') :=
  keeps_ite (keeps_finishCommand (keeps_beginFrame (keeps_setDev (keeps_countDeferral (keeps_advanceTo h))))) (keeps_beginFrame (keeps_setDev
    (keeps_countDeferral (keeps_advanceTo h))))

theorem keeps_tickBody (h : Keeps s t) : Keeps s (tickBody t) := by
  unfold tickBody
  dsimp only
  split
  · split
    · exact keeps_ite (keeps_resumeTick h) h
    · exact h
  · split
    · exact h
    · split
      · split
        · exact keeps_enterStopped (keeps_advanceTo h)
        · exact h
      · split
        · exact keeps_abortTick (keeps_advanceTo h)
        · split
          · exact keeps_firstTick h
          · split
            · exact h
            · split
              · exact keeps_ite h (keeps_stopNow (keeps_advanceTo h))
              · split
                · exact keeps_takeTick h
                · exact h

/-! ### Machine time -/

theorem keeps_setMtState {st} (h : Keeps s t) : Keeps s (setMtState t st) :=
  keeps_ite h (keeps_boxEvent h.set)

theorem keeps_setLtState {st} (h : Keeps s t) : Keeps s (setLtState t st) :=
  keeps_ite h (keeps_boxEvent h.set)

theorem keeps_stepMt {d} (h : Keeps s t) : Keeps s (stepMt t d) :=
  h.set

theorem keeps_markHoldover (h : Keeps s t) : Keeps s (markHoldover t) :=
  keeps_ite h.set h

theorem keeps_mtHoldover (h : Keeps s t) : Keeps s (mtHoldover t) :=
  keeps_ite h (keeps_markHoldover ((keeps_setMtState h).set))

theorem keeps_mtLost (h : Keeps s t) : Keeps s (mtLost t) :=
  keeps_ite (keeps_raiseAlarm (keeps_mtHoldover h)) h

theorem keeps_mtCorrect {theta} (h : Keeps s t) : Keeps s (mtCorrect t theta) :=
  (keeps_useFree h).set

theorem keeps_mtOffset {theta} (h : Keeps s t) : Keeps s (mtOffset t theta) := by
  unfold mtOffset
  dsimp only
  split
  · exact h.set
  · exact (keeps_setMtState (keeps_stepMt h.set)).set
  · exact keeps_ite (keeps_mtCorrect h.set) (keeps_raiseAlarm ((keeps_mtHoldover h.set).set))
  · exact keeps_ite (keeps_raiseAlarm h.set) (keeps_ite h.set (keeps_mtCorrect (keeps_setMtState h.set)))

theorem keeps_mtMeasure {theta} (h : Keeps s t) : Keeps s (mtMeasure t theta) :=
  keeps_mtOffset h.set

theorem keeps_steerRoot (h : Keeps s t) : Keeps s (steerRoot t) :=
  keeps_ite h (keeps_mtOffset h)

theorem keeps_acquireMt (h : Keeps s t) : Keeps s (acquireMt t) :=
  keeps_ite (keeps_setMtState h) ((keeps_setMtState (keeps_ite ((keeps_setMtState h).set) (keeps_setMtState h))).set)

theorem keeps_timeRecord {sub off rate} (h : Keeps s t) : Keeps s (timeRecord t sub off rate) :=
  keeps_recordOrStop h

theorem keeps_stepLt {off} (h : Keeps s t) : Keeps s (stepLt t off) :=
  h.set

theorem keeps_ltHoldover {alarm} (h : Keeps s t) : Keeps s (ltHoldover t alarm) :=
  keeps_ite h (keeps_timeRecord (keeps_ite (keeps_markHoldover ((keeps_setLtState h).set)) (keeps_raiseAlarm (keeps_markHoldover
    ((keeps_setLtState h).set)))))

theorem keeps_ltCorrect {off} (h : Keeps s t) : Keeps s (ltCorrect t off) :=
  keeps_timeRecord ((keeps_useFree h).set)

theorem keeps_ltOffsetMeasured {off} (h : Keeps s t) : Keeps s (ltOffsetMeasured t off) := by
  unfold ltOffsetMeasured
  dsimp only
  split
  · exact keeps_timeRecord (keeps_setLtState (keeps_stepLt h.set))
  · exact keeps_timeRecord (keeps_setLtState (keeps_stepLt h.set))
  · exact keeps_ite (keeps_ltCorrect h) (keeps_timeRecord (keeps_raiseAlarm ((keeps_ltHoldover h).set)))
  · exact keeps_ite (keeps_timeRecord (keeps_raiseAlarm h.set)) (keeps_ite h.set (keeps_ltCorrect (keeps_timeRecord (keeps_setLtState h.set))))

theorem keeps_ltMeasure {off} (h : Keeps s t) : Keeps s (ltMeasure t off) :=
  keeps_steerRoot (keeps_ltOffsetMeasured h)

theorem keeps_applyUtc {utc offset} (h : Keeps s t) : Keeps s (applyUtc t utc offset).1 := by
  unfold applyUtc
  dsimp only
  split
  · exact keeps_steerRoot (keeps_timeRecord (keeps_setLtState ((keeps_stepLt h.set).set)))
  · split
    · exact keeps_steerRoot (keeps_timeRecord h.set)
    · exact keeps_timeRecord h.set

/-! ### Ports -/

theorem keeps_setPortState {p st} (h : Keeps s t) : Keeps s (setPortState t p st) :=
  keeps_ite h (keeps_boxEvent (keeps_modPort h))

theorem keeps_takeNak {p} (h : Keeps s t) : Keeps s (takeNak t p).1 := by
  unfold takeNak
  split
  · exact h
  · dsimp only
    exact keeps_modPort h

theorem keeps_sendContainer {p slot cont h' payload} (h : Keeps s t) : Keeps s (sendContainer t p slot cont h' payload) := by
  unfold sendContainer
  split
  next x s1 nak heq =>
    have hu := Keeps.of_fst (keeps_takeNak h) heq
    exact keeps_modPort hu

theorem keeps_atSlot {p slot} (h : Keeps s t) : Keeps s (atSlot t p slot) :=
  keeps_advanceTo h

theorem keeps_removeCopy {p c} (h : Keeps s t) : Keeps s (removeCopy t p c) :=
  keeps_modPort h

theorem keeps_dataSlot {p slot} (h : Keeps s t) : Keeps s (dataSlot t p slot) := by
  unfold dataSlot
  dsimp only
  split
  · exact h
  · split
    · exact keeps_sendContainer (keeps_atSlot h)
    · split
      · exact keeps_modPort (keeps_sendContainer (keeps_atSlot h))
      · exact keeps_sendContainer (keeps_sampleHdr (keeps_removeCopy (keeps_atSlot h)))

theorem keeps_sendBundle {p slot} (h : Keeps s t) : Keeps s (sendBundle t p slot) :=
  keeps_sendContainer (keeps_modPort h)

theorem keeps_serviceSlot {p slot} (h : Keeps s t) : Keeps s (serviceSlot t p slot) := by
  unfold serviceSlot
  dsimp only
  split
  · exact h
  · split
    · exact keeps_sendContainer (keeps_ite (keeps_sampleHdr (keeps_modPort (keeps_atSlot h))) (keeps_modPort (keeps_atSlot h)))
    · split
      · exact keeps_sendBundle (keeps_atSlot h)
      · split
        · exact keeps_sendContainer (keeps_sampleHdr (keeps_modPort (keeps_removeCopy (keeps_atSlot h))))
        · exact keeps_sendBundle (keeps_atSlot h)

theorem keeps_pushLocal {p n} (h : Keeps s t) : Keeps s (pushLocal t p n) :=
  keeps_modPort h

theorem keeps_lostContainer {p round slot cause} (h : Keeps s t) : Keeps s (lostContainer t p round slot cause) :=
  keeps_pushLocal (keeps_portLoss h)

theorem keeps_sendIdentity {p reply} (h : Keeps s t) : Keeps s (sendIdentity t p reply) :=
  keeps_pushLocal (keeps_modPort (keeps_useFree h))

theorem keeps_enterDiscovery {p} (h : Keeps s t) : Keeps s (enterDiscovery t p) :=
  keeps_sendIdentity (keeps_setPortState (keeps_modPort h))

theorem keeps_trainPort {p r} (h : Keeps s t) : Keeps s (trainPort t p r) := by
  unfold trainPort
  dsimp only
  split
  · exact keeps_ite (keeps_setPortState (keeps_modPort (keeps_modPort (keeps_modPort (keeps_setPortState h))))) (keeps_enterDiscovery
    (keeps_modPort (keeps_modPort (keeps_setPortState h))))
  · exact keeps_ite (keeps_raiseAlarm (keeps_setPortState (keeps_modPort (keeps_modPort (keeps_setPortState h))))) (keeps_setPortState
    (keeps_modPort (keeps_modPort (keeps_setPortState h))))

theorem keeps_quietPort {p reason} (h : Keeps s t) : Keeps s (quietPort t p reason) :=
  keeps_raiseAlarm (keeps_setPortState h)

theorem keeps_admitPort {p} (h : Keeps s t) : Keeps s (admitPort t p) :=
  keeps_ite (keeps_quietPort (keeps_modPort h)) (keeps_setPortState (keeps_modPort (keeps_modPort h)))

theorem keeps_sendProof {p} (h : Keeps s t) : Keeps s (sendProof t p) :=
  keeps_foldl (keeps_useFree h) fun _ _ hu => keeps_pushLocal hu

theorem keeps_judgeIdentity {p b} (h : Keeps s t) : Keeps s (judgeIdentity t p b) := by
  unfold judgeIdentity
  split
  · exact keeps_quietPort h
  · exact keeps_ite (keeps_quietPort h) (keeps_ite (keeps_admitPort h) (keeps_sendProof h))

theorem keeps_rerouteStore {p input} (h : Keeps s t) : Keeps s (rerouteStore p t input) := by
  unfold rerouteStore
  refine keeps_foldl (keeps_modPort h) fun u c hu => ?_
  split
  next outs rev _ =>
    have h1 : Keeps s (if rev then { u with fabric := { u.fabric with noteReversals := u.fabric.noteReversals + 1 } } else u) := keeps_ite hu.set hu
    exact keeps_ite (keeps_dropNote (keeps_modPort h1)) (keeps_modPort h1)

theorem keeps_portGoesDown {p st} (h : Keeps s t) : Keeps s (portGoesDown t p st) :=
  keeps_ite (keeps_ite (keeps_mtLost (keeps_ite (keeps_sendHold (keeps_drainNotes (keeps_foldl (keeps_raiseAlarm ((keeps_modPort
    (keeps_setPortState h)).set)) fun _ _ hu => keeps_rerouteStore hu))) (keeps_drainNotes (keeps_foldl (keeps_raiseAlarm ((keeps_modPort
      (keeps_setPortState h)).set)) fun _ _ hu => keeps_rerouteStore hu)))) (keeps_ite (keeps_sendHold (keeps_drainNotes (keeps_foldl
        (keeps_raiseAlarm ((keeps_modPort (keeps_setPortState h)).set)) fun _ _ hu => keeps_rerouteStore hu))) (keeps_drainNotes (keeps_foldl
          (keeps_raiseAlarm ((keeps_modPort (keeps_setPortState h)).set)) fun _ _ hu => keeps_rerouteStore hu)))) (keeps_declareDetour (keeps_ite
            (keeps_mtLost (keeps_ite (keeps_sendHold (keeps_drainNotes (keeps_foldl (keeps_raiseAlarm ((keeps_modPort
              (keeps_setPortState h)).set)) fun _ _ hu => keeps_rerouteStore hu))) (keeps_drainNotes (keeps_foldl (keeps_raiseAlarm
                ((keeps_modPort (keeps_setPortState h)).set)) fun _ _ hu => keeps_rerouteStore hu)))) (keeps_ite (keeps_sendHold (keeps_drainNotes
                  (keeps_foldl (keeps_raiseAlarm ((keeps_modPort (keeps_setPortState h)).set)) fun _ _ hu => keeps_rerouteStore hu)))
                    (keeps_drainNotes (keeps_foldl (keeps_raiseAlarm ((keeps_modPort (keeps_setPortState h)).set))
                      fun _ _ hu => keeps_rerouteStore hu)))))

theorem keeps_landFault {reason l ks buf} (h : Keeps s t) : Keeps s (landFault t reason l ks buf) :=
  keeps_ite h (keeps_enterFaulted h.set)

theorem keeps_writeParcel {n e b off payload} (h : Keeps s t) : Keeps s (writeParcel t n e b off payload) :=
  (keeps_setCore h).set

theorem keeps_landParcel {l} (h : Keeps s t) : Keeps s (landParcel t l) := by
  unfold landParcel
  dsimp only
  split
  · exact keeps_landFault h
  · split
    · exact keeps_landFault h
    · split
      · exact keeps_landFault h
      · split
        · exact keeps_writeParcel h
        · exact keeps_ite (keeps_landFault h) (keeps_ite h.set (keeps_ite h.set (keeps_writeParcel h)))

/-! ### The command window -/

theorem keeps_authorise {op k} (h : Keeps s t) (ha : authorise t op k = .ok u) : Keeps s u := by
  unfold authorise at ha
  split at ha
  · simp at ha
  · split at ha
    · simp at ha
    · dsimp only at ha
      split at ha
      · simp at ha
      · split at ha
        · simp at ha
        · split at ha
          · simp at ha
          · split at ha
            · simp at ha
            · simp only [Except.ok.injEq] at ha
              rw [← ha]
              exact h.set

theorem keeps_judge {c src k} (h : Keeps s t) (hc : CmdKeeps c) : VerdictKeeps s (judge t c src k) := by
  unfold judge
  split
  · exact keeps_refuse h
  · dsimp only
    split
    next r _ => exact keeps_refuse (keeps_ite h.set h)
    next s1 hauth =>
      have h1 : Keeps s s1 := by
        split at hauth
        · exact keeps_authorise h hauth
        · split at hauth
          · simp at hauth
          · exact Except.ok.inj hauth ▸ h
      split
      · exact keeps_refuse h1
      · split
        · exact keeps_refuse h1
        · exact hc _ _ _ h1

theorem keeps_verdict {op c src k} (h : Keeps s t) (hc : ∀ x, c = some x → CmdKeeps x) : VerdictKeeps s (verdict t op c src k) := by
  unfold verdict
  split
  · exact keeps_refuse h
  · split
    · exact keeps_refuse h
    · split
      next => exact keeps_refuse h
      next x => exact keeps_judge h (hc x rfl)

theorem keeps_recordCommand {op k} (h : Keeps s t) : Keeps s (recordCommand t op k) :=
  keeps_ite (keeps_addChoices (keeps_record h)) (keeps_record h)

theorem keeps_giveVerdict {v : Verdict} {op single k} (h : VerdictKeeps s v) : Keeps s (giveVerdict op single k v) := by
  cases v with
  | final u st r res => exact keeps_postReply (keeps_ite (Keeps.update h id id id) h)
  | silent u => exact h
  | long u act =>
    obtain ⟨hu, hact⟩ := h
    exact hact _ ((keeps_postReply hu).update id id id)

theorem keeps_openLink {op} (h : Keeps s t) : Keeps s (openLink t op) :=
  keeps_ite h.set h

theorem keeps_closeLink (h : Keeps s t) : Keeps s (closeLink t) :=
  keeps_ite h h.set

theorem keeps_takeCommand {op c src k} (h : Keeps s t) (hc : ∀ x, c = some x → CmdKeeps x) : Keeps s (takeCommand op c src k t) := by
  have h0 : Keeps s { t with cmd := { t.cmd with commands := t.cmd.commands + 1 } } := h.update id id id
  unfold takeCommand
  dsimp only
  split
  · exact keeps_postReply h0
  · exact keeps_closeLink (keeps_giveVerdict (keeps_verdict (keeps_ite (keeps_recordCommand (keeps_openLink h0)) h0) hc))

/-! ### Controllers and the cellars -/

theorem keeps_listRow {k bank row ue} (h : Keeps s t) : Keeps s (listRow t k bank row ue) :=
  keeps_ite (h.update id id id) (keeps_ite (keeps_raiseAlarm h) (h.update id id id))

theorem keeps_correctSector {k a} (h : Keeps s t) : Keeps s (correctSector t k a).1 := by
  unfold correctSector
  dsimp only
  split
  · exact keeps_ite (keeps_listRow (h.update id id id)) (h.update id id id)
  · split
    · exact keeps_listRow (h.update id id id)
    · exact h

theorem keeps_ueAlarm {k a origin} (h : Keeps s t) : Keeps s (ueAlarm t k a origin) :=
  keeps_raiseAlarm h

theorem keeps_startControllers (h : Keeps s t) : Keeps s (startControllers t) :=
  h.update id id id

theorem keeps_ctlEntry {k e} (h : Keeps s t) : Keeps s (ctlEntry t k e) :=
  keeps_ite h (keeps_setCtl h)

theorem keeps_ctlRepeat {k n m colInc rowInc} (h : Keeps s t) : Keeps s (ctlRepeat t k n m colInc rowInc) :=
  keeps_ite h (keeps_setCtl h)

theorem keeps_releaseSector {k} (h : Keeps s t) : Keeps s (releaseSector t k) := by
  unfold releaseSector
  dsimp only
  split
  · exact h
  · exact keeps_ite h (keeps_correctSector (keeps_setCtl h))

theorem keeps_pinnedRefresh {k} (h : Keeps s t) : Keeps s (pinnedRefresh t k) :=
  keeps_ite h (keeps_setCtl h)

theorem keeps_scrubColumn {acc : State × Nat} {k bank row col} (h : Keeps s acc.1) : Keeps s (scrubColumn k bank row acc col).1 := by
  unfold scrubColumn
  have h1 : Keeps s (correctSector acc.1 k (sectorAt bank row col)).1 := keeps_correctSector h
  dsimp only
  split
  · exact keeps_rewriteSector h1
  · split
    · exact keeps_ueAlarm (h1.update id id id)
    · exact h1

theorem keeps_scrubWindow {k} (h : Keeps s t) : Keeps s (scrubWindow t k) := by
  unfold scrubWindow
  extract_lets x m c bank row s1
  split
  · exact h
  · have h2 : Keeps s ((List.range 32).foldl (scrubColumn k bank row) (s1, 0)).1 :=
      foldl_keeps (P := fun acc : State × Nat => Keeps s acc.1) _ (fun _ _ hacc => keeps_scrubColumn hacc) _ (keeps_setCtl h)
    split
    next s2 _ hp => exact keeps_ite ((h2.of_fst hp).update id id id) (h2.of_fst hp)

theorem keeps_retentionRefresh {k bank} (h : Keeps s t) : Keeps s (retentionRefresh t k bank) :=
  keeps_ite h ((keeps_setCtl (keeps_advanceTo h)).update id id id)

theorem keeps_computeZones (h : Keeps s t) : Keeps s (computeZones t) := by
  unfold computeZones
  split
  · exact h.update id id id
  · split
    · exact h.update id id id
    · exact keeps_raiseAlarm (h.update id id id)

theorem keeps_scrubOut {k a} (h : Keeps s t) : Keeps s (scrubOut k t a) := by
  unfold scrubOut
  extract_lets key e s1
  have h1 : Keeps s s1 := keeps_rewriteSector h
  clear_value s1 key
  split
  · refine keeps_raiseAlarm (h1.update id id fun hb => ?_)
    dsimp only
    exact Memory.wf_writeBytes _ _ hb
  · exact h1

theorem keeps_copySector {k src dst i} (h : Keeps s t) : Keeps s (copySector k src dst t i) :=
  h.update id id (Memory.wf_writeBytes _ _)

theorem keeps_retirePc {k} (h : Keeps s t) : Keeps s (retirePc t k) :=
  keeps_ite h (keeps_deviceCommit (keeps_computeZones (h.update id id id)))

theorem keeps_retirePage {k page} (h : Keeps s t) : Keeps s (retirePage t k page) :=
  keeps_ite h (keeps_ite (keeps_retirePc h) (keeps_deviceCommit ((keeps_foldl (keeps_foldl h fun _ _ hu => keeps_scrubOut hu)
    fun _ _ hu => keeps_copySector hu).update id id id)))

theorem keeps_repairRow {r} (h : Keeps s t) : Keeps s (repairRow t r) :=
  keeps_ite h (keeps_ite (keeps_foldl (h.update id id id) fun _ _ hu => keeps_scrubOut hu) (keeps_retirePage h))

theorem keeps_repairCellars (h : Keeps s t) : Keeps s (repairCellars t) :=
  keeps_foldl (keeps_foldl (h.update id id id) fun _ _ hu => keeps_repairRow hu) fun _ _ hu => keeps_retirePc hu

theorem keeps_denyWindow {off} (h : Keeps s t) : Keeps s (denyWindow t off) := by
  unfold denyWindow
  exact keeps_raiseAlarm (h.update id id id)

theorem keeps_windowSector {acc : State × Bool} {da} (h : Keeps s acc.1) : Keeps s (windowSector acc da).1 := by
  unfold windowSector
  split
  · exact h
  · dsimp only
    split
    · exact keeps_ueAlarm (keeps_correctSector h)
    · exact keeps_correctSector h

theorem keeps_windowRead {off} (h : Keeps s t) : Keeps s (windowRead t off) := by
  unfold windowRead
  dsimp only
  split
  · exact (keeps_denyWindow h).update id id id
  · exact (keeps_windowSector (keeps_windowSector (acc := (t, false)) h)).update id id id

theorem keeps_windowWrite {off data} (h : Keeps s t) : Keeps s (windowWrite t off data) :=
  keeps_ite (keeps_cellarWrite h) (keeps_denyWindow h)

theorem keeps_hostHatchWrite {off data} (h : Keeps s t) : Keeps s (hostHatchWrite t off data) := by
  unfold hostHatchWrite
  split
  · exact h
  · split
    · exact keeps_hubWrite h
    · dsimp only
      split
      · exact h.update id id id
      · exact keeps_ite (h.update id id id) (keeps_ite (h.update id id id) (keeps_ite (keeps_ite (h.update id id id) (h.update id id id))
        (keeps_hubWrite h)))

theorem keeps_hostHatchRead {off len} (h : Keeps s t) : Keeps s (hostHatchRead t off len) :=
  keeps_ite h (h.update id id id)

/-! ### The frame tick -/

theorem keeps_settleAll {t'} (h : Keeps s t) : Keeps s (settleAll t t') :=
  keeps_foldl h fun _ _ hu => keeps_settle hu

theorem keeps_endChecks {c} (h : Keeps s t) : Keeps s (endChecks t c) := by
  unfold endChecks
  dsimp only
  split
  · exact h
  · split
    · exact keeps_raiseCore h
    · split
      · exact keeps_raiseCore h
      · exact h

theorem keeps_countWear (h : Keeps s t) : Keeps s (countWear t) := by
  unfold countWear
  split
  · exact h
  · exact h.set

theorem keeps_rearm {h' r} (h : Keeps s t) : Keeps s (rearm h' t r) :=
  keeps_ite h (keeps_ite (keeps_setCore h) (keeps_setCore h))

theorem keeps_addFrozen {n} (h : Keeps s t) : Keeps s (addFrozen t n) :=
  h.set

theorem keeps_freezeFault {r periods source f} (h : Keeps s t) : Keeps s (freezeFault t r periods source f) :=
  keeps_enterFaulted (keeps_addFrozen h.set)

theorem keeps_passGap {x y z bc} (h : Keeps s t) : Keeps s (passGap t x y z bc) := by
  unfold passGap
  dsimp only
  split
  · exact keeps_setNoteSrc ((keeps_releaseHeld (keeps_raiseAlarm (keeps_advanceTo h))).set)
  · exact h

/-! ### The end of a job -/

theorem keeps_hostWrite {addr bs} (h : Keeps s t) : Keeps s (hostWrite t addr bs) :=
  h.set

theorem keeps_storeWear (h : Keeps s t) : Keeps s (storeWear t) :=
  keeps_ite h (keeps_deviceCommit h)

theorem keeps_storeCounters (h : Keeps s t) : Keeps s (storeCounters t) :=
  keeps_ite h (keeps_deviceCommit h)

theorem keeps_enterIdle (h : Keeps s t) : Keeps s (enterIdle t) := by
  unfold enterIdle
  exact keeps_repairCellars (keeps_storeCounters (keeps_storeWear (keeps_setDev (h.update id id id))))

theorem keeps_clearJob (h : Keeps s t) : Keeps s (clearJob t) :=
  h.update id id id

theorem keeps_unloadJob (h : Keeps s t) : Keeps s (unloadJob t) :=
  keeps_enterIdle ((keeps_clearJob h).set)

/-! ### The commands of the fabric owner -/

theorem keeps_applyPermits {k a} (h : Keeps s t) : Keeps s (applyPermits t k a) :=
  keeps_foldl h fun _ _ hu => keeps_modPort hu

theorem keeps_applySyncCfg {v} (h : Keeps s t) : Keeps s (applySyncCfg t v) :=
  keeps_ite (keeps_acquireMt h.set) h.set

theorem keeps_restartNotes (h : Keeps s t) : Keeps s (restartNotes t) :=
  h.set

theorem keeps_applySlice {k} (h : Keeps s t) : Keeps s (applySlice t k) :=
  keeps_restartNotes (keeps_applySyncCfg (keeps_applyPermits h.set))

theorem keeps_cSetSlice : CmdKeeps cSetSlice := by
  intro k s t h
  dsimp only [cSetSlice]
  split
  · exact keeps_refuse h
  · split
    · exact keeps_refuse h
    · split
      · exact keeps_refuse h
      · exact keeps_okWith (keeps_applySlice h)

theorem keeps_cLoadTransit : CmdKeeps cLoadTransit := by
  intro k s t h
  dsimp only [cLoadTransit]
  split
  · exact keeps_refuse h
  · split
    · split
      · exact keeps_refuse h
      · exact keeps_okWith (keeps_applyPermits h.set)
    · exact keeps_refuse h

theorem keeps_closePort {p st} (h : Keeps s t) : Keeps s (closePort t p st) :=
  keeps_ite (keeps_mtLost (keeps_modPort (keeps_setPortState h))) (keeps_modPort (keeps_setPortState h))

theorem keeps_disablePort {p} (h : Keeps s t) : Keeps s (disablePort t p) :=
  keeps_ite (keeps_portGoesDown (keeps_modPort h)) (keeps_closePort (keeps_modPort h))

theorem keeps_disableAtTick (h : Keeps s t) : Keeps s (disableAtTick t) :=
  keeps_foldl h fun _ _ hu => keeps_disablePort hu

theorem keeps_portAction {p action force} (h : Keeps s t) : VerdictKeeps s (portAction t p action force) := by
  unfold portAction
  dsimp only
  split
  · split
    · exact keeps_refuse h
    · split
      · exact keeps_okWith (keeps_modPort h)
      · exact keeps_okWith (keeps_disablePort h)
  · split
    · split
      · exact keeps_okWith (keeps_setPortState (keeps_modPort h))
      · exact keeps_okWith (keeps_modPort h)
    · split
      · exact keeps_refuse h
      · split
        · exact keeps_okWith (keeps_portGoesDown h)
        · exact keeps_okWith (keeps_closePort h)

theorem keeps_cPortControl : CmdKeeps cPortControl := by
  intro k s t h
  dsimp only [cPortControl]
  split
  · exact keeps_refuse h
  · exact keeps_portAction h

theorem keeps_cDiscover : CmdKeeps cDiscover := by
  intro k s t h
  dsimp only [cDiscover]
  split
  · exact keeps_refuse h
  · split
    · exact keeps_refuse h
    · exact keeps_okWith (keeps_foldl h.set fun _ _ hu => keeps_sendIdentity (keeps_modPort hu))

/-! ### Time messages -/

theorem keeps_receiveSync {p b arrival} (h : Keeps s t) : Keeps s (receiveSync t p b arrival) :=
  keeps_ite h (keeps_ite (keeps_setPort h) (keeps_ite (keeps_mtLost ((keeps_setPort h).set)) (keeps_ite ((keeps_setPort h).set) (keeps_mtMeasure
    (((keeps_setPort h).set).set)))))

theorem keeps_selectMaster (h : Keeps s t) : Keeps s (selectMaster t) := by
  unfold selectMaster
  split
  · exact h.set
  · exact h.set

theorem keeps_ptpReceive {p a} (h : Keeps s t) : Keeps s (ptpReceive t p a) := by
  unfold ptpReceive
  split
  · exact keeps_selectMaster h.set
  · exact keeps_ite (keeps_ltMeasure h) h
  · exact h.set
  · exact h
  · exact h.set

theorem keeps_idleTick (h : Keeps s t) : Keeps s (idleTick t) :=
  keeps_ite h h.set

/-! ### Register writes -/

theorem keeps_invalidateImages (h : Keeps s t) : Keeps s (invalidateImages t) :=
  h.set

theorem keeps_writeFrameCfg {v} (h : Keeps s t) : Keeps s (writeFrameCfg v t) :=
  h.set

theorem keeps_writeFreezeAllow {v} (h : Keeps s t) : Keeps s (writeFreezeAllow v t) :=
  h.set

theorem keeps_writeArrivalLimit {v} (h : Keeps s t) : Keeps s (writeArrivalLimit v t) :=
  h.set

theorem keeps_writeResendCfg {v} (h : Keeps s t) : Keeps s (writeResendCfg v t) :=
  h.set

theorem keeps_writeRstCfg {v} (h : Keeps s t) : Keeps s (writeRstCfg v t) :=
  h.set

theorem keeps_writeRetCfg {v} (h : Keeps s t) : Keeps s (writeRetCfg v t) :=
  h.update id id id

theorem keeps_writeCeRowLimit {v} (h : Keeps s t) : Keeps s (writeCeRowLimit v t) :=
  h.update id id id

theorem keeps_writeJumpNs {v} (h : Keeps s t) : Keeps s (writeJumpNs v t) :=
  h.set

theorem keeps_writeHoldoverMax {v} (h : Keeps s t) : Keeps s (writeHoldoverMax v t) :=
  h.set

theorem keeps_writePtpCfg {v} (h : Keeps s t) : Keeps s (writePtpCfg v t) :=
  h.set

theorem keeps_writePpsCfg {v} (h : Keeps s t) : Keeps s (writePpsCfg v t) :=
  h.set

theorem keeps_writeDither {v} (h : Keeps s t) : Keeps s (writeDither v t) :=
  h.set

theorem keeps_writePinSlew {v} (h : Keeps s t) : Keeps s (writePinSlew v t) :=
  h.set

theorem keeps_writeInvCfg {v} (h : Keeps s t) : Keeps s (writeInvCfg v t) :=
  h.set

theorem keeps_writePortCfg {p v} (h : Keeps s t) : Keeps s (writePortCfg p v t) :=
  keeps_ite (keeps_modPort h) (keeps_ite (keeps_closePort (keeps_modPort h)) (keeps_ite (keeps_modPort h) (keeps_closePort (keeps_modPort h))))

theorem keeps_writeEth {p f} (h : Keeps s t) : Keeps s (writeEth p f t) :=
  keeps_ite (keeps_modPort h) h

theorem keeps_writeOvfGib {g} (h : Keeps s t) : Keeps s (writeOvfGib g t) :=
  keeps_ite h (keeps_invalidateImages h.set)

/-- A register that takes a value only within a range stays in it. -/
theorem inRange_mem {lo hi old v : Nat} (h : lo ≤ old ∧ old ≤ hi) : lo ≤ inRange lo hi old v ∧ inRange lo hi old v ≤ hi := by
  unfold inRange
  split
  next hv => simpa using hv
  next => exact h

/-- The number of slots stays in its range (R409). -/
theorem keeps_writeCmdCfg {v} (h : Keeps s t) : Keeps s (writeCmdCfg v t) := by
  refine h.update (fun ⟨hlo, hhi, hrest⟩ => ?_) id id
  have hslots : 6 ≤ (if t.cmd.en then t.cmd.log2Slots else inRange 6 10 t.cmd.log2Slots (bits v 15 12)) ∧
      (if t.cmd.en then t.cmd.log2Slots else inRange 6 10 t.cmd.log2Slots (bits v 15 12)) ≤ 10 := by
    split
    · exact ⟨hlo, hhi⟩
    · exact inRange_mem ⟨hlo, hhi⟩
  split
  · exact ⟨hslots.1, hslots.2, hrest⟩
  · exact ⟨hslots.1, hslots.2, hrest⟩

theorem keeps_writeCmdBase {v} (h : Keeps s t) : Keeps s (writeCmdBase v t) :=
  keeps_ite h (h.update id id id)

theorem keeps_writeRplBase {v} (h : Keeps s t) : Keeps s (writeRplBase v t) :=
  keeps_ite h (h.update id id id)

/-- The intake period stays in its range (R409). -/
theorem keeps_writeIntakePeriod {v} (h : Keeps s t) : Keeps s (writeIntakePeriod v t) := by
  refine h.update (fun ⟨hlo, hhi, hpl, hph, hq⟩ => ?_) id id
  obtain ⟨hl, hh⟩ := inRange_mem (v := bits v 15 0) ⟨hpl, hph⟩
  exact ⟨hlo, hhi, hl, hh, hq⟩

theorem keeps_writeRplConsumed {v} (h : Keeps s t) : Keeps s (writeRplConsumed v t) :=
  h.update id id id

theorem keeps_writeRstCause {v} (h : Keeps s t) : Keeps s (writeRstCause v t) :=
  h.set

theorem keeps_writeBackup {i v} (h : Keeps s t) : Keeps s (writeBackup i v t) :=
  h.set

theorem keeps_writeSampleCfg {p v} (h : Keeps s t) : Keeps s (writeSampleCfg p v t) :=
  keeps_modPort h

theorem keeps_writeAlarmCfg {v} (h : Keeps s t) : Keeps s (writeAlarmCfg v t) :=
  h.set

theorem keeps_ackAlarm {n} (h : Keeps s t) : Keeps s (ackAlarm n t) :=
  keeps_alertLine h.set

theorem keeps_clearAlarms (h : Keeps s t) : Keeps s (clearAlarms t) :=
  h.set

theorem keeps_writeBrCfg {v} (h : Keeps s t) : Keeps s (writeBrCfg v t) :=
  keeps_ite (keeps_writeOvfGib h.set) h.set

theorem keeps_writeBrPage {v} (h : Keeps s t) : Keeps s (writeBrPage v t) :=
  h.set

theorem keeps_writeMtCtrl {v} (h : Keeps s t) : Keeps s (writeMtCtrl v t) :=
  keeps_ite (keeps_acquireMt h) h

theorem keeps_requestBlock {kind index} (h : Keeps s t) : Keeps s (requestBlock kind index t) :=
  keeps_ite h (keeps_ite h.set h.set)

theorem keeps_writeBlockCtrl {v} (h : Keeps s t) : Keeps s (writeBlockCtrl v t) :=
  keeps_ite h (keeps_ite (keeps_requestBlock h.set) h.set)

theorem keeps_zeroRegion {j} (h : Keeps s t) : Keeps s (zeroRegion t j) :=
  h.set

theorem keeps_resetBlock {kind index ok} (h : Keeps s t) : Keeps s (resetBlock t kind index ok) :=
  keeps_ite (keeps_closePort h) (keeps_ite (keeps_ite h (keeps_retirePc h)) (keeps_zeroRegion h))

theorem keeps_portRegister {p o v} (h : Keeps s t) : Keeps s (portRegister p o v t) := by
  unfold portRegister
  split
  · exact h
  · split
    · exact keeps_ite (keeps_writePortCfg h) h
    · exact keeps_modPort h
    · exact keeps_writeSampleCfg h
    · exact keeps_ite (keeps_writeEth h) h
    · exact keeps_ite (keeps_writeEth h) h
    · exact keeps_ite (keeps_writeEth h) h
    · exact keeps_ite (keeps_writeEth h) h
    · exact keeps_ite (keeps_writeEth h) h
    · exact keeps_ite (keeps_writeEth h) h
    · exact h

theorem keeps_blockRegister {a v} (h : Keeps s t) : Keeps s (blockRegister a v t) := by
  unfold blockRegister
  split
  · exact keeps_writeCmdCfg h
  · exact keeps_writeCmdBase h
  · exact keeps_writeRplBase h
  · exact keeps_writeIntakePeriod h
  · exact keeps_writeRplConsumed h
  · exact keeps_writeRstCause h
  · exact keeps_ite (keeps_writeRstCfg h) h
  · exact keeps_writeBlockCtrl h
  · exact keeps_ite (keeps_writeJumpNs h) h
  · exact keeps_ite (keeps_writeHoldoverMax h) h
  · exact keeps_writeMtCtrl h
  · exact keeps_ite (keeps_writePtpCfg h) h
  · exact keeps_ite (keeps_writePpsCfg h) h
  · exact keeps_ite (keeps_writeDither h) h
  · exact keeps_ite (keeps_writeFrameCfg h) h
  · exact keeps_ite (keeps_writeFreezeAllow h) h
  · exact keeps_ite (keeps_writeArrivalLimit h) h
  · exact keeps_ite (keeps_writeResendCfg h) h
  · exact keeps_ite (keeps_writeRetCfg h) h
  · exact keeps_ite (keeps_writeCeRowLimit h) h
  · exact keeps_ite (keeps_writePinSlew h) h
  · exact keeps_writeAlarmCfg h
  · exact keeps_ackAlarm h
  · exact keeps_ite (keeps_clearAlarms h) h
  · exact keeps_writeBrCfg h
  · exact keeps_writeBrPage h
  · exact keeps_ite (keeps_writeInvCfg h) h
  · exact h

theorem keeps_writeRegister {a v} (h : Keeps s t) : Keeps s (writeRegister a v t) :=
  keeps_ite (keeps_writeBackup h) (keeps_ite (keeps_portRegister h) (keeps_blockRegister h))

/-! ### Settings -/

theorem keeps_applyProfile {b} (h : Keeps s t) : Keeps s (applyProfile t b) :=
  keeps_ite h (keeps_modPort (keeps_writePortCfg h))

theorem keeps_applyEthIdent {b} (h : Keeps s t) : Keeps s (applyEthIdent t b) :=
  keeps_ite h (keeps_writeEth h)

theorem keeps_applyInvSize {gib} (h : Keeps s t) : Keeps s (applyInvSize t gib) :=
  keeps_ite h (keeps_invalidateImages h.set)

theorem keeps_applyEntry {e} (h : Keeps s t) : Keeps s (applyEntry t e) := by
  unfold applyEntry
  dsimp only
  split
  · exact keeps_foldl h fun _ _ hu => keeps_applyProfile hu
  · exact keeps_writeResendCfg (keeps_writeArrivalLimit (keeps_writeFreezeAllow (keeps_writeFrameCfg h)))
  · exact keeps_writeRstCfg h
  · exact keeps_writeCeRowLimit (keeps_writeRetCfg h)
  · exact keeps_writeDither (keeps_writePpsCfg (keeps_writePtpCfg (keeps_writeHoldoverMax (keeps_writeJumpNs h))))
  · exact keeps_writePinSlew h
  · exact keeps_foldl h fun _ _ hu => keeps_applyEthIdent hu
  · exact h.set
  · exact h.set
  · exact h.set
  · exact keeps_writeInvCfg (keeps_applyInvSize h)
  · exact h.set
  · exact h.set
  · exact h

theorem keeps_applySettings (h : Keeps s t) : Keeps s (applySettings t) :=
  keeps_computeZones (keeps_foldl (keeps_ite (keeps_applyInvSize h.set) h.set) fun _ _ hu => keeps_applyEntry hu)

theorem keeps_writeCopy {host sig head} (h : Keeps s t) : Keeps s (writeCopy t host sig head) :=
  h.set

theorem keeps_writeDevice (h : Keeps s t) : Keeps s (writeDevice t) :=
  keeps_writeCopy h

theorem keeps_endCommit (h : Keeps s t) : Keeps s (endCommit t) :=
  h.set

theorem keeps_blowSetsig (h : Keeps s t) : Keeps s (blowSetsig t) :=
  keeps_ite h.set h

theorem keeps_finishCommit (h : Keeps s t) : Keeps s (finishCommit t).1 := by
  unfold finishCommit
  split
  · exact h
  · dsimp only
    split
    · exact keeps_useFree h.set
    · exact keeps_blowSetsig (keeps_applySettings ((keeps_writeCopy (keeps_useFree h.set)).set))

theorem keeps_cGetSettings : CmdKeeps cGetSettings := by
  intro k s t h
  dsimp only [cGetSettings]
  split
  · exact keeps_refuse h
  · split
    · exact keeps_refuse h
    · exact keeps_okWith (keeps_hostWrite h)

theorem keeps_pullRecord {sub addr data} (h : Keeps s t) : Keeps s (pullRecord t sub addr data) :=
  keeps_recordOrStop h

theorem keeps_pullOther {addr data} (h : Keeps s t) : Keeps s (pullOther t addr data) :=
  keeps_useFree (keeps_pullRecord h)

theorem keeps_cStageSettings : CmdKeeps cStageSettings := by
  intro k s t h
  dsimp only [cStageSettings]
  split
  · exact keeps_refuse h
  · split
    · exact keeps_pullOther h
    · split
      · exact (keeps_pullOther h).set
      · exact keeps_okWith ((keeps_pullOther h).set)

theorem keeps_cCommitSettings : CmdKeeps cCommitSettings := by
  intro k s t h
  dsimp only [cCommitSettings]
  split
  · exact keeps_refuse h
  · split
    · split
      · split
        · exact keeps_refuse h
        · exact ⟨h, fun _ h => h.set⟩
      · split
        · exact keeps_refuse h
        · exact ⟨h, fun _ h => h.set⟩
    · split
      · split
        · exact keeps_refuse h
        · exact ⟨h, fun _ h => h.set⟩
      · split
        · exact keeps_refuse h
        · exact ⟨h, fun _ h => h.set⟩

/-! ### Crates -/

theorem keeps_countSigFail (h : Keeps s t) : Keeps s (countSigFail t) :=
  h.set

theorem keeps_pullCrate {addr f} (h : Keeps s t) : Keeps s (pullCrate t addr f) :=
  keeps_ite (keeps_pullRecord h) (keeps_ite (keeps_pullRecord (keeps_pullRecord h)) (keeps_foldl (keeps_pullRecord (keeps_pullRecord h))
    fun _ _ hu => keeps_pullRecord hu))

theorem keeps_signCrate {r} (h : Keeps s t) : Keeps s (signCrate t r) :=
  h.set

theorem keeps_finishLoadCrate {k} (h : Keeps s t) : Keeps s (finishLoadCrate k t).1 := by
  unfold finishLoadCrate
  dsimp only
  split
  · exact keeps_ite (keeps_countSigFail (keeps_signCrate ((keeps_pullCrate h).set))) (keeps_signCrate ((keeps_pullCrate h).set))
  · exact (keeps_newSegment (keeps_signCrate (keeps_pullCrate h))).set

theorem keeps_cLoadCrate : CmdKeeps cLoadCrate := by
  intro k s t h
  dsimp only [cLoadCrate]
  exact ⟨h, fun _ h => h⟩

/-! ### PLACE -/

theorem keeps_putPlacement {p} (h : Keeps s t) (hp : putPlacement t p = some u) : Keeps s u := by
  unfold putPlacement at hp
  dsimp only at hp
  split at hp
  · simp at hp
  · simp only [Option.some.injEq] at hp
    rw [← hp]
    exact keeps_record h.set

theorem keeps_placeChoice {c vs flags frame base n p m} (h : Keeps s t) (hp : placeChoice t c vs flags frame base n = .ok (u, p, m)) : Keeps s u := by
  unfold placeChoice at hp
  dsimp only at hp
  split at hp
  · split at hp <;> simp at hp
  · split at hp
    · simp at hp
    · split at hp
      next hput =>
        simp only [Except.ok.injEq, Prod.mk.injEq] at hp
        exact keeps_putPlacement h (hp.1 ▸ hput)
      next => simp at hp

theorem keeps_placeLocked {c vmask variant flags b p m} (h : Keeps s t) (hp : placeLocked t c vmask variant flags b = .ok (u, p, m)) : Keeps s u := by
  unfold placeLocked at hp
  split at hp
  · simp at hp
  · dsimp only at hp
    split at hp
    next hput =>
      simp only [Except.ok.injEq, Prod.mk.injEq] at hp
      exact keeps_putPlacement h (hp.1 ▸ hput)
    next => simp at hp

theorem keeps_finishPlace {k} (h : Keeps s t) : Keeps s (finishPlace k t).1 := by
  unfold finishPlace
  split
  · exact h
  · extract_lets _ s0 lock prec s1 r
    have h1 : Keeps s s1 := keeps_ite (keeps_pullRecord h.set) h.set
    rcases hr : r with (⟨x, l⟩ | _) | ⟨s2, p, m⟩
    · exact h1
    · exact h1
    · simp only [r] at hr
      split at hr
      · exact keeps_placeLocked h1 hr
      · exact keeps_placeChoice h1 hr

theorem keeps_cPlace : CmdKeeps cPlace := by
  intro k s t h
  dsimp only [cPlace]
  split
  · exact keeps_refuse h
  · split
    · exact keeps_refuse h
    · split
      · exact keeps_refuse h
      · exact ⟨h, fun _ h => h⟩

/-! ### Keys and attestation -/

theorem keeps_stageFirmware {f} (h : Keeps s t) : Keeps s (stageFirmware t f).1 :=
  h.set

theorem keeps_activateStaged (h : Keeps s t) : Keeps s (activateStaged t) :=
  h.set

theorem keeps_cFirmwareStage : CmdKeeps cFirmwareStage := by
  intro k s t h
  dsimp only [cFirmwareStage]
  split
  · exact keeps_refuse h
  · split
    · exact keeps_refuse h
    · exact ⟨h, fun _ h => h.set⟩

theorem keeps_finishFirmwareStage {k} (h : Keeps s t) : Keeps s (finishFirmwareStage k t).1 := by
  unfold finishFirmwareStage
  dsimp only
  split
  · exact keeps_stageFirmware (keeps_pullOther h)
  · exact keeps_stageFirmware (keeps_pullOther h)

theorem keeps_cFirmwareActivate : CmdKeeps cFirmwareActivate := by
  intro k s t h
  dsimp only [cFirmwareActivate]
  split
  · exact keeps_refuse h
  · split
    · exact keeps_refuse h
    · split
      · exact keeps_refuse h
      · exact ⟨h, fun _ h => h⟩

theorem keeps_cAttest : CmdKeeps cAttest := by
  intro k s t h
  dsimp only [cAttest]
  split
  · exact keeps_refuse h
  · exact keeps_okWith (keeps_hostWrite (keeps_useFree h))

theorem keeps_judgeUnlock {k} (h : Keeps s t) : VerdictKeeps s (judgeUnlock t k) := by
  unfold judgeUnlock
  dsimp only
  split
  · exact keeps_refuse h.set
  · split
    · exact keeps_refuse h.set
    · split
      · exact keeps_refuse h.set
      · split
        · exact keeps_refuse (keeps_useFree h.set)
        · exact (keeps_useFree h.set).set

theorem keeps_cDebugUnlock : CmdKeeps cDebugUnlock := by
  intro k s t h
  dsimp only [cDebugUnlock]
  split
  · exact keeps_okWith ((keeps_useFree h).set)
  · split
    · exact keeps_refuse h
    · exact keeps_judgeUnlock h
  · exact keeps_refuse h

/-! ### Resets -/

/-- The undefined contents of a memory are a run of writes into an empty one. -/
theorem State.wf_undefinedBytes (s : State) (size : Nat) : Memory.wf (s.undefinedBytes size) = true :=
  spWf_foldl_spSet 0 (fun e : Nat × Byte => e.1 % size) (fun e => e.2) _ rfl

/-- The memories are lost: what is read of them before does not matter. -/
theorem keeps_loseMemory (hv : t.variant = s.variant) (hst : t.stepping = s.stepping) (hse : t.serial = s.serial) (hb : t.boardPos = s.boardPos)
    (hw : s.cmd.ok → t.cmd.ok) : Keeps s (loseMemory t) :=
  ⟨hv, hst, hse, hb, hw, fun _ => State.wf_undefinedBytes _ _, fun _ => State.wf_undefinedBytes _ _⟩

theorem keeps_coreCleared (h : Keeps s t) : Keeps s (coreCleared t) := h.update id id id

/-- The command window as a reset leaves it, with any counters: its slots and its period are the reset values, and no reply waits. -/
theorem CmdWin.ok_systemCleared (c : CmdWin) : c.systemCleared.ok := by simp [CmdWin.ok, CmdWin.systemCleared]

theorem keeps_systemCleared (h : Keeps s t) : Keeps s (systemCleared t) :=
  keeps_loseMemory h.variant h.stepping h.serial h.boardPos fun _ => CmdWin.ok_systemCleared _

theorem keeps_powerCleared (h : Keeps s t) : Keeps s (powerCleared t) :=
  keeps_loseMemory h.variant h.stepping h.serial h.boardPos fun _ => CmdWin.ok_systemCleared {}

theorem keeps_beginCore (h : Keeps s t) : Keeps s (beginCore t) :=
  (keeps_coreCleared (keeps_failAll (keeps_stopNow h))).update id id id

theorem keeps_stopForHost {source} (h : Keeps s t) : Keeps s (stopForHost source t) :=
  keeps_ite (keeps_stopNow h) h

theorem keeps_beginLevel {level source} (h : Keeps s t) : Keeps s (beginLevel level source t) := by
  unfold beginLevel
  split
  · exact (keeps_powerCleared h).set
  · exact keeps_systemCleared (keeps_stopForHost h)
  · exact keeps_beginCore h

theorem keeps_assertReset {source level} (h : Keeps s t) : Keeps s (assertReset source level t) :=
  keeps_ite (keeps_beginLevel h.set) h.set

theorem keeps_releaseSource {source} (h : Keeps s t) : Keeps s (releaseSource source t) :=
  h.set

theorem keeps_resetAfterReply {source} (h : Keeps s t) : Keeps s (resetAfterReply source t) :=
  keeps_ite (keeps_assertReset (keeps_advanceTo h)) h.set

theorem keeps_replyVisible (h : Keeps s t) : Keeps s (replyVisible t) := by
  unfold replyVisible
  split
  · exact keeps_ite (keeps_assertReset (keeps_advanceTo h)) h.set
  · exact h

theorem keeps_cReset : CmdKeeps cReset := by
  intro k s t h
  dsimp only [cReset]
  split
  · split
    · exact keeps_refuse h
    · exact keeps_resetAfterReply (keeps_postReply h)
  · exact ⟨h, fun _ h => keeps_assertReset h⟩
  · exact keeps_refuse h

theorem keeps_logCrash {stub} (h : Keeps s t) : Keeps s (logCrash t stub) :=
  h.set

/-! ### The bring-up -/

theorem keeps_markTorn (h : Keeps s t) : Keeps s (markTorn t) :=
  keeps_ite (keeps_raiseAlarm (keeps_ite (keeps_raiseAlarm h.set) h.set)) (keeps_ite (keeps_raiseAlarm h.set) h.set)

theorem keeps_loadDevice {powerOn} (h : Keeps s t) : Keeps s (loadDevice t powerOn) := by
  unfold loadDevice
  extract_lets c _ _ s1
  have h1 : Keeps s s1 := h.update id id id
  exact keeps_ite h1.set h1

theorem keeps_chooseSettings {powerOn} (h : Keeps s t) : Keeps s (chooseSettings t powerOn) :=
  keeps_ite (keeps_raiseAlarm (keeps_loadDevice ((keeps_markTorn h).set))) (keeps_loadDevice ((keeps_markTorn h).set))

theorem keeps_applyCal {c} (h : Keeps s t) : Keeps s (applyCal t c) :=
  keeps_ite h.set (keeps_raiseAlarm (h.set.set))

theorem keeps_applyPhy {p} (h : Keeps s t) : Keeps s (applyPhy t p) := by
  unfold applyPhy
  exact keeps_modPort h

theorem keeps_calibrate {bad} (h : Keeps s t) : Keeps s (calibrate t bad) :=
  keeps_foldl (keeps_ite (keeps_raiseAlarm (h.set.set)) (keeps_foldl h.set fun _ _ hu => keeps_applyCal hu)) fun _ _ hu => keeps_applyPhy hu

theorem keeps_enterRetired {cores regions} (h : Keeps s t) : Keeps s (enterRetired t cores regions) :=
  keeps_ite (h.set.set) (keeps_deviceCommit (h.set.set))

theorem keeps_judgeHealth (h : Keeps s t) : Keeps s (judgeHealth t) :=
  h.set

theorem keeps_selfTest {f} (h : Keeps s t) : Keeps s (selfTest t f) :=
  keeps_judgeHealth (keeps_enterRetired (keeps_repairCellars (keeps_foldl (keeps_computeZones h) fun _ _ hu => keeps_retirePc hu)))

theorem keeps_trainPorts {lanes} (h : Keeps s t) : Keeps s (trainPorts t lanes) :=
  keeps_foldl h.set fun _ _ hu => keeps_trainPort hu

theorem keeps_recoverHeaders (h : Keeps s t) : Keeps s (recoverHeaders t) :=
  h.set

theorem keeps_raiseCounter {first} (h : Keeps s t) : Keeps s (raiseCounter t first) :=
  keeps_ite h.set h

theorem keeps_keepBackup (h : Keeps s t) : Keeps s (keepBackup t) :=
  h.set

theorem keeps_bootFails {step} (h : Keeps s t) : Keeps s (bootFails t step) :=
  h.set

theorem keeps_finishBoot {f failed first} (h : Keeps s t) : Keeps s (finishBoot t f failed first) :=
  keeps_alertLine (keeps_ite (keeps_raiseAlarm (keeps_foldl (keeps_keepBackup (keeps_enterIdle ((keeps_recoverHeaders (keeps_raiseCounter
    (keeps_ite (keeps_setLtState (keeps_acquireMt (keeps_trainPorts h))) (keeps_acquireMt (keeps_trainPorts h))))).set)))
      fun _ _ hu => keeps_raiseAlarm hu)) (keeps_foldl (keeps_keepBackup (keeps_enterIdle ((keeps_recoverHeaders (keeps_raiseCounter (keeps_ite
        (keeps_setLtState (keeps_acquireMt (keeps_trainPorts h))) (keeps_acquireMt (keeps_trainPorts h))))).set))) fun _ _ hu => keeps_raiseAlarm hu))

theorem keeps_bringUp {f powerOn} (h : Keeps s t) : Keeps s (bringUp t f powerOn) := by
  unfold bringUp
  dsimp only
  split
  · exact keeps_bootFails h.set
  · split
    · exact keeps_bootFails h.set
    · exact keeps_ite (keeps_bootFails ((keeps_calibrate (keeps_applySettings (keeps_chooseSettings h.set))).set)) (keeps_ite (keeps_bootFails
      (keeps_selfTest ((keeps_calibrate (keeps_applySettings (keeps_chooseSettings h.set))).set))) (keeps_finishBoot (keeps_advanceTo
        (keeps_selfTest ((keeps_calibrate (keeps_applySettings (keeps_chooseSettings h.set))).set)))))

theorem keeps_releaseCore (h : Keeps s t) : Keeps s (releaseCore t) := by
  unfold releaseCore
  exact keeps_finishCommand (keeps_enterIdle (h.update id id id))

theorem keeps_lowerHbm (h : Keeps s t) : Keeps s (lowerHbm t) :=
  h.set

/-! ### The board management -/

theorem keeps_answer {content} (h : Keeps s t) : Keeps s (answer t content) :=
  keeps_useFree h.set

theorem keeps_spdmError {code} (h : Keeps s t) : Keeps s (spdmError t code) :=
  keeps_answer h

/-! ### Counted overflows -/

theorem keeps_countOvf {n} (h : Keeps s t) : Keeps s (countOvf n t) :=
  h.set

/-! ### The commands of a run -/

theorem keeps_cPing : CmdKeeps cPing := by
  intro k s t h
  dsimp only [cPing]
  exact keeps_okWith h

theorem keeps_cIdentify : CmdKeeps cIdentify := by
  intro k s t h
  dsimp only [cIdentify]
  exact keeps_okWith h

theorem keeps_cNegotiate : CmdKeeps cNegotiate := by
  intro k s t h
  dsimp only [cNegotiate]
  split
  · exact keeps_refuse h
  · exact keeps_okWith h.set

theorem keeps_cSetMode : CmdKeeps cSetMode := by
  intro k s t h
  dsimp only [cSetMode]
  split
  · exact keeps_refuse h
  · split
    · split
      · exact keeps_refuse h
      · split
        · exact keeps_okWith (keeps_applyMode h)
        · exact keeps_stageMode h
    · split
      · exact keeps_refuse h
      · split
        · exact keeps_okWith (keeps_applyMode h)
        · exact keeps_stageMode h

theorem keeps_abortFrame {unload} (h : Keeps s t) : Keeps s (abortFrame unload t) :=
  (keeps_sendStop (keeps_latchFault h)).set

theorem keeps_abortHeld (h : Keeps s t) : Keeps s (abortHeld t) := by
  unfold abortHeld
  exact keeps_failRunControl (keeps_finishCommand (keeps_setDev ((keeps_ite h (keeps_closeRun h)).set)))

theorem keeps_unloadIf {b} (h : Keeps s t) : Keeps s (unloadIf b t) :=
  keeps_ite (keeps_unloadJob h) h

theorem keeps_cAbort : CmdKeeps cAbort := by
  intro k s t h
  dsimp only [cAbort]
  split
  · exact ⟨h, fun _ h => keeps_abortFrame h⟩
  · exact ⟨h, fun _ h => keeps_abortFrame h⟩
  · exact keeps_unloadIf (keeps_abortHeld h)
  · split
    · exact keeps_unloadIf h
    · split
      · exact keeps_unloadJob h
      · exact keeps_refuse h
  · split
    · exact keeps_unloadJob h
    · exact keeps_refuse h

theorem keeps_cAdmit : CmdKeeps cAdmit := by
  intro k s t h
  dsimp only [cAdmit]
  split
  · exact keeps_refuse h
  · split
    · exact keeps_refuse h
    · split
      · exact keeps_refuse h
      · split
        · exact keeps_refuse h
        · exact keeps_setStream h

theorem keeps_cRetire : CmdKeeps cRetire := by
  intro k s t h
  dsimp only [cRetire]
  split
  · exact keeps_refuse h
  · split
    · exact keeps_refuse h
    · split
      · exact keeps_refuse h
      · split
        · exact keeps_setStream h
        · exact keeps_setStream h

theorem keeps_cStreamStatus : CmdKeeps cStreamStatus := by
  intro k s t h
  dsimp only [cStreamStatus]
  split
  · exact keeps_refuse h
  · exact keeps_okWith h

/-- The commands that a replay repeats keep (R368). -/
theorem cmdKeeps_of_replayed {op : Nat} {c : Cmd} (h : replayed op = some c) : CmdKeeps c := by
  unfold replayed at h
  split at h
  · exact Option.some.inj h ▸ keeps_cAbort
  · split at h
    · exact Option.some.inj h ▸ keeps_cAdmit
    · split at h
      · exact Option.some.inj h ▸ keeps_cRetire
      · simp at h

theorem keeps_applyCommandRec {r} (h : Keeps s t) : Keeps s (applyCommandRec t r) := by
  unfold applyCommandRec
  split
  · exact h
  · split
    · exact keeps_stopNow h
    · dsimp only
      split
      next => exact h
      next c hc =>
        split
        · exact keeps_stopNow h
        · have h1 : ∀ k2, VerdictKeeps s (verdict _ (opcodeOf r.content) (some c) .replay k2) := fun k2 =>
            keeps_verdict (t := if ((packetOf r.content).earliest (opcodeOf r.content) || opcodeOf r.content == 0x33) = true then
                addChoices (record t 1 r.frame 0 r.src r.content true (packetOf r.content).pblk) 1
              else record t 1 r.frame 0 r.src r.content true (packetOf r.content).pblk)
              (keeps_ite (keeps_addChoices (keeps_record h)) (keeps_record h)) fun x hx => Option.some.inj hx ▸ cmdKeeps_of_replayed hc
          have hv := h1 (if (packetOf r.content).earliest (opcodeOf r.content) then { packetOf r.content with
              params := putAt (slice (packetOf r.content).params 0 (Nat.max (packetOf r.content).params.length 16)) 8 (leBytes 8 r.frame) }
            else packetOf r.content)
          split
          next hm => rw [hm] at hv; exact hv
          next hm => rw [hm] at hv; exact hv
          next hm => rw [hm] at hv; exact hv.2 _ hv.1

theorem keeps_replayCommands {k} (h : Keeps s t) : Keeps s (replayCommands t k) :=
  keeps_foldl h fun _ _ hu => keeps_applyCommandRec hu

theorem keeps_replayAtStart (h : Keeps s t) : Keeps s (replayAtStart t) :=
  keeps_foldl h fun _ _ hu => keeps_applyCommandRec hu

theorem keeps_clearRunCounters (h : Keeps s t) : Keeps s (clearRunCounters t) :=
  h.set

theorem keeps_freshChains (h : Keeps s t) : Keeps s (freshChains t) := by
  unfold freshChains
  dsimp only
  exact h.set

theorem keeps_startRun {tick} (h : Keeps s t) : Keeps s (startRun tick t) := by
  unfold startRun
  extract_lets f s1 _ _ _ _ _ s2 s3 s4
  have h1 : Keeps s s1 := keeps_clearRunCounters (keeps_ite (keeps_freshChains h) h)
  have h2 : Keeps s s2 := h1.update id id id
  have h4 : Keeps s s4 := keeps_setDev (keeps_replayAtStart (keeps_record h2))
  exact keeps_ite (keeps_buildTable h4) h4

theorem keeps_cStart : CmdKeeps cStart := by
  intro k s t h
  dsimp only [cStart]
  split
  · exact keeps_refuse h
  · split
    · exact keeps_refuse h
    · split
      · exact keeps_refuse h
      · exact ⟨h, fun _ h => keeps_startRun h⟩

theorem keeps_pauseAfter {f} (h : Keeps s t) : Keeps s (pauseAfter f t) :=
  keeps_ite (keeps_sendHold h) h

theorem keeps_cHold : CmdKeeps cHold := by
  intro k s t h
  dsimp only [cHold]
  split
  · split
    · exact keeps_refuse h
    · exact ⟨h, fun _ h => keeps_pauseAfter h.set⟩
  · split
    · exact keeps_refuse h
    · exact ⟨h, fun _ h => keeps_pauseAfter h.set⟩

theorem keeps_cRunToFrame : CmdKeeps cRunToFrame := by
  intro k s t h
  dsimp only [cRunToFrame]
  split
  · exact keeps_refuse h
  · exact ⟨h, fun _ h => keeps_ite (keeps_pauseAfter h.set) h.set⟩

theorem keeps_cResume : CmdKeeps cResume := by
  intro k s t h
  dsimp only [cResume]
  split
  · exact keeps_refuse h
  · split
    · exact keeps_refuse h
    · exact ⟨h, fun _ h => keeps_checkLate (keeps_sendNote h.set)⟩

theorem keeps_cTimeSetUtc : CmdKeeps cTimeSetUtc := by
  intro k s t h
  dsimp only [cTimeSetUtc]
  split
  · exact keeps_refuse h
  · split
    · exact keeps_refuse h
    · split
      · exact keeps_refuse h
      · split
        · exact h.set
        · split
          · exact keeps_okWith (keeps_applyUtc h)
          · exact keeps_refuse (keeps_applyUtc h)

theorem keeps_cTimeStatus : CmdKeeps cTimeStatus := by
  intro k s t h
  dsimp only [cTimeStatus]
  exact keeps_okWith h

theorem keeps_cReadInventory : CmdKeeps cReadInventory := by
  intro k s t h
  dsimp only [cReadInventory]
  split
  · exact keeps_refuse h
  · exact keeps_okWith (keeps_ite h.set (keeps_hostWrite h.set))

theorem keeps_giveCertificate {addr a} (h : Keeps s t) : VerdictKeeps s (giveCertificate t addr a) := by
  unfold giveCertificate
  split
  · exact keeps_okWith (keeps_hostWrite h)
  · exact keeps_refuse h

theorem keeps_cGetCertificate : CmdKeeps cGetCertificate := by
  intro k s t h
  dsimp only [cGetCertificate]
  split
  · exact keeps_refuse h
  · split
    · exact keeps_giveCertificate (keeps_ite (keeps_signCertificates h) h)
    · split
      · exact keeps_giveCertificate (keeps_signCertificates (keeps_interimCertificate h))
      · exact keeps_refuse h

/-! ### LOAD_TIMETABLE -/

theorem keeps_nameUp (h : Keeps s t) : Keeps s (nameUp t) :=
  keeps_foldl h fun _ _ hu => keeps_modPort hu

theorem keeps_loadTables {i} (h : Keeps s t) : Keeps s (loadTables t i) :=
  keeps_nameUp h.set

theorem keeps_loadImage {c v p i} (h : Keeps s t) : Keeps s (loadImage t c v p i) := by
  unfold loadImage
  extract_lets s1 _ _ _ s2
  have h1 : Keeps s s1 := keeps_clearStreams (keeps_loadTables h)
  have h2 : Keeps s s2 := h1.update id id id
  exact h2.set

theorem keeps_finishLoad (h : Keeps s t) : Keeps s (finishLoad t).1 := by
  unfold finishLoad
  split
  · exact h
  · split
    · exact h
    · exact keeps_setDev (keeps_loadImage (keeps_record h))

theorem keeps_cLoadTimetable : CmdKeeps cLoadTimetable := by
  intro k s t h
  dsimp only [cLoadTimetable]
  exact ⟨h, fun _ h => h⟩

/-! ### Checkpoints -/

theorem keeps_presetFinal {op f} (h : Keeps s t) : Keeps s (presetFinal t op f) :=
  h.update id id id

theorem keeps_beginCheckpoint {addr im} (h : Keeps s t) : Keeps s (beginCheckpoint addr im t) :=
  keeps_presetFinal (keeps_storeWear (keeps_hostWrite h.set))

theorem keeps_cCheckpoint : CmdKeeps cCheckpoint := by
  intro k s t h
  dsimp only [cCheckpoint]
  split
  · exact keeps_refuse h
  · split
    · split
      · exact keeps_refuse h
      · exact ⟨h, fun _ h => keeps_beginCheckpoint h⟩
    · exact keeps_refuse h

theorem keeps_restoreChains {f} (h : Keeps s t) : Keeps s (restoreChains t f) :=
  h.set

theorem keeps_restoreCores {b withCode} (h : Keeps s t) : Keeps s (restoreCores t b withCode) :=
  keeps_foldl h fun _ _ hu => keeps_setCore hu

theorem keeps_restoreStreams {b} (h : Keeps s t) : Keeps s (restoreStreams t b) := by
  unfold restoreStreams
  split
  · split
    · split
      · exact h.set

theorem keeps_restoreHatch {b} (h : Keeps s t) : Keeps s (restoreHatch t b) :=
  foldl_keeps (P := fun acc : State × List Byte => Keeps s acc.1) (a := (t, b)) _ (fun acc _ hacc => by
    exact Keeps.update (t := acc.1) hacc id (Memory.wf_writeBytes _ _) id) _ h

theorem keeps_restoreSet {ver n} (h : Keeps s t) : Keeps s (restoreSet t ver n) := by
  unfold restoreSet
  split
  · exact keeps_setVersion h
  · split
    · exact keeps_setVersion h
    · exact keeps_setVersion h

theorem keeps_restoreFabric {b} (h : Keeps s t) : Keeps s (restoreFabric t b) :=
  (keeps_restoreSet (keeps_restoreSet h)).set

theorem keeps_resumeTables (h : Keeps s t) (hr : resumeTables t = some u) : Keeps s u := by
  have hset : ∀ (n : Nat) (v : Bool) (f : Fabric), Keeps s { restoreSet t v (some n) with fabric := f } := fun n v f => (keeps_restoreSet h).set
  unfold resumeTables at hr
  dsimp only at hr
  split at hr
  · exact Option.some.inj hr ▸ h
  · split at hr
    · exact Option.some.inj hr ▸ hset _ _ _
    · obtain ⟨n, -, hn⟩ := Option.map_eq_some_iff.mp hr
      exact hn ▸ hset _ _ _

theorem keeps_restoreLand {b} (h : Keeps s t) : Keeps s (restoreLand t b) :=
  h.set

theorem keeps_restoreState {c f withCode} (h : Keeps s t) : Keeps s (restoreState t c f withCode) :=
  keeps_ite (keeps_cellarWrite (keeps_restoreHatch (keeps_restoreStreams (keeps_restoreLand (keeps_restoreFabric ((keeps_restoreCores h).set))))))
    (keeps_restoreHatch (keeps_restoreStreams (keeps_restoreLand (keeps_restoreFabric ((keeps_restoreCores h).set)))))

theorem keeps_finishRestore {k} (h : Keeps s t) : Keeps s (finishRestore k t).1 := by
  unfold finishRestore
  split
  · exact h
  · extract_lets n f prec lock s1 s2 r v b _ s3 placed
    have h2 : Keeps s s2 := keeps_ite (keeps_pullRecord (keeps_pullRecord h)) (keeps_pullRecord h)
    have h3 : Keeps s s3 := keeps_restoreChains h2.set
    split
    · exact h2
    · rcases hp : placed with (⟨x, l⟩ | _) | ⟨s4, p, m⟩
      · exact h2
      · exact h2
      · have h4 : Keeps s s4 := by
          simp only [placed] at hp
          split at hp
          · exact keeps_placeLocked h3 hp
          · exact keeps_placeChoice h3 hp
        dsimp only
        split
        · split
          next => exact h2
          next hr => exact keeps_setDev (keeps_record (keeps_resumeTables (keeps_restoreState (keeps_loadImage h4)) hr))
        · exact h2

theorem keeps_cRestore : CmdKeeps cRestore := by
  intro k s t h
  dsimp only [cRestore]
  split
  · exact keeps_refuse h
  · exact ⟨h, fun _ h => h⟩

theorem keeps_finishReplay {k} (h : Keeps s t) : Keeps s (finishReplay k t).1 := by
  unfold finishReplay
  dsimp only
  split
  · exact keeps_pullOther h
  · exact (keeps_pullOther h).set

theorem keeps_cReplayBegin : CmdKeeps cReplayBegin := by
  intro k s t h
  dsimp only [cReplayBegin]
  split
  · exact keeps_refuse h
  · exact ⟨h, fun _ h => h⟩

/-! ### Clocks and power -/

theorem keeps_stretchRegion {j from_} (h : Keeps s t) : Keeps s (stretchRegion t j from_) :=
  h.set

theorem keeps_detectStretch {j cycle} (h : Keeps s t) : Keeps s (detectStretch t j cycle) := by
  unfold detectStretch
  split
  · exact h
  · dsimp only
    refine keeps_stretchRegion ?_
    refine keeps_useFree ?_
    split
    · exact keeps_ite h h.set
    · exact h.set

theorem keeps_marginFail {j} (h : Keeps s t) : Keeps s (marginFail t j) :=
  keeps_ite (keeps_deviceFault h) (keeps_raiseAlarm h)

theorem keeps_retarget (h : Keeps s t) : Keeps s (retarget t) :=
  h.set

theorem keeps_measurePower {power} (h : Keeps s t) : Keeps s (measurePower t power) :=
  keeps_useFree h.set

theorem keeps_readSensor {r} (h : Keeps s t) : Keeps s (readSensor t r) :=
  h.set

theorem keeps_markHottest (h : Keeps s t) : Keeps s (markHottest t) :=
  h.set

theorem keeps_setTstate (h : Keeps s t) : Keeps s (setTstate t) :=
  keeps_ite h.set (keeps_pldmEvent h.set)

theorem keeps_thermalAction (h : Keeps s t) : Keeps s (thermalAction t) :=
  keeps_ite (keeps_raiseAlarm (keeps_retarget h.set)) (keeps_ite (keeps_stopNow (keeps_retarget h.set)) (keeps_retarget h.set))

theorem keeps_trip {sn t'} (h : Keeps s t) : Keeps s (trip t sn t') :=
  (keeps_logCrash h).set

/-! ### Posted parcels -/

theorem keeps_postParcels {flow first count ps} (h : Keeps s t) : Keeps s (postParcels flow first count ps t) := by
  unfold postParcels
  split
  · exact h
  · exact keeps_foldl h fun _ _ hu => keeps_postCopies (keeps_frameCheck hu)

/-! ### Stream programs -/

theorem keeps_requestBeat {b} (h : Keeps s t) : Keeps s (requestBeat t b) := by
  unfold requestBeat
  split
  · exact h
  · refine keeps_foldl h fun u j hu => ?_
    dsimp only
    split
    · exact keeps_setCtl hu
    · exact hu

/-! ### VERIFY -/

theorem keeps_keepImages {l} (h : Keeps s t) : Keeps s (keepImages t l) :=
  h.set

theorem keeps_finishVerify {k} (h : Keeps s t) : Keeps s (finishVerify k t).1 := by
  unfold finishVerify
  split
  · exact h
  · split
    · exact keeps_keepImages h
    · exact keeps_keepImages ((keeps_ite (keeps_countSigFail (keeps_pullRecord h)) (keeps_pullRecord h)).set)

theorem keeps_cVerify : CmdKeeps cVerify := by
  intro k s t h
  dsimp only [cVerify]
  split
  · exact keeps_refuse h
  · split
    · exact keeps_refuse h
    · exact ⟨h, fun _ h => h⟩

/-! ### The intake and the frame tick -/

/-- Every command of R419 keeps. -/
theorem cmdKeeps_of_cmdOf {op : Nat} {c : Cmd} (h : cmdOf op = some c) : CmdKeeps c := by
  have hall : ∀ c ∈ cmdTable, CmdKeeps c := by
    simp only [cmdTable, List.forall_mem_cons, List.not_mem_nil, false_imp_iff, implies_true, and_true]
    exact ⟨keeps_cPing, keeps_cIdentify, keeps_cNegotiate, keeps_cSetMode, keeps_cGetSettings, keeps_cStageSettings, keeps_cCommitSettings,
      keeps_cLoadCrate, keeps_cVerify, keeps_cPlace, keeps_cLoadTimetable, keeps_cStart, keeps_cHold, keeps_cResume, keeps_cAbort, keeps_cRunToFrame,
      keeps_cCheckpoint, keeps_cRestore, keeps_cAdmit, keeps_cRetire, keeps_cStreamStatus, keeps_cReadInventory, keeps_cReplayBegin,
      keeps_cGetCertificate, keeps_cAttest, keeps_cDebugUnlock, keeps_cSetSlice, keeps_cLoadTransit, keeps_cPortControl, keeps_cDiscover,
      keeps_cReset, keeps_cTimeSetUtc, keeps_cTimeStatus, keeps_cFirmwareStage, keeps_cFirmwareActivate⟩
  exact hall c (List.mem_of_find?_eq_some h)

theorem keeps_takeMessage {b} (h : Keeps s t) : Keeps s (takeMessage t b) :=
  keeps_ite (keeps_takeCommand h fun _ => cmdKeeps_of_cmdOf) (keeps_postReply (h.update id id id))

theorem keeps_takeMessages {n : Nat} (h : Keeps s t) : Keeps s (takeMessages n t).2 := by
  induction n generalizing t with
  | zero => exact h
  | succ n ih =>
    unfold takeMessages
    split
    · exact h
    · split
      · exact h
      · exact ih (keeps_takeMessage (h.update id id id))

theorem keeps_takeRing {n : Nat} {ring : List RingSlot} (h : Keeps s t) : Keeps s (takeRing n ring t) := by
  induction n generalizing ring t with
  | zero => exact h
  | succ n ih =>
    cases ring with
    | nil => exact h
    | cons q rest =>
      unfold takeRing
      exact keeps_ite (ih (keeps_takeCommand (h.update id id id) fun _ => cmdKeeps_of_cmdOf)) h

theorem keeps_intake {ring} (h : Keeps s t) : Keeps s (intake ring t) := by
  unfold intake
  refine keeps_ite h (keeps_ite (h.update id id id) ?_)
  have h1 : Keeps s { t with cmd := { t.cmd with rplFull := false, intakes := t.cmd.intakes + 1 } } := h.update id id id
  split
  next hp => exact keeps_takeRing (Keeps.of_snd (keeps_takeMessages h1) hp)

theorem keeps_writeReply {r} (h : Keeps s t) : Keeps s (writeReply t r) :=
  (keeps_hostWrite (keeps_hostWrite h)).update id id id

theorem keeps_longFinal {o m} (h : Keeps s t) (hm : longFinal o t = some m) : Keeps s m.1 := by
  unfold longFinal at hm
  split at hm
  · split at hm
    · exact Option.some.inj hm ▸ keeps_finishCommit h
    · simp at hm
  · exact Option.some.inj hm ▸ keeps_finishLoadCrate h
  · exact Option.some.inj hm ▸ keeps_finishVerify h
  · exact Option.some.inj hm ▸ keeps_finishPlace h
  · exact Option.some.inj hm ▸ keeps_finishLoad h
  · exact Option.some.inj hm ▸ h.set
  · exact Option.some.inj hm ▸ keeps_finishRestore h
  · exact Option.some.inj hm ▸ keeps_finishReplay h
  · split at hm
    · exact Option.some.inj hm ▸ keeps_finishFirmwareStage h
    · simp at hm
  · exact Option.some.inj hm ▸ keeps_activateStaged h
  · simp at hm

theorem keeps_longDone (h : Keeps s t) : Keeps s (longDone t) := by
  unfold longDone
  split
  · exact h
  · split
    next => exact h
    next hm => exact keeps_ite (keeps_resetAfterReply (keeps_finishCommand (keeps_longFinal h hm))) (keeps_finishCommand (keeps_longFinal h hm))

theorem keeps_tickIntake {ring} (h : Keeps s t) : Keeps s (tickIntake ring t) :=
  keeps_ite (keeps_buildTable (keeps_intake (keeps_ite (keeps_replayCommands h) h))) (keeps_intake (keeps_ite (keeps_replayCommands h) h))

theorem keeps_frameTick {ring} (h : Keeps s t) : Keeps s (frameTick ring t) :=
  keeps_ite (keeps_tickIntake (keeps_disableAtTick (keeps_tickBody h))) (keeps_ite (keeps_unloadJob (keeps_tickBody h)) (keeps_tickBody h))

/-! ### Links -/

theorem keeps_portRound {p} (h : Keeps s t) : Keeps s (portRound t p) :=
  keeps_ite (keeps_setPort h) (keeps_setPort h)

theorem keeps_receiveHeartbeat {p b} (h : Keeps s t) : Keeps s (receiveHeartbeat t p b) :=
  keeps_ite h (keeps_ite (keeps_ite (keeps_stopNow (keeps_setPort h)) (keeps_stopAtTick (keeps_setPort h))) (keeps_setPort h))

theorem keeps_receiveIdentity {p b} (h : Keeps s t) : Keeps s (receiveIdentity t p b) :=
  keeps_ite h (keeps_judgeIdentity (keeps_ite (keeps_sendIdentity (keeps_setPort h)) (keeps_setPort h)))

theorem keeps_receiveKey {p i b} (h : Keeps s t) : Keeps s (receiveKey t p i b) :=
  keeps_ite (keeps_modPort h) h

theorem keeps_receiveSig {p i b} (h : Keeps s t) : Keeps s (receiveSig t p i b) :=
  keeps_ite (keeps_modPort h) h

theorem keeps_receiveLoss {p round slot} (h : Keeps s t) : Keeps s (receiveLoss t p round slot) := by
  unfold receiveLoss
  split
  · exact keeps_ite (keeps_requestResend h) h
  · exact h

theorem keeps_receiveBundleNote {t' p b} (h : Keeps s t) : Keeps s (receiveBundleNote t' p t b) := by
  unfold receiveBundleNote
  dsimp only
  split
  · exact h
  · split
    · split
      · exact keeps_receiveHeartbeat h
      · exact keeps_receiveIdentity h
      · exact keeps_receiveKey h
      · exact keeps_receiveSig h
      · exact keeps_receiveLoss h
      · exact keeps_receiveSync h
      · exact h
    · exact keeps_ite (keeps_receiveNote h) h

theorem keeps_receiveBundle {p h' payload} (h : Keeps s t) : Keeps s (receiveBundle t p h' payload) :=
  keeps_drainNotes (keeps_foldl (keeps_modPort h) fun _ _ hu => keeps_receiveBundleNote hu)

theorem keeps_discardParcel {p h'} (h : Keeps s t) : Keeps s (discardParcel t p h') :=
  keeps_requestResend (keeps_portLoss h)

theorem keeps_forwardCopies {p e h' payload straggler} (h : Keeps s t) : Keeps s (forwardCopies t p e h' payload straggler) :=
  keeps_foldl h fun _ _ hu => (keeps_ite (keeps_discardParcel (keeps_modPort hu)) (keeps_enqueueCopy hu))

theorem keeps_receiveParcel {p h' payload straggler} (h : Keeps s t) : Keeps s (receiveParcel t p h' payload straggler) := by
  unfold receiveParcel
  split
  · exact keeps_raiseAlarm (keeps_modPort h)
  · split
    · exact keeps_discardParcel (keeps_modPort h)
    · split
      · exact keeps_discardParcel (keeps_modPort h)
      · exact keeps_ite (keeps_discardParcel (keeps_modPort h)) (keeps_ite (keeps_enqueueLanding (keeps_forwardCopies h)) (keeps_forwardCopies h))

theorem keeps_receiveNak {p rnd slot} (h : Keeps s t) : Keeps s (receiveNak t p rnd slot) := by
  unfold receiveNak
  dsimp only
  split
  · exact keeps_lostContainer h
  · exact keeps_ite h (keeps_setPort h)

theorem keeps_failedContainer {p round slot cont} (h : Keeps s t) : Keeps s (failedContainer t p round slot cont) :=
  keeps_ite h (keeps_ite (keeps_lostContainer h) (keeps_ite (keeps_lostContainer h) (keeps_setPort h)))

theorem keeps_goodContainer {p round slot cont h' payload} (h : Keeps s t) : Keeps s (goodContainer t p round slot cont h' payload) :=
  keeps_ite h (keeps_ite (keeps_ite h (keeps_dropHdr h)) (keeps_ite (keeps_receiveBundle h) (keeps_ite h (keeps_receiveParcel (keeps_sampleHdr h)))))

theorem keeps_dropTransit {old p} (h : Keeps s t) : Keeps s (dropTransit old t p) :=
  keeps_foldl (keeps_modPort h) fun _ _ hu => keeps_dropHdr hu

theorem keeps_ethDrop {p cause} (h : Keeps s t) : Keeps s (ethDrop t p cause) :=
  keeps_modPort h

theorem keeps_ethRequest {p b} (h : Keeps s t) : Keeps s (ethRequest t p b) :=
  keeps_ite (keeps_ethDrop h) (keeps_ite ((keeps_ethDrop h).update id id id) ((keeps_modPort h).update id id id))

/-! ### The ring and the box room -/

theorem keeps_ringAppend {r} (h : Keeps s t) : Keeps s (ringAppend t r) :=
  (keeps_cellarWrite h).set

theorem keeps_ringRecord {r rest} (h : Keeps s t) : Keeps s (ringRecord t r rest) :=
  keeps_ite h (keeps_ringAppend (keeps_ite (keeps_ringAppend h.set) h.set))

theorem keeps_copyBlock {p b} (h : Keeps s t) : Keeps s (copyBlock t p b) :=
  (keeps_cellarWrite h).set

theorem keeps_boxCopy (h : Keeps s t) : Keeps s (boxCopy t) := by
  unfold boxCopy
  split
  · exact h.set
  · split
    · exact keeps_copyBlock h
    · exact h.set

/-! ### What a command of the block answers -/

theorem outKeeps_hostCommand {c k} (h : Keeps s t) (hc : CmdKeeps c) : OutKeeps s (hostCommand c k t) := by
  unfold hostCommand
  split
  · exact outKeeps_next h
  · exact outKeeps_next (keeps_takeCommand h fun _ hx => Option.some.inj hx ▸ hc)

theorem outKeeps_hostRegister {f : State → State} (h : Keeps s t) (hf : Keeps s (f t)) : OutKeeps s (hostRegister f t) :=
  outKeeps_next (keeps_ite h hf)

theorem outKeeps_onDoe {f : State → State} (h : Keeps s t) (hf : Keeps s (f t)) : OutKeeps s (onDoe t f) := outKeeps_next (keeps_ite hf h)

theorem outKeeps_inSession {n : Nat} {f : State → State} (h : Keeps s t) (hf : Keeps s (f t)) : OutKeeps s (inSession n t f) :=
  outKeeps_onDoe h (keeps_ite hf (keeps_spdmError h))

theorem outKeeps_onEngine {c e cop f} (h : Keeps s t) (hf : ∀ m k fl, ResKeeps (f m k fl)) : OutKeeps s (onEngine c e cop t f) :=
  outKeeps_onCore (keeps_engRun h hf)

/-- A copy within a core has no effect outside it. -/
theorem postKeeps_copyWithin {c k fl n w src dst rd wr ready} : (copyWithin c k fl n w src dst rd wr ready).PostKeeps := fun _ _ h => h

/-- The beats of a transfer ask the controllers for their sectors. -/
theorem postKeeps_requestBeats {β : Type} (l : List β) (b : β → Nat × Nat) {core pends others uses otherUses paths} :
    CmdEff.PostKeeps { core, pends, others, uses, otherUses, paths, post := fun m => l.foldl (fun m i => requestBeat m (b i)) m } :=
  fun _ _ h => keeps_foldl h fun _ _ hu => keeps_requestBeat hu

theorem resKeeps_vecOp {f third k fl} : ResKeeps (vecOp f third k fl) := by
  cases third <;>
    simp only [vecOp, resKeeps_bind, resKeeps_pure, resKeeps_ite, CmdEff.postKeeps_id, implies_true, and_self]

theorem resKeeps_streamEffect {c k p} : ResKeeps (streamEffect t c k p) := by
  unfold streamEffect
  simp only [resKeeps_bind, resKeeps_ite, throw_eq_ok, false_imp_iff, implies_true, true_and]
  intro _ _
  split
  · exact resKeeps_throw _
  · exact (resKeeps_pure _).mpr (postKeeps_requestBeats _ _)

theorem outKeeps_execEnqueueAfterStall {c} (h : Keeps s t) : OutKeeps s (execEnqueueAfterStall c t) := by
  unfold execEnqueueAfterStall
  refine outKeeps_onCore ?_
  dsimp only
  split
  · exact h
  · exact keeps_ite h (keeps_ite h (keeps_enqCore (keeps_setCore h)))

theorem outKeeps_execEngineDispatch {c e} (h : Keeps s t) : OutKeeps s (execEngineDispatch c e t) := by
  unfold execEngineDispatch
  refine outKeeps_onCore ?_
  dsimp only
  split
  · exact h
  · split
    · exact h
    · split
      · exact keeps_settle h
      · split
        · exact keeps_requestFreeze (keeps_settle h)
        · split
          · exact keeps_raiseCore (keeps_setCore (keeps_settle h))
          · exact (keeps_setCore (keeps_settle h)).set

theorem outKeeps_execCommandComplete {c e} (h : Keeps s t) : OutKeeps s (execCommandComplete c e t) := by
  unfold execCommandComplete
  refine outKeeps_onCore ?_
  dsimp only
  split
  · exact keeps_setCore h
  · exact keeps_ite h (keeps_setCore (keeps_settle h))

theorem outKeeps_execScheduleEnd (h : Keeps s t) : OutKeeps s (execScheduleEnd t) := by
  unfold execScheduleEnd
  dsimp only
  split
  · exact outKeeps_next h
  · split
    · exact outKeeps_next (keeps_foldl (keeps_settleAll (keeps_advanceTo h)) fun _ _ hu => keeps_endChecks hu)
    · exact outKeeps_next (keeps_sendReady ((keeps_countWear (keeps_foldl (keeps_foldl (keeps_settleAll (keeps_advanceTo h))
        fun _ _ hu => keeps_endChecks hu) fun _ _ hu => keeps_setCore hu)).set))

theorem outKeeps_execFreezeHalt (h : Keeps s t) : OutKeeps s (execFreezeHalt t) := by
  unfold execFreezeHalt
  split
  · exact outKeeps_next h
  · dsimp only
    split
    · exact outKeeps_next h
    · split
      · exact outKeeps_next (keeps_settleAll h)
      · exact outKeeps_next ((keeps_advanceTo (keeps_settleAll h)).set)

theorem outKeeps_execFreezeResume {periods} (h : Keeps s t) : OutKeeps s (execFreezeResume periods t) := by
  unfold execFreezeResume
  split
  · exact outKeeps_next h
  · split
    · exact outKeeps_next h
    · dsimp only
      split
      · exact outKeeps_next ((keeps_settleAll h).set)
      · exact outKeeps_next (keeps_advanceTo ((keeps_foldl (keeps_boxEvent (keeps_addFrozen (keeps_settleAll h))) fun _ _ hu => keeps_rearm hu).set))

theorem outKeeps_execFreezeOver (h : Keeps s t) : OutKeeps s (execFreezeOver t) := by
  unfold execFreezeOver
  dsimp only
  split
  · exact outKeeps_next h
  · exact outKeeps_next (keeps_ite (keeps_sendHold ((keeps_ite (keeps_advanceTo h) h).set)) ((keeps_ite (keeps_advanceTo h) h).set))

theorem outKeeps_execCircularWait (h : Keeps s t) : OutKeeps s (execCircularWait t) := by
  unfold execCircularWait
  split
  · split
    · exact outKeeps_next h
    · dsimp only
      exact outKeeps_next (keeps_freezeFault (keeps_advanceTo h))
  · exact outKeeps_next h

theorem outKeeps_execArrivalTimeout (h : Keeps s t) : OutKeeps s (execArrivalTimeout t) := by
  unfold execArrivalTimeout
  split
  · split
    · exact outKeeps_next h
    · dsimp only
      exact outKeeps_next (keeps_freezeFault (keeps_advanceTo h))
  · exact outKeeps_next h

theorem outKeeps_execFaultHalt (h : Keeps s t) : OutKeeps s (execFaultHalt t) := by
  unfold execFaultHalt
  split
  · exact outKeeps_next h
  · split
    · exact outKeeps_next h
    · refine outKeeps_next (keeps_faultClose (keeps_foldl (Keeps.set ?_) fun _ _ hu => keeps_latchFault hu))
      exact keeps_advanceTo (keeps_settleAll h)

theorem outKeeps_execFrameStart (h : Keeps s t) : OutKeeps s (execFrameStart t) := by
  unfold execFrameStart
  split
  · exact outKeeps_next h
  · dsimp only
    exact outKeeps_next (keeps_startControllers ((keeps_foldl (keeps_advanceTo h) fun _ _ hu => keeps_useFree (keeps_setCore hu)).set))

theorem outKeeps_execHoldHorizon (h : Keeps s t) : OutKeeps s (execHoldHorizon t) := by
  unfold execHoldHorizon
  split
  · exact outKeeps_next h
  · dsimp only
    exact outKeeps_next (keeps_ite (keeps_sendHold ((keeps_ite (keeps_sendHold ((keeps_advanceTo h).set)) (keeps_ite (keeps_sendHold
      ((keeps_advanceTo h).set)) ((keeps_advanceTo h).set))).set)) (keeps_ite (keeps_sendHold ((keeps_advanceTo h).set)) (keeps_ite
      (keeps_sendHold ((keeps_advanceTo h).set)) ((keeps_advanceTo h).set))))

theorem outKeeps_execHoldTimeout {x y z} (h : Keeps s t) : OutKeeps s (execHoldTimeout x y z t) := by
  unfold execHoldTimeout
  split
  · exact outKeeps_next h
  · exact outKeeps_next (keeps_ite (keeps_deviceFault (keeps_advanceTo h)) h)

theorem outKeeps_execHoldNote {x y z frame cause pause} (h : Keeps s t) : OutKeeps s (execHoldNote x y z frame cause pause t) := by
  unfold execHoldNote
  dsimp only
  split
  · exact outKeeps_next (keeps_takeNote h)
  · exact outKeeps_next (keeps_joinHold ((keeps_takeNote h).set))

theorem outKeeps_execReady {x y z frame tick} (h : Keeps s t) : OutKeeps s (execReady x y z frame tick t) := by
  unfold execReady
  dsimp only
  split
  · exact outKeeps_next (keeps_takeNote h)
  · exact outKeeps_next (keeps_ite (keeps_checkLate ((keeps_takeNote h).set)) ((keeps_takeNote h).set))

theorem outKeeps_execStop {x y z frame reason} (h : Keeps s t) : OutKeeps s (execStop x y z frame reason t) := by
  unfold execStop
  dsimp only
  split
  · exact outKeeps_next (keeps_boxEvent (keeps_takeNote h))
  · exact outKeeps_next (keeps_ite (keeps_enterStopped (keeps_latchFault (keeps_boxEvent (keeps_takeNote h)))) ((keeps_latchFault
      (keeps_boxEvent (keeps_takeNote h))).set))

theorem outKeeps_execDetour {x y z flipRound lostPort frame} (h : Keeps s t) : OutKeeps s (execDetour x y z flipRound lostPort frame t) := by
  unfold execDetour
  dsimp only
  exact outKeeps_next (keeps_ite (keeps_announceLoss (keeps_takeNote h)) (keeps_takeNote h))

theorem outKeeps_execDetourFlip (h : Keeps s t) : OutKeeps s (execDetourFlip t) := by
  unfold execDetourFlip
  split
  · exact outKeeps_next h
  · split
    · exact outKeeps_next h
    · dsimp only
      exact outKeeps_next (keeps_releaseRequests ((keeps_flip (keeps_finishWrite (keeps_advanceTo h))).set))

theorem outKeeps_execResendWaitExpiry {c flag} (h : Keeps s t) : OutKeeps s (execResendWaitExpiry c flag t) := by
  unfold execResendWaitExpiry
  refine outKeeps_onCore ?_
  split
  · exact h
  · split
    · exact h
    · exact keeps_foldl (keeps_advanceTo h) fun _ _ hu => keeps_requestResend hu

theorem outKeeps_execFoMsg {x y z msg} (h : Keeps s t) : OutKeeps s (execFoMsg x y z msg t) := by
  unfold execFoMsg
  split
  · exact outKeeps_next h
  · dsimp only
    exact outKeeps_next ((keeps_recordOrStop (keeps_updateXoff h.set)).update id id id)

theorem outKeeps_execTimeErrExceeded (h : Keeps s t) : OutKeeps s (execTimeErrExceeded t) := by
  unfold execTimeErrExceeded
  dsimp only
  refine outKeeps_next ?_
  split
  · exact keeps_ite (keeps_raiseAlarm h.set) h
  · exact h

theorem outKeeps_execPtpAnnounceTimeout (h : Keeps s t) : OutKeeps s (execPtpAnnounceTimeout t) := by
  unfold execPtpAnnounceTimeout
  split
  · exact outKeeps_next h
  · dsimp only
    exact outKeeps_next (keeps_ite (keeps_ltHoldover (keeps_selectMaster h.set)) (keeps_selectMaster h.set))

theorem outKeeps_execPpsInEdge (h : Keeps s t) : OutKeeps s (execPpsInEdge t) := by
  unfold execPpsInEdge
  dsimp only
  refine outKeeps_next ?_
  split
  · exact keeps_postReply (keeps_applyUtc ((keeps_ite h.set h).set))
  · exact keeps_ite (keeps_ltMeasure (keeps_ite h.set h)) (keeps_ite h.set h)

theorem outKeeps_execPpsMissing (h : Keeps s t) : OutKeeps s (execPpsMissing t) := by
  unfold execPpsMissing
  refine outKeeps_next ?_
  split
  · exact keeps_postReply ((keeps_advanceTo h).set)
  · exact h

theorem outKeeps_execPpsOutEdge (h : Keeps s t) : OutKeeps s (execPpsOutEdge t) := by
  unfold execPpsOutEdge
  split
  · exact outKeeps_next h.set
  · split
    · dsimp only
      exact outKeeps_next ((keeps_advanceTo h).set)
    · dsimp only
      exact outKeeps_next ((keeps_advanceTo h).set)

theorem outKeeps_execRefclkLoss {r} (h : Keeps s t) : OutKeeps s (execRefclkLoss r t) := by
  unfold execRefclkLoss
  split
  · split
    · exact outKeeps_next h
    · exact outKeeps_next (keeps_raiseAlarm (keeps_ltHoldover (keeps_mtHoldover h.set)))
  · split
    · exact outKeeps_next h
    · dsimp only
      exact outKeeps_next (keeps_foldl (keeps_raiseAlarm h.set) fun _ _ hu => keeps_ite (keeps_portGoesDown hu) hu)

theorem outKeeps_execRefclkRestore {r} (h : Keeps s t) : OutKeeps s (execRefclkRestore r t) := by
  unfold execRefclkRestore
  split
  · exact outKeeps_next h.set
  · exact outKeeps_next h.set

theorem outKeeps_execSampleCfgWrite {p value} (h : Keeps s t) : OutKeeps s (execSampleCfgWrite p value t) := by
  unfold execSampleCfgWrite
  split
  · exact outKeeps_hostRegister h (keeps_writeSampleCfg h)
  · exact outKeeps_fault _

theorem outKeeps_execBlockQuiesceTimeout (h : Keeps s t) : OutKeeps s (execBlockQuiesceTimeout t) := by
  unfold execBlockQuiesceTimeout
  split
  · exact outKeeps_next h
  · exact outKeeps_next (keeps_raiseAlarm h.set)

theorem outKeeps_execBlockResetDone {us ok} (h : Keeps s t) : OutKeeps s (execBlockResetDone us ok t) := by
  unfold execBlockResetDone
  split
  · exact outKeeps_next h
  · dsimp only
    exact outKeeps_next (keeps_resetBlock h.set)

theorem outKeeps_execChallengeLapse (h : Keeps s t) : OutKeeps s (execChallengeLapse t) := by
  unfold execChallengeLapse
  split
  · exact outKeeps_next h
  · dsimp only
    exact outKeeps_next ((keeps_advanceTo h).set)

theorem outKeeps_execWdog {pc sp} (h : Keeps s t) : OutKeeps s (execWdog pc sp t) := by
  unfold execWdog
  split
  · exact outKeeps_next h
  · exact outKeeps_next (keeps_assertReset (keeps_logCrash h))

theorem outKeeps_execCxlHot (h : Keeps s t) : OutKeeps s (execCxlHot t) := by
  unfold execCxlHot
  split
  · exact outKeeps_next h
  · exact outKeeps_next (keeps_assertReset h)

theorem outKeeps_execCxlLdn (h : Keeps s t) : OutKeeps s (execCxlLdn t) := by
  unfold execCxlLdn
  split
  · exact outKeeps_next h
  · exact outKeeps_next (keeps_assertReset h)

theorem outKeeps_execResetRelease {f} (h : Keeps s t) : OutKeeps s (execResetRelease f t) := by
  unfold execResetRelease
  dsimp only
  split
  · exact outKeeps_next h
  · split
    · exact outKeeps_next h
    · exact outKeeps_next (keeps_bringUp h.set)
    · exact outKeeps_next (keeps_bringUp h.set)
    · exact outKeeps_next (keeps_releaseCore h.set)

theorem outKeeps_execRailFail {rail} (h : Keeps s t) : OutKeeps s (execRailFail rail t) := by
  unfold execRailFail
  split
  · exact outKeeps_fault _
  · dsimp only
    exact outKeeps_next (keeps_assertReset (keeps_ite (keeps_lowerHbm h.set) h.set))

theorem outKeeps_execHbmEnSequence (h : Keeps s t) : OutKeeps s (execHbmEnSequence t) := by
  unfold execHbmEnSequence
  dsimp only
  exact outKeeps_next (keeps_ite h (keeps_ite h.set (keeps_ite (keeps_ite h.set h) (keeps_ite (keeps_ite h.set h) h))))

theorem outKeeps_execActiveToggle (h : Keeps s t) : OutKeeps s (execActiveToggle t) := by
  unfold execActiveToggle
  split
  · exact outKeeps_next h
  · dsimp only
    exact outKeeps_next ((keeps_advanceTo h).set)

theorem outKeeps_execPldmFirmwareData {data last} (h : Keeps s t) : OutKeeps s (execPldmFirmwareData data last t) := by
  unfold execPldmFirmwareData
  split
  · exact outKeeps_next h
  · dsimp only
    split
    · exact outKeeps_next h.set
    · exact outKeeps_next (keeps_answer ((keeps_stageFirmware h.set).set))

theorem outKeeps_execSpdmKeyExchange (h : Keeps s t) : OutKeeps s (execSpdmKeyExchange t) := by
  unfold execSpdmKeyExchange
  refine outKeeps_onDoe h ?_
  split
  · exact keeps_spdmError h
  · exact keeps_answer ((keeps_useFree h).set)

theorem outKeeps_execMarginCheck {region margins} (h : Keeps s t) : OutKeeps s (execMarginCheck region margins t) := by
  unfold execMarginCheck
  split
  · exact outKeeps_fault _
  · split
    · exact outKeeps_next h
    · dsimp only
      exact outKeeps_next (keeps_ite (keeps_marginFail (keeps_ite (keeps_detectStretch (keeps_ite (keeps_raiseAlarm h.set) h.set)) (keeps_ite
        (keeps_raiseAlarm h.set) h.set))) (keeps_ite (keeps_detectStretch (keeps_ite (keeps_raiseAlarm h.set) h.set)) (keeps_ite
        (keeps_raiseAlarm h.set) h.set)))

theorem outKeeps_execStretchEventApply {region} (h : Keeps s t) : OutKeeps s (execStretchEventApply region t) := by
  unfold execStretchEventApply
  split
  · exact outKeeps_fault _
  · exact outKeeps_next (keeps_ite (keeps_stretchRegion h) h)

theorem outKeeps_execBeatCapture {region lateHalfCycles} (h : Keeps s t) : OutKeeps s (execBeatCapture region lateHalfCycles t) := by
  unfold execBeatCapture
  split
  · exact outKeeps_fault _
  · split
    · exact outKeeps_next h
    · refine outKeeps_next ?_
      split
      · exact keeps_ite (keeps_raiseCore h) h
      · exact h

theorem outKeeps_execGovernorStep {power} (h : Keeps s t) : OutKeeps s (execGovernorStep power t) := by
  unfold execGovernorStep
  dsimp only
  split
  · exact outKeeps_next (keeps_retarget ((keeps_measurePower h).set))
  · split
    · exact outKeeps_next (keeps_retarget ((keeps_measurePower h).set))
    · exact outKeeps_next ((keeps_measurePower h).set)

theorem outKeeps_execAutoThrottle (h : Keeps s t) : OutKeeps s (execAutoThrottle t) := by
  unfold execAutoThrottle
  dsimp only
  split
  · exact outKeeps_next h
  · exact outKeeps_next (keeps_raiseAlarm ((keeps_stageMode h).set))

theorem outKeeps_execTargetApply (h : Keeps s t) : OutKeeps s (execTargetApply t) := by
  unfold execTargetApply
  refine outKeeps_next ?_
  split
  · exact h.set
  · exact h

theorem outKeeps_execSensorSample {readings} (h : Keeps s t) : OutKeeps s (execSensorSample readings t) := by
  unfold execSensorSample
  split
  · exact outKeeps_next (keeps_thermalAction (keeps_setTstate (keeps_markHottest (keeps_foldl h fun _ _ hu => keeps_readSensor hu))))
  · exact outKeeps_fault _

theorem outKeeps_execThermalThrottle (h : Keeps s t) : OutKeeps s (execThermalThrottle t) := by
  unfold execThermalThrottle
  dsimp only
  split
  · exact outKeeps_next h
  · exact outKeeps_next (keeps_raiseAlarm ((keeps_stageMode h).set))

theorem outKeeps_execThermalTrip {sn temp} (h : Keeps s t) : OutKeeps s (execThermalTrip sn temp t) := by
  unfold execThermalTrip
  split
  · exact outKeeps_fault _
  · exact outKeeps_next (keeps_ite h (keeps_trip h))

theorem outKeeps_execThermalTripRelease (h : Keeps s t) : OutKeeps s (execThermalTripRelease t) := by
  unfold execThermalTripRelease
  split
  · exact outKeeps_next h
  · dsimp only
    exact outKeeps_next ((keeps_assertReset h.set).set)

theorem outKeeps_execStreamElement {c prog} (h : Keeps s t) : OutKeeps s (execStreamElement c prog t) := by
  unfold execStreamElement
  refine outKeeps_onCore ?_
  split
  · exact h
  · dsimp only
    split
    · exact h
    · split
      next => exact keeps_raiseCore (keeps_settle h)
      next hg => exact keeps_applyCmd (keeps_settle h) (resKeeps_streamEffect _ hg)

theorem outKeeps_execStreamElementReady {c prog} (h : Keeps s t) : OutKeeps s (execStreamElementReady c prog t) := by
  unfold execStreamElementReady
  refine outKeeps_onCore ?_
  split
  · exact h
  · exact keeps_ite h (keeps_ite (keeps_setCore (keeps_settle h)) (keeps_setCore (keeps_settle h)))

theorem outKeeps_execReplyWrite (h : Keeps s t) : OutKeeps s (execReplyWrite t) := by
  refine outKeeps_next ?_
  split
  next => exact h
  next r rest hq =>
    split
    · exact h
    · refine keeps_replyVisible (keeps_writeReply (h.update (fun ⟨hlo, hhi, hpl, hph, hlen⟩ => ⟨hlo, hhi, hpl, hph, ?_⟩) id id))
      rw [hq, List.length_cons] at hlen
      exact Nat.le_of_succ_le hlen

theorem outKeeps_execRoundStart (h : Keeps s t) : OutKeeps s (execRoundStart t) := by
  unfold execRoundStart
  split
  · exact outKeeps_next h
  · dsimp only
    exact outKeeps_next (keeps_ite (keeps_serveQueue ((keeps_foldl (keeps_advanceTo h) fun _ _ hu => keeps_portRound hu).set))
      (keeps_releaseRequests (keeps_serveQueue ((keeps_foldl (keeps_advanceTo h) fun _ _ hu => keeps_portRound hu).set))))

theorem outKeeps_execIdentProofChecked {p} (h : Keeps s t) : OutKeeps s (execIdentProofChecked p t) := by
  unfold execIdentProofChecked
  refine outKeeps_onPort ?_
  split
  · exact h
  · exact keeps_ite h (keeps_ite (keeps_admitPort (keeps_modPort h)) (keeps_quietPort h))

theorem outKeeps_execLoss {p round slot cause} (h : Keeps s t) : OutKeeps s (execLoss p round slot cause t) := by
  unfold execLoss
  dsimp only
  exact outKeeps_onPort (keeps_ite (keeps_receiveLoss h) h)

theorem outKeeps_execParcelLanding (h : Keeps s t) : OutKeeps s (execParcelLanding t) := by
  unfold execParcelLanding
  split
  · exact outKeeps_next h
  · exact outKeeps_next (keeps_ite h (keeps_landParcel h.set))

theorem outKeeps_execFlightMeasure {p} (h : Keeps s t) : OutKeeps s (execFlightMeasure p t) := by
  unfold execFlightMeasure
  refine outKeeps_onPort ?_
  dsimp only
  split
  · exact h
  · exact keeps_ite h (keeps_ite (keeps_raiseAlarm (keeps_setPort h)) (keeps_setPort h))

theorem outKeeps_execTransitApply (h : Keeps s t) : OutKeeps s (execTransitApply t) := by
  unfold execTransitApply
  split
  · exact outKeeps_next h
  · dsimp only
    exact outKeeps_next (keeps_ite (keeps_foldl ((keeps_setVersion (keeps_advanceTo h)).set) fun _ _ hu => keeps_dropTransit hu)
      ((keeps_setVersion (keeps_advanceTo h)).set))

theorem outKeeps_execRingWrite (h : Keeps s t) : OutKeeps s (execRingWrite t) := by
  unfold execRingWrite
  refine outKeeps_next ?_
  split
  · exact h
  · split
    · exact keeps_ringRecord h
    · exact keeps_boxCopy h

theorem outKeeps_execBoxRoomWrite (h : Keeps s t) : OutKeeps s (execBoxRoomWrite t) := by
  unfold execBoxRoomWrite
  refine outKeeps_next ?_
  split
  · exact h
  · exact h.set

theorem outKeeps_execPldmEventSend (h : Keeps s t) : OutKeeps s (execPldmEventSend t) := by
  unfold execPldmEventSend
  refine outKeeps_next ?_
  split
  · exact h.set
  · exact h

theorem outKeeps_aluR {f lat c rd ra rb} (h : Keeps s t) : OutKeeps s (aluR f lat c rd ra rb t) :=
  outKeeps_onCore (keeps_seqRun h)

theorem outKeeps_aluI {f lat c rd ra imm} (h : Keeps s t) : OutKeeps s (aluI f lat c rd ra imm t) :=
  outKeeps_onCore (keeps_seqRun h)

theorem outKeeps_execWaitf {c imm} (h : Keeps s t) : OutKeeps s (execWaitf c imm t) :=
  outKeeps_onCore (keeps_ite h (keeps_ite (keeps_seqRun (keeps_setCore h)) (keeps_requestFreeze (keeps_setCore (keeps_settle (keeps_setCore h))))))

theorem outKeeps_execContainerReceive {p round slot words} (h : Keeps s t) : OutKeeps s (execContainerReceive p round slot words t) :=
  outKeeps_onPort (keeps_ite h (keeps_ite (keeps_failedContainer (keeps_modPort (keeps_advanceTo h))) (keeps_ite (keeps_failedContainer
    (keeps_modPort (keeps_modPort (keeps_advanceTo h)))) (keeps_goodContainer (keeps_ite (keeps_receiveNak (keeps_modPort (keeps_advanceTo h)))
    (keeps_modPort (keeps_advanceTo h)))))))

theorem outKeeps_execEthFrameReceive {p fcsOk frame} (h : Keeps s t) : OutKeeps s (execEthFrameReceive p fcsOk frame t) :=
  outKeeps_onPort (keeps_ite h (keeps_ite (keeps_ethDrop h) (keeps_ite (keeps_ethDrop h) (keeps_ite (keeps_ethDrop h) (keeps_ite
    (keeps_ethRequest h) (keeps_ite (keeps_modPort h) (keeps_ethDrop h)))))))

theorem outKeeps_execRequestUpdate (h : Keeps s t) : OutKeeps s (execRequestUpdate  t) :=
  outKeeps_next (keeps_ite h (keeps_ite (keeps_answer h) (keeps_answer h.set)))

theorem outKeeps_execSpdmGetMeasurements {index nonce} (h : Keeps s t) : OutKeeps s (execSpdmGetMeasurements index nonce t) :=
  outKeeps_onDoe h (keeps_ite (keeps_answer (keeps_useFree h)) (keeps_ite (keeps_answer (keeps_useFree h)) (keeps_spdmError h)))

theorem outKeeps_execTexp {c} (h : Keeps s t) : OutKeeps s (execTexp c t) := by
  refine outKeeps_onEngine h fun _ _ _ => ?_
  simp only [resKeeps_bind, resKeeps_pure]
  intros
  exact fun _ _ h => keeps_countOvf h

theorem outKeeps_execTexpmx {c} (h : Keeps s t) : OutKeeps s (execTexpmx c t) := by
  refine outKeeps_onEngine h fun _ _ _ => ?_
  simp only [resKeeps_bind, resKeeps_pure]
  intros
  exact fun _ _ h => keeps_countOvf h

theorem outKeeps_execXovl {c} (h : Keeps s t) : OutKeeps s (execXovl c t) := by
  refine outKeeps_onEngine h fun _ _ _ => ?_
  simp only [resKeeps_bind]
  intros
  split
  · exact resKeeps_throw _
  · exact (resKeeps_pure _).mpr CmdEff.postKeeps_id

theorem outKeeps_execPost {c} (h : Keeps s t) : OutKeeps s (execPost c t) := by
  refine outKeeps_onEngine h fun _ _ _ => ?_
  simp only [resKeeps_bind]
  intros
  split
  · exact resKeeps_throw _
  · simp only [resKeeps_ite, resKeeps_bind, throw_eq_ok, false_imp_iff, implies_true, true_and, resKeeps_pure]
    exact fun _ _ _ h => keeps_postParcels h

theorem outKeeps_execXcrd {c} (h : Keeps s t) : OutKeeps s (execXcrd c t) := by
  refine outKeeps_onEngine h fun _ _ _ => ?_
  simp only [resKeeps_bind]
  intros
  split
  · exact resKeeps_throw _
  · exact (resKeeps_pure _).mpr (postKeeps_requestBeats _ _)

theorem outKeeps_execXcwr {c} (h : Keeps s t) : OutKeeps s (execXcwr c t) := by
  refine outKeeps_onEngine h fun _ _ _ => ?_
  simp only [resKeeps_bind, resKeeps_pure, postKeeps_requestBeats, implies_true]

theorem outKeeps_exec (s : State) (i : Instr) : OutKeeps s (exec i s) := by
  cases i
  all_goals
    delta exec
    dsimp only
  case add | sub | and | or | xor | shl | shr | sra | mul | mulhu | min | max | slt | sltu | seq => exact outKeeps_aluR (.refl s)
  case addi | andi | ori | xori | shli | shri | srai | muli => exact outKeeps_aluI (.refl s)
  case nop | frameEnd | loop | brb | jmp | skip | call | ret | csel | li | lds | sts | rdid | tget | setf | clrf | chka | clra | pset | pget |
     gload | gstep => exact outKeeps_onCore (keeps_seqRun (.refl s))
  case waitf => exact outKeeps_execWaitf (.refl s)
  case enq => exact outKeeps_onCore (keeps_enqCore (.refl s))
  case illegalOpcode => exact outKeeps_onCore (keeps_ite (.refl s) (keeps_seqRun (.refl s)))
  case enqueueAfterStall => exact outKeeps_execEnqueueAfterStall (.refl s)
  case engineDispatch => exact outKeeps_execEngineDispatch (.refl s)
  case commandComplete => exact outKeeps_execCommandComplete (.refl s)
  case streamElement => exact outKeeps_execStreamElement (.refl s)
  case streamElementReady => exact outKeeps_execStreamElementReady (.refl s)
  case scheduleEnd => exact outKeeps_execScheduleEnd (.refl s)
  case freezeHalt => exact outKeeps_execFreezeHalt (.refl s)
  case freezeResume => exact outKeeps_execFreezeResume (.refl s)
  case freezeOver => exact outKeeps_execFreezeOver (.refl s)
  case circularWait => exact outKeeps_execCircularWait (.refl s)
  case arrivalTimeout => exact outKeeps_execArrivalTimeout (.refl s)
  case faultHalt => exact outKeeps_execFaultHalt (.refl s)
  case frameTick => exact outKeeps_next (keeps_frameTick (.refl s))
  case frameStart => exact outKeeps_execFrameStart (.refl s)
  case holdHorizon => exact outKeeps_execHoldHorizon (.refl s)
  case holdTimeout => exact outKeeps_execHoldTimeout (.refl s)
  case holdNote => exact outKeeps_execHoldNote (.refl s)
  case ready => exact outKeeps_execReady (.refl s)
  case stop => exact outKeeps_execStop (.refl s)
  case detour => exact outKeeps_execDetour (.refl s)
  case detourFlip => exact outKeeps_execDetourFlip (.refl s)
  case tableSetWritten => exact outKeeps_next (keeps_finishWrite (.refl s))
  case resend => exact outKeeps_next (keeps_serveResend (keeps_takeNote (.refl s)))
  case resendWaitExpiry => exact outKeeps_execResendWaitExpiry (.refl s)
  case foMsg => exact outKeeps_execFoMsg (.refl s)
  case routedNoteReceive => exact outKeeps_onPort (keeps_ite (keeps_receiveNote (.refl s)) (.refl s))
  case noteGap => exact outKeeps_next (keeps_passGap (keeps_passGap (.refl s)))
  case roundStart => exact outKeeps_execRoundStart (.refl s)
  case roundMarker => exact outKeeps_onPort (keeps_ite (.refl s) (keeps_ite (keeps_setPort (.refl s)) (keeps_setPort (.refl s))))
  case dataSlot => exact outKeeps_onPort (keeps_dataSlot (.refl s))
  case serviceSlot => exact outKeeps_onPort (keeps_serviceSlot (.refl s))
  case containerReceive => exact outKeeps_execContainerReceive (.refl s)
  case parcelLanding => exact outKeeps_execParcelLanding (.refl s)
  case heartbeat => exact outKeeps_onPort (keeps_receiveHeartbeat (.refl s))
  case portDown => exact outKeeps_onPort (keeps_ite (.refl s) (keeps_portGoesDown (.refl s)))
  case portTrain | trainRetry => exact outKeeps_onPort (keeps_ite (.refl s) (keeps_trainPort (.refl s)))
  case identity => exact outKeeps_onPort (keeps_receiveIdentity (.refl s))
  case idkey => exact outKeeps_onPort (keeps_receiveKey (.refl s))
  case idsig => exact outKeeps_onPort (keeps_receiveSig (.refl s))
  case identProofChecked => exact outKeeps_execIdentProofChecked (.refl s)
  case loss => exact outKeeps_execLoss (.refl s)
  case flightMeasure => exact outKeeps_execFlightMeasure (.refl s)
  case sync => exact outKeeps_onPort (keeps_receiveSync (.refl s))
  case holdoverExpiry => exact outKeeps_next (keeps_ite (keeps_stopNow (keeps_advanceTo (.refl s))) (.refl s))
  case ethFrameReceive => exact outKeeps_execEthFrameReceive (.refl s)
  case ptpMessage => exact outKeeps_onPort (keeps_ite (keeps_ptpReceive (.refl s)) (.refl s))
  case ptpAnnounceTimeout => exact outKeeps_execPtpAnnounceTimeout (.refl s)
  case transitApply => exact outKeeps_execTransitApply (.refl s)
  case sectorReturn => exact outKeeps_onCtl (keeps_releaseSector (.refl s))
  case act | pre | rd | wr | bact | gap => exact outKeeps_onCtl (keeps_ctlEntry (.refl s))
  case progEnd => exact outKeeps_onCtl (keeps_ite (keeps_setCtl (.refl s)) (.refl s))
  case pinnedRefresh => exact outKeeps_onCtl (keeps_pinnedRefresh (.refl s))
  case scrubWindow => exact outKeeps_onCtl (keeps_scrubWindow (.refl s))
  case retentionRefresh => exact outKeeps_onCtl (keeps_ite (keeps_retentionRefresh (.refl s)) (.refl s))
  case hostHatchWrite => exact outKeeps_next (keeps_ite (.refl s) (keeps_hostHatchWrite (.refl s)))
  case hostHatchRead => exact outKeeps_next (keeps_ite (.refl s) (keeps_hostHatchRead (.refl s)))
  case cellarWindowRead => exact outKeeps_next (keeps_ite (.refl s) (keeps_windowRead (.refl s)))
  case cellarWindowWrite => exact outKeeps_next (keeps_ite (.refl s) (keeps_windowWrite (.refl s)))
  case intake => exact outKeeps_next (keeps_ite (.refl s) (keeps_intake (keeps_advanceTo (.refl s))))
  case replyWrite => exact outKeeps_execReplyWrite (.refl s)
  case longCommandDone => exact outKeeps_next (keeps_longDone (.refl s))
  case ping => exact outKeeps_hostCommand (.refl s) keeps_cPing
  case identify => exact outKeeps_hostCommand (.refl s) keeps_cIdentify
  case negotiate => exact outKeeps_hostCommand (.refl s) keeps_cNegotiate
  case setMode => exact outKeeps_hostCommand (.refl s) keeps_cSetMode
  case getSettings => exact outKeeps_hostCommand (.refl s) keeps_cGetSettings
  case stageSettings => exact outKeeps_hostCommand (.refl s) keeps_cStageSettings
  case commitSettings => exact outKeeps_hostCommand (.refl s) keeps_cCommitSettings
  case loadCrate => exact outKeeps_hostCommand (.refl s) keeps_cLoadCrate
  case verify => exact outKeeps_hostCommand (.refl s) keeps_cVerify
  case place => exact outKeeps_hostCommand (.refl s) keeps_cPlace
  case loadTimetable => exact outKeeps_hostCommand (.refl s) keeps_cLoadTimetable
  case start => exact outKeeps_hostCommand (.refl s) keeps_cStart
  case hold => exact outKeeps_hostCommand (.refl s) keeps_cHold
  case resume => exact outKeeps_hostCommand (.refl s) keeps_cResume
  case abort => exact outKeeps_hostCommand (.refl s) keeps_cAbort
  case runToFrame => exact outKeeps_hostCommand (.refl s) keeps_cRunToFrame
  case checkpoint => exact outKeeps_hostCommand (.refl s) keeps_cCheckpoint
  case restore => exact outKeeps_hostCommand (.refl s) keeps_cRestore
  case admitStream => exact outKeeps_hostCommand (.refl s) keeps_cAdmit
  case retireStream => exact outKeeps_hostCommand (.refl s) keeps_cRetire
  case streamStatus => exact outKeeps_hostCommand (.refl s) keeps_cStreamStatus
  case readInventory => exact outKeeps_hostCommand (.refl s) keeps_cReadInventory
  case replayBegin => exact outKeeps_hostCommand (.refl s) keeps_cReplayBegin
  case getCertificate => exact outKeeps_hostCommand (.refl s) keeps_cGetCertificate
  case attest => exact outKeeps_hostCommand (.refl s) keeps_cAttest
  case debugUnlockChallenge | debugUnlockResponse => exact outKeeps_hostCommand (.refl s) keeps_cDebugUnlock
  case challengeLapse => exact outKeeps_execChallengeLapse (.refl s)
  case setSlice => exact outKeeps_hostCommand (.refl s) keeps_cSetSlice
  case loadTransit => exact outKeeps_hostCommand (.refl s) keeps_cLoadTransit
  case portDisable | portEnable | portRetrain => exact outKeeps_hostCommand (.refl s) keeps_cPortControl
  case discover => exact outKeeps_hostCommand (.refl s) keeps_cDiscover
  case resetSystem | resetCore => exact outKeeps_hostCommand (.refl s) keeps_cReset
  case timeSetUtc => exact outKeeps_hostCommand (.refl s) keeps_cTimeSetUtc
  case timeStatus => exact outKeeps_hostCommand (.refl s) keeps_cTimeStatus
  case firmwareStage => exact outKeeps_hostCommand (.refl s) keeps_cFirmwareStage
  case firmwareActivateMark | firmwareActivateNow => exact outKeeps_hostCommand (.refl s) keeps_cFirmwareActivate
  case cmdEnable | cmdDisable => exact outKeeps_hostRegister (.refl s) (keeps_writeCmdCfg (.refl s))
  case rplConsumedWrite => exact outKeeps_hostRegister (.refl s) (keeps_writeRplConsumed (.refl s))
  case reacquire => exact outKeeps_next (keeps_ite (.refl s) (keeps_acquireMt (.refl s)))
  case mtNsRead => exact outKeeps_next (Keeps.refl s).set
  case alarmAck => exact outKeeps_hostRegister (.refl s) (keeps_ackAlarm (.refl s))
  case alarmClear => exact outKeeps_hostRegister (.refl s) (keeps_clearAlarms (.refl s))
  case rstCauseClear => exact outKeeps_hostRegister (.refl s) (keeps_writeRstCause (.refl s))
  case sampleCfgWrite => exact outKeeps_execSampleCfgWrite (.refl s)
  case ovfGibWrite => exact outKeeps_hostRegister (.refl s) (keeps_writeBrCfg (.refl s))
  case registerWrite => exact outKeeps_hostRegister (.refl s) (keeps_writeRegister (.refl s))
  case blockReset => exact outKeeps_hostRegister (.refl s) (keeps_writeBlockCtrl (.refl s))
  case blockQuiesceTimeout => exact outKeeps_execBlockQuiesceTimeout (.refl s)
  case blockResetDone => exact outKeeps_execBlockResetDone (.refl s)
  case ringWrite => exact outKeeps_execRingWrite (.refl s)
  case boxRoomWrite => exact outKeeps_execBoxRoomWrite (.refl s)
  case pldmEventSend => exact outKeeps_execPldmEventSend (.refl s)
  case marginCheck => exact outKeeps_execMarginCheck (.refl s)
  case stretchEventApply => exact outKeeps_execStretchEventApply (.refl s)
  case beatCapture => exact outKeeps_execBeatCapture (.refl s)
  case governorStep => exact outKeeps_execGovernorStep (.refl s)
  case autoThrottle => exact outKeeps_execAutoThrottle (.refl s)
  case targetApply => exact outKeeps_execTargetApply (.refl s)
  case avsConfirm => exact outKeeps_next (keeps_ite (Keeps.refl s).set (keeps_raiseAlarm (.refl s)))
  case sensorSample => exact outKeeps_execSensorSample (.refl s)
  case thermalThrottle => exact outKeeps_execThermalThrottle (.refl s)
  case thermalTrip => exact outKeeps_execThermalTrip (.refl s)
  case thermalTripRelease => exact outKeeps_execThermalTripRelease (.refl s)
  case refclkLoss => exact outKeeps_execRefclkLoss (.refl s)
  case refclkRestore => exact outKeeps_execRefclkRestore (.refl s)
  case ppsInEdge => exact outKeeps_execPpsInEdge (.refl s)
  case ppsMissing => exact outKeeps_execPpsMissing (.refl s)
  case ppsOutEdge => exact outKeeps_execPpsOutEdge (.refl s)
  case railFail => exact outKeeps_execRailFail (.refl s)
  case powerOnRelease => exact outKeeps_next (keeps_releaseSource (Keeps.refl s).set)
  case hbmEnSequence => exact outKeeps_execHbmEnSequence (.refl s)
  case porst | sysrst => exact outKeeps_next (keeps_ite (keeps_assertReset (.refl s)) (keeps_releaseSource (.refl s)))
  case debugReset => exact outKeeps_next (keeps_ite (keeps_assertReset (.refl s)) (.refl s))
  case wdog => exact outKeeps_execWdog (.refl s)
  case cxlHot => exact outKeeps_execCxlHot (.refl s)
  case cxlLdn => exact outKeeps_execCxlLdn (.refl s)
  case resetRelease => exact outKeeps_execResetRelease (.refl s)
  case tapInstruction => exact outKeeps_next (keeps_ite (Keeps.refl s).set (.refl s))
  case setEndpointId | setEventReceiver => exact outKeeps_next (keeps_ite (keeps_answer (Keeps.refl s).set) (.refl s))
  case pldmRequest => exact outKeeps_next (keeps_ite (keeps_answer (.refl s)) (.refl s))
  case requestUpdate => exact outKeeps_execRequestUpdate (.refl s)
  case activateFirmware => exact outKeeps_next (keeps_ite (.refl s) (keeps_answer ((keeps_activateStaged (.refl s)).set)))
  case spdmGetVersion | spdmGetCapabilities | spdmNegotiateAlgorithms => exact outKeeps_onDoe (.refl s) (keeps_answer (.refl s))
  case spdmGetCertificate => exact outKeeps_onDoe (.refl s) (keeps_ite (keeps_spdmError (.refl s)) (keeps_answer (.refl s)))
  case spdmChallenge => exact outKeeps_onDoe (.refl s) (keeps_ite (keeps_spdmError (.refl s)) (keeps_answer (keeps_useFree (.refl s))))
  case spdmGetMeasurements => exact outKeeps_execSpdmGetMeasurements (.refl s)
  case spdmKeyExchange => exact outKeeps_execSpdmKeyExchange (.refl s)
  case spdmFinish | spdmKeyUpdate | spdmHeartbeat => exact outKeeps_inSession (.refl s) (keeps_answer (.refl s))
  case spdmEndSession => exact outKeeps_inSession (.refl s) (keeps_answer (Keeps.refl s).set)
  case ideKm => exact outKeeps_inSession (.refl s) (keeps_ite (keeps_spdmError (.refl s)) (keeps_answer (Keeps.refl s).set))
  case certSigned => exact outKeeps_next (keeps_signCertificates (.refl s))
  case timeErrExceeded => exact outKeeps_execTimeErrExceeded (.refl s)
  case delayReq => exact outKeeps_next (.refl s)
  case activeToggle => exact outKeeps_execActiveToggle (.refl s)
  case deviceCommitWritten => exact outKeeps_next (keeps_ite (.refl s) (keeps_endCommit (keeps_writeDevice (.refl s))))
  case pldmFirmwareData => exact outKeeps_execPldmFirmwareData (.refl s)
  case tclr | tset | vainit | nclra => exact outKeeps_onEngine (.refl s) fun _ _ _ => (resKeeps_pure _).mpr CmdEff.postKeeps_id
  case mma | maxexp | toutp | taddp | vld | vst | vcmp | sel | vcvt | vfn | vasum | vacvt | vmaxe | vargmax | vmovs | vbcast | draw | xput |
     xhrd | xhwr | xstream =>
    refine outKeeps_onEngine (.refl s) fun _ _ _ => ?_
    simp only [resKeeps_bind, resKeeps_ite, resKeeps_pure, CmdEff.postKeeps_id, implies_true, and_self]
  case gather | scatter | xmov =>
    refine outKeeps_onEngine (.refl s) fun _ _ _ => ?_
    simp only [resKeeps_bind, resKeeps_pure, postKeeps_copyWithin, implies_true]
  case vadd | vsub | vmul | vfma | vdiv | vmin | vmax => exact outKeeps_onEngine (.refl s) fun _ _ _ => resKeeps_vecOp
  case texp => exact outKeeps_execTexp (.refl s)
  case texpmx => exact outKeeps_execTexpmx (.refl s)
  case xovl => exact outKeeps_execXovl (.refl s)
  case post => exact outKeeps_execPost (.refl s)
  case xcrd => exact outKeeps_execXcrd (.refl s)
  case xcwr => exact outKeeps_execXcwr (.refl s)
  -- The arm that is left is REPEAT, whose constructor's name is a keyword.
  exact outKeeps_onCtl (keeps_ctlRepeat (.refl s))

/-! ### A step -/

/-- Every step keeps, whatever command it runs. -/
theorem keeps_step (h : step s = .next t) : Keeps s t := by
  unfold step at h
  split at h
  · exact outKeeps_next (keeps_idleTick (.refl s)) t h
  next c rest _ => exact (Keeps.refl s).set.trans (outKeeps_exec { s with pending := rest } c t h)

end

/-- Settles O57: the canonical form is part of what a step keeps. -/
theorem stepsKeepMemoryCanonical : Obligations.StepsKeepMemoryCanonical := fun _ _ hs h =>
  ⟨(keeps_step h).hatch hs.1, (keeps_step h).cellar hs.2⟩

/-- Settles O58: so are the device's identity and the ranges of the window. -/
theorem stepsKeepIdentityAndWindow : Obligations.StepsKeepIdentityAndWindow := fun _ _ h =>
  have hk := keeps_step h
  ⟨hk.variant, hk.stepping, hk.serial, hk.boardPos, hk.window⟩

end Sys2Proof.Machine
end

section
/-! PROOFS. The small statements: a step runs the front command, an idle step is one tick, the reset values, missing units, hard-wired registers. -/

namespace Sys2Proof.Machine

open Sys2Proof

/-! ### A step -/

/-- Settles O54. -/
theorem stepRunsTheFrontCommand : Obligations.StepRunsTheFrontCommand := fun _ _ _ => rfl

/-- Without a correction machine time gains 2^32 units of 2^-32 ns in a tick (R389). -/
theorem Time.mtInc_of_no_correction {t : Time} (hrho : t.rho = 0) (hoff : t.pendingOff = 0) : t.mtInc = 2 ^ 32 := by
  simp [Time.mtInc, hrho, hoff, drained]

/-- One ns more leaves the fraction (R389). -/
theorem ofNat_add_two_pow_32 (m : BitVec 64) (f : BitVec 32) :
    BitVec.ofNat 32 (m.toNat * 2 ^ 32 + f.toNat + 2 ^ 32) = f ∧ BitVec.ofNat 64 ((m.toNat * 2 ^ 32 + f.toNat + 2 ^ 32) / 2 ^ 32) = m + 1 := by
  have hdiv : (m.toNat * 2 ^ 32 + f.toNat + 2 ^ 32) / 2 ^ 32 = m.toNat + 1 := by have := f.isLt; omega
  constructor
  · apply BitVec.eq_of_toNat_eq
    have := f.isLt
    simp only [BitVec.toNat_ofNat]
    omega
  · rw [hdiv]
    apply BitVec.eq_of_toNat_eq
    simp

/-- Settles O55: machine time without a correction gains exactly 1 ns. -/
theorem idleStepIsOneTick : Obligations.IdleStepIsOneTick := by
  intro s hp
  have hstep : step s = .next (idleTick s) := by simp [step, hp]
  refine ⟨fun hoff => ?_, fun hon => ⟨_, hstep, ?_⟩⟩
  · rw [hstep, idleTick, if_pos hoff]
  · rw [idleTick, if_neg hon]
    refine ⟨rfl, rfl, fun hrho hpend => ?_⟩
    obtain ⟨hfrac, hns⟩ := ofNat_add_two_pow_32 s.time.mtNs s.time.mtFrac
    rw [Time.mtInc_of_no_correction hrho hpend]
    exact ⟨hfrac, hns⟩

/-! ### The state after reset -/

/-- Settles O56: the defaults of the state's parts are the reset values. -/
theorem resetStateHolds : Obligations.ResetStateHolds := by
  unfold Obligations.ResetStateHolds CmdWin.ok State.memoryOk
  decide

/-! ### Units that the package does not have -/

theorem onCore_missing {c : Nat} (s : State) (f : State → State) (h : 81920 ≤ c) : onCore c s f = .fault .noSuchCore :=
  if_neg (Nat.not_lt.mpr h)

theorem onPort_missing {p : Nat} {s : State} (f : State → State) (h : portExists s.variant p = false) : onPort p s f = .fault .noSuchPort :=
  if_neg (by simp [h])

theorem onCtl_missing {k : Nat} {s : State} (f : State → State) (h : 160 * mioCount s.variant ≤ k) : onCtl k s f = .fault .noSuchController :=
  if_neg (Nat.not_lt.mpr h)

/-- No variant has a 65th region, so it has no sensor there either (R518). -/
theorem sensorExists_region_of_le {n : Nat} (v : Variant) (h : 64 ≤ n) : sensorExists v (.region n) = false :=
  decide_eq_false (Nat.not_lt.mpr h)

theorem aluR_missing {c : Nat} (f : Word → Word → Word) (lat : Nat) (rd ra rb : Fin 32) (s : State) (h : 81920 ≤ c) :
    aluR f lat c rd ra rb s = .fault .noSuchCore := onCore_missing s _ h

theorem aluI_missing {c : Nat} (f : Word → Word → Word) (lat : Nat) (rd ra : Fin 32) (imm : Word) (s : State) (h : 81920 ≤ c) :
    aluI f lat c rd ra imm s = .fault .noSuchCore := onCore_missing s _ h

theorem onEngine_missing {c : Nat} (e : Engine) (cop : Nat) (s : State) (f : State → Core → InFlight → CRes CmdEff) (h : 81920 ≤ c) :
    onEngine c e cop s f = .fault .noSuchCore := onCore_missing s _ h

/-- Settles O59: each command looks for its unit first. -/
theorem commandsOfMissingUnitsFault : Obligations.CommandsOfMissingUnitsFault := by
  intro s n a b e f g r imm v
  simp only [List.forall_mem_cons, List.not_mem_nil, false_imp_iff, implies_true, and_true]
  delta exec
  dsimp only
  refine ⟨fun h => ?_, fun h => ?_, fun h => ?_, fun h => ?_⟩
  · exact ⟨onCore_missing s _ h, aluR_missing _ _ _ _ _ s h, aluI_missing _ _ _ _ _ s h, onCore_missing s _ h, onCore_missing s _ h,
      onEngine_missing _ _ s _ h, onEngine_missing _ _ s _ h, onEngine_missing _ _ s _ h, onEngine_missing _ _ s _ h, onCore_missing s _ h,
      onCore_missing s _ h, onCore_missing s _ h⟩
  · exact ⟨onPort_missing _ h, onPort_missing _ h, onPort_missing _ h, onPort_missing _ h, onPort_missing _ h, onPort_missing _ h,
      onPort_missing _ h, onPort_missing _ h, onPort_missing _ h, if_neg (by simp [h])⟩
  · exact ⟨onCtl_missing _ h, onCtl_missing _ h, onCtl_missing _ h, onCtl_missing _ h, onCtl_missing _ h, onCtl_missing _ h, onCtl_missing _ h,
      onCtl_missing _ h, onCtl_missing _ h, onCtl_missing _ h, onCtl_missing _ h, onCtl_missing _ h⟩
  · have hregion := sensorExists_region_of_le s.variant h
    exact ⟨if_pos h, if_pos h, if_pos h, if_neg (by simp [hregion]), if_pos (by simp [hregion]), if_pos (by omega)⟩

/-! ### Hard-wired registers -/

/-- Settles O60. -/
theorem hardWiredRegistersKeepTheirValues : Obligations.HardWiredRegistersKeepTheirValues := by
  intro k v q w n m
  simp only [Core.sreg_setSreg, Core.preg_setPreg, Core.vreg_setVreg]
  simp +contextual

end Sys2Proof.Machine
end

section
/-! PROOFS. The instructions of the sequencer (R52, R122): what one leaves that issues, passes its checks and has an effect, and that of each kind. -/

namespace Sys2Proof.Machine

open Sys2Proof

/-! ### The effect of an instruction -/

/-- An instruction that issues, passes its form and changes only its core: the core leaves its word, and `CUR_CYCLE` follows. -/
theorem onCore_seqRun_plain {s : State} {c n : Nat} {k k' : Core} {ex : Exit} {next : Option Nat} {form : Core → Bool → Res Unit}
    {run : State → Core → Res SeqEff} (h : Issues s c) (hk : LeavesFor k n ex k') (hf : form (issuing s c) false = .ok ())
    (hr : run (atIssue s c) (issuing s c) = .ok { core := k, next := next, exit := ex }) (hpc : k.pc = (issuing s c).pc)
    (hn : next.getD (k.pc + 1) = n) :
    onCore c s (fun s => seqRun c s form run) = .next (issued s c k') := by
  have hadv : k.advance (issuing s c).pc (next.getD ((issuing s c).pc + 1)) ex = .ok k' := by rw [← hpc, hn]; exact hk
  rw [onCore_next _ _ h.exists_, seqRun_issues h hf hr, applySeq_plain rfl rfl rfl hadv]

/-- An instruction that falls through and changes only its core. -/
theorem onCore_seqRun_falls {s : State} {c : Nat} {k k' : Core} {form : Core → Bool → Res Unit} {run : State → Core → Res SeqEff} (h : Issues s c)
    (hk : Falls k k') (hf : form (issuing s c) false = .ok ()) (hr : run (atIssue s c) (issuing s c) = .ok { core := k })
    (hpc : k.pc = (issuing s c).pc) : onCore c s (fun s => seqRun c s form run) = .next (issued s c k') :=
  onCore_seqRun_plain h hk hf hr hpc rfl

/-! ### Scalar results (R122, R134) -/

@[simp] theorem withScalar_pc (k : Core) (n : Nat) (v : Word) (lat : Nat) : (withScalar k n v lat).pc = k.pc := by simp [withScalar]

section
variable {s : State} {c lat : Nat} {rd ra rb : Fin 32} {imm : Word} {f : Word → Word → Word} {k' : Core} (h : Issues s c)
include h

/-- An instruction that computes `v` for register `RD` and may write it completes with it. -/
theorem onCore_writesScalar {v : Word} {run : State → Core → Res SeqEff} (hrd : Writable (atIssue s c) (issuing s c) 0 rd ((issuing s c).cyc + lat))
    (hr : run (atIssue s c) (issuing s c) =
      (issuing s c).writeS (atIssue s c).frame.e rd v ((issuing s c).cyc + lat) 0 (issuing s c).pc >>= fun k => pure { core := k })
    (hk : Falls (withScalar (issuing s c) rd v lat) k') : onCore c s (fun s => seqRun c s noForm run) = .next (issued s c k') :=
  onCore_seqRun_falls h hk rfl (hr.trans (by rw [Core.writeS_ok v 0 _ hrd]; rfl)) (withScalar_pc ..)

theorem aluR_eq (hra : Readable (issuing s c) 0 ra (issuing s c).cyc) (hrb : Readable (issuing s c) 0 rb (issuing s c).cyc)
    (hrd : Writable (atIssue s c) (issuing s c) 0 rd ((issuing s c).cyc + lat))
    (hk : Falls (withScalar (issuing s c) rd (f ((issuing s c).sreg ra) ((issuing s c).sreg rb)) lat) k') :
    aluR f lat c rd ra rb s = .next (issued s c k') :=
  onCore_writesScalar h hrd (by rw [scalarR, Core.readS_ok hra, Core.readS_ok hrb]; rfl) hk

theorem aluI_eq (hra : Readable (issuing s c) 0 ra (issuing s c).cyc) (hrd : Writable (atIssue s c) (issuing s c) 0 rd ((issuing s c).cyc + lat))
    (hk : Falls (withScalar (issuing s c) rd (f ((issuing s c).sreg ra) imm) lat) k') : aluI f lat c rd ra imm s = .next (issued s c k') :=
  onCore_writesScalar h hrd (by rw [scalarI, Core.readS_ok hra]; rfl) hk
end

/-- The instructions of form R that compute a scalar differ only in their function and their latency (R122). -/
theorem exec_aluRowsR (s : State) (c : Nat) (rd ra rb : Fin 32) : ∀ row ∈ aluRowsR c rd ra rb, exec row.1 s = aluR row.2.2 row.2.1 c rd ra rb s := by
  simp only [aluRowsR, List.forall_mem_cons, List.not_mem_nil, false_imp_iff, implies_true, and_true]
  exact ⟨rfl, rfl, rfl, rfl, rfl, rfl, rfl, rfl, rfl, rfl, rfl, rfl, rfl, rfl, rfl⟩

/-- So do those of form I. -/
theorem exec_aluRowsI (s : State) (c : Nat) (rd ra : Fin 32) (imm : Word) :
    ∀ row ∈ aluRowsI c rd ra imm, exec row.1 s = aluI row.2.2 row.2.1 c rd ra imm s := by
  simp only [aluRowsI, List.forall_mem_cons, List.not_mem_nil, false_imp_iff, implies_true, and_true]
  exact ⟨rfl, rfl, rfl, rfl, rfl, rfl, rfl, rfl⟩

/-- Settles O1: each reads its sources and writes its result, ready after its latency. -/
theorem scalarArithmeticWritesItsResult : Obligations.ScalarArithmeticWritesItsResult := by
  refine ⟨fun s c rd ra rb k' h row hrow hra hrb hrd hk => (exec_aluRowsR s c rd ra rb row hrow).trans (aluR_eq h hra hrb hrd hk),
    fun s c rd ra rb imm k' h => ⟨fun row hrow hra hrd hk => (exec_aluRowsI s c rd ra imm row hrow).trans (aluI_eq h hra hrd hk), fun hrd =>
      ⟨fun hk => ?_, fun hk => ?_, fun hp hk => ?_, fun hra hrb hd hk => ?_⟩⟩⟩
  · exact onCore_writesScalar h hrd rfl hk
  · exact onCore_writesScalar h hrd rfl hk
  · exact onCore_writesScalar h hrd (by rw [Core.readP_ok hp]; rfl) hk
  · exact onCore_writesScalar h hrd (by rw [Core.readS_ok hra, Core.readS_ok hrb, Core.readS_ok hd]; rfl) hk

/-! ### Control (R74 to R77, R124) -/

section
variable {s : State} {c len cnt tgt : Nat} {cond : Fin 32} {k' : Core}

theorem exec_loop (h : Issues s c) (hloops : (issuing s c).loops.length < 4) (hlen : 1 ≤ len) (hend : (issuing s c).pc + len ≤ 1535) (hcnt : 1 ≤ cnt)
    (hcnt' : cnt ≤ 65535) (hlast : ¬(1 ≤ (issuing s c).opcodeAt ((issuing s c).pc + len) ∧ (issuing s c).opcodeAt ((issuing s c).pc + len) ≤ 7))
    (hk : Falls { issuing s c with
      loops := { first := (issuing s c).pc + 1, last := (issuing s c).pc + len, left := cnt - 1 } :: (issuing s c).loops } k') :
    exec (.loop c len cnt) s = .next (issued s c k') := by
  refine onCore_seqRun_falls h hk ?_ rfl (by dsimp only)
  have hl : ¬ 4 ≤ (issuing s c).loops.length := by omega
  have hw : ¬ lastWord < (issuing s c).pc + len := Nat.not_lt.mpr hend
  have hlen' : ¬ (len = 0 ∨ 1535 < len) := by omega
  have hcnt'' : ¬ (cnt = 0 ∨ 65535 < cnt) := by omega
  simp [loopForm, hl, hw, hlen', hcnt'', hlast, pure, Except.pure]

theorem targetForm_ok {k : Core} {b : Bool} (h : tgt ≤ 1535) : targetForm tgt k b = .ok () := if_neg (Nat.not_lt.mpr h)

theorem exec_call (h : Issues s c) (ht : tgt ≤ 1535) (hrets : (issuing s c).rets.length < 8)
    (hk : LeavesFor { issuing s c with rets := ((issuing s c).pc + 1) :: (issuing s c).rets } tgt .other k') :
    exec (.call c tgt) s = .next (issued s c k') := by
  refine onCore_seqRun_plain h hk ?_ rfl (by dsimp only) rfl
  have hr : ¬ 8 ≤ (issuing s c).rets.length := by omega
  have hw : ¬ lastWord < tgt := Nat.not_lt.mpr ht
  simp [callForm, hr, hw, pure, Except.pure]

theorem exec_ret {r : Nat} {rs : List Nat} (h : Issues s c) (hr : (issuing s c).rets = r :: rs)
    (hk : LeavesFor { issuing s c with rets := rs } r .other k') : exec (.ret c) s = .next (issued s c k') := by
  refine onCore_seqRun_plain (next := some r) h hk (by simp [retForm, hr]) ?_ (by dsimp only) rfl
  simp [hr]

theorem exec_skip (h : Issues s c) (hcond : Readable (issuing s c) 0 cond (issuing s c).cyc) (hlen : 1 ≤ len) (hlen' : len ≤ 64)
    (hend : (issuing s c).pc + len ≤ 1535) (hin : ∀ a ∈ skipEnds (issuing s c) len, ¬((issuing s c).pc < a ∧ a ≤ (issuing s c).pc + len))
    (hk : Falls (if (issuing s c).sreg cond = 0 then issuing s c else { issuing s c with skip := len }) k') :
    exec (.skip c cond len) s = .next (issued s c k') := by
  refine onCore_seqRun_falls h hk ?_ ?_ ?_
  · have hw : ¬ lastWord < (issuing s c).pc + len := Nat.not_lt.mpr hend
    have hl : ¬ (len = 0 ∨ 64 < len) := by omega
    have hfind : (skipEnds (issuing s c) len).find? (fun a => decide ((issuing s c).pc < a) && decide (a ≤ (issuing s c).pc + len)) = none := by
      rw [List.find?_eq_none]
      exact fun a ha => by simpa using hin a ha
    simp [skipForm, hw, hl, hfind, pure, Except.pure]
  · rw [Core.readS_ok hcond]
    rfl
  · split <;> dsimp only

/-- `BRB` opens its first arm where the condition is zero and its second arm otherwise. -/
theorem exec_brb {outer : List Arm} {arm : Arm} (h : Issues s c) (harm : arm = if (issuing s c).sreg cond = 0 then
        { second := false, first := (issuing s c).pc + 1, last := (issuing s c).pc + len, rejoin := (issuing s c).pc + len + 1,
          depth := (issuing s c).rets.length }
      else { second := true, first := tgt, last := tgt + cnt - 1, rejoin := (issuing s c).pc + len + 1, depth := (issuing s c).rets.length })
    (hcond : Readable (issuing s c) 0 cond (issuing s c).cyc) (hlen : 1 ≤ len) (hlen' : len ≤ 1024) (hend : (issuing s c).pc + len ≤ 1535)
    (hcnt : 1 ≤ cnt) (hcnt' : cnt ≤ 1024) (htgt : tgt + cnt ≤ 1536)
    (houter : leaveArms (issuing s c).pc arm.first .other false (issuing s c).rets.length (issuing s c).arms = .ok outer)
    (hk : LeavesFor { issuing s c with arms := arm :: outer } arm.first (if (issuing s c).sreg cond = 0 then .fall else .other) k') :
    exec (.brb c cond len tgt cnt) s = .next (issued s c k') := by
  have hform : brbForm len tgt cnt (issuing s c) false = .ok () := by
    have hw : ¬ lastWord < (issuing s c).pc + len := Nat.not_lt.mpr hend
    have ht : ¬ (lastWord + 1 < tgt + cnt ∨ lastWord < tgt) := by unfold lastWord; omega
    have hl : ¬ (len = 0 ∨ 1024 < len) := by omega
    have hc : ¬ (cnt = 0 ∨ 1024 < cnt) := by omega
    simp [brbForm, hw, ht, hl, hc, pure, Except.pure]
  by_cases hz : (issuing s c).sreg cond = 0
  · rw [if_pos hz] at harm hk
    subst harm
    refine onCore_seqRun_plain (next := none) h hk hform ?_ (by dsimp only) (by simp)
    rw [Core.readS_ok hcond]
    simp only [bind, Except.bind, if_pos hz, houter]
    rfl
  · rw [if_neg hz] at harm hk
    subst harm
    refine onCore_seqRun_plain (next := some tgt) h hk hform ?_ (by dsimp only) rfl
    rw [Core.readS_ok hcond]
    simp only [bind, Except.bind, if_neg hz, houter]
    rfl
end

/-- Settles O2: each passes its form, and leaves its word as it says. -/
theorem controlInstructionsTransfer : Obligations.ControlInstructionsTransfer := by
  refine ⟨fun s c len cnt tgt cond k' h => ⟨?_, ?_, ?_, ?_, ?_, ?_, ?_⟩, ?_⟩
  · exact fun hk => onCore_seqRun_falls h hk rfl rfl (by dsimp only)
  · exact fun hk => onCore_seqRun_falls h hk rfl rfl (by dsimp only)
  · exact exec_loop h
  · exact fun ht hk => onCore_seqRun_plain (next := some tgt) h hk (targetForm_ok ht) rfl rfl rfl
  · exact exec_call h
  · exact fun r rs => exec_ret h
  · exact exec_skip h
  · exact fun s c len tgt cnt cond outer k' h => exec_brb h rfl

end Sys2Proof.Machine
end

section
/-! PROOFS. What bringing a core to a cycle does (R78, R128): to the core, as a function of the core alone, and to the rest of the package. -/

namespace Sys2Proof.Machine

open Sys2Proof

/-! ### The core -/

/-- The core without its writes to cellars and to the Hatch that have taken place by cycle `t`. -/
def Core.sentDevice (k : Core) (t : Nat) : Core :=
  if ((k.pend.filter (fun p => decide (p.ready ≤ t))).flatMap (fun p => p.writes.filter MemWrite.isDevice)).isEmpty then k
  else { k with pend := k.pend.map (fun p => if p.ready ≤ t then { p with writes := p.writes.filter (fun w => !w.isDevice) } else p) }

/-- The core as it is at cycle `t`: its writes and flag actions up to there are done, and a double set halts it. -/
def Core.settled (k : Core) (t : Nat) : Core :=
  let (k', es) := ((k.sentDevice t).settleMem t).settleFlags t
  if es.isEmpty then k' else { k' with halted := true }

/-- The parts of the package that bringing a core to a cycle changes. -/
def SettlesFrom (s t : State) : Prop :=
  ∃ cores land cellar hatch freeze stats, t = { s with cores := cores, land := land, cellar := cellar, hatch := hatch, freeze := freeze, stats := stats }

theorem SettlesFrom.refl (s : State) : SettlesFrom s s := ⟨_, _, _, _, _, _, rfl⟩

theorem SettlesFrom.trans {s t u : State} (h : SettlesFrom s t) (h' : SettlesFrom t u) : SettlesFrom s u := by
  obtain ⟨_, _, _, _, _, _, rfl⟩ := h
  obtain ⟨_, _, _, _, _, _, rfl⟩ := h'
  exact ⟨_, _, _, _, _, _, rfl⟩

/-- A write of a cellar or of the Hatch changes these alone. -/
theorem applyDevice_eq (s : State) (w : MemWrite) : ∃ cellar hatch, s.applyDevice w = { s with cellar := cellar, hatch := hatch } := by
  unfold State.applyDevice
  split
  · obtain ⟨b, e, h, -⟩ := State.cellarWrite_eq w.bytes s w.addr
    exact ⟨_, _, h⟩
  · exact ⟨_, _, rfl⟩
  · exact ⟨_, _, rfl⟩

theorem core_applyDevice (s : State) (w : MemWrite) (c : Nat) : (s.applyDevice w).core c = s.core c := by
  obtain ⟨_, _, h⟩ := applyDevice_eq s w
  rw [h]
  rfl

theorem core_emptyBuffer (s : State) (c f c' : Nat) : (s.emptyBuffer c f).core c' = s.core c' := by
  unfold State.emptyBuffer
  split <;> rfl

theorem core_raiseCore (s : State) (c unit pc cycle : Nat) (f : FaultRec) (c' : Nat) :
    (raiseCore s c unit pc cycle f).core c' = if c = c' then { s.core c with halted := true } else s.core c' := State.core_setCore s c c' _

/-- A fold whose steps leave core `c` leaves core `c`. -/
theorem core_foldl {β : Type} {c : Nat} (f : State → β → State) (hf : ∀ s b, (f s b).core c = s.core c) (l : List β) (s : State) :
    (l.foldl f s).core c = s.core c :=
  foldl_keeps (P := fun m => m.core c = s.core c) f (fun m b hm => (hf m b).trans hm) l rfl

/-- Faults of core `c` halt it. -/
theorem core_foldl_raiseCore {β : Type} {c : Nat} (g : β → Nat × Nat × Nat × FaultRec) (l : List β) (s : State) :
    (l.foldl (fun m e => raiseCore m c (g e).1 (g e).2.1 (g e).2.2.1 (g e).2.2.2) s).core c =
      if l.isEmpty then s.core c else { s.core c with halted := true } := by
  induction l generalizing s with
  | nil => rfl
  | cons e l ih =>
    rw [List.foldl_cons, ih, core_raiseCore, if_pos rfl]
    cases l <;> rfl

theorem core_settleDevice (s : State) (c t : Nat) : (settleDevice s c t).core c = (s.core c).sentDevice t := by
  unfold settleDevice Core.sentDevice
  dsimp only
  split
  · rfl
  · rw [core_foldl _ (fun m w => core_applyDevice m w c), State.core_setCore_self]

/-- The core at a cycle depends on the core alone. -/
theorem core_settle (s : State) (c t : Nat) : (settle s c t).core c = (s.core c).settled t := by
  unfold settle Core.settled
  dsimp only
  rw [core_foldl_raiseCore (fun e : Pending × FaultRec => (e.1.unit, e.1.pc, e.1.ready, e.2)), State.core_setCore_self,
    core_foldl _ (fun m f => core_emptyBuffer m c f c), core_settleDevice]

/-! ### The rest of the package -/

theorem settlesFrom_foldl {β : Type} {f : State → β → State} {s t : State} (h : SettlesFrom s t) (hf : ∀ m b, SettlesFrom m (f m b)) (l : List β) :
    SettlesFrom s (l.foldl f t) :=
  foldl_keeps (P := SettlesFrom s) f (fun m b hm => hm.trans (hf m b)) l h

theorem settlesFrom_applyDevice (s : State) (w : MemWrite) : SettlesFrom s (s.applyDevice w) := by
  obtain ⟨_, _, h⟩ := applyDevice_eq s w
  exact ⟨_, _, _, _, _, _, h⟩

theorem settlesFrom_settleDevice (s : State) (c t : Nat) : SettlesFrom s (settleDevice s c t) := by
  unfold settleDevice
  dsimp only
  split
  · exact .refl s
  · exact settlesFrom_foldl ⟨_, _, _, _, _, _, rfl⟩ settlesFrom_applyDevice _

theorem settlesFrom_emptyBuffer (s : State) (c f : Nat) : SettlesFrom s (s.emptyBuffer c f) := by
  unfold State.emptyBuffer
  split
  · exact ⟨_, _, _, _, _, _, rfl⟩
  · exact .refl s

/-- Bringing a core to a cycle changes cores, landing buffers, memories, the freeze network and counters only. -/
theorem settlesFrom_settle (s : State) (c t : Nat) : SettlesFrom s (settle s c t) := by
  unfold settle
  dsimp only
  have hclears := settlesFrom_foldl (settlesFrom_settleDevice s c t) (fun m f => settlesFrom_emptyBuffer m c f)
    ((((settleDevice s c t).core c).pend.filter fun p => decide (p.ready ≤ t)).filterMap (·.clearArrival))
  exact settlesFrom_foldl (hclears.trans ⟨_, _, _, _, _, _, rfl⟩) (fun m e => ⟨_, _, _, _, _, _, rfl⟩) _

@[simp] theorem settle_frame (s : State) (c t : Nat) : (settle s c t).frame = s.frame := by
  obtain ⟨_, _, _, _, _, _, h⟩ := settlesFrom_settle s c t
  rw [h]

@[simp] theorem settle_contexts (s : State) (c t : Nat) : (settle s c t).contexts = s.contexts := by
  obtain ⟨_, _, _, _, _, _, h⟩ := settlesFrom_settle s c t
  rw [h]

@[simp] theorem settle_fabric (s : State) (c t : Nat) : (settle s c t).fabric = s.fabric := by
  obtain ⟨_, _, _, _, _, _, h⟩ := settlesFrom_settle s c t
  rw [h]

end Sys2Proof.Machine
end

section
/-! PROOFS. Context, tile, predicate and flag instructions of the sequencer (R78 to R81, R97, R122, R125), and the freeze requests of a wait (R34). -/

namespace Sys2Proof.Machine

open Sys2Proof

/-! ### Generator contexts (R125) -/

/-- An instruction that falls through and replaces a generator context, with its uses of banks. -/
theorem onCore_seqRun_context {s : State} {c n : Nat} {k k' k'' : Core} {g : GenCtx} {us : List (BankUse × Nat)} {form : Core → Bool → Res Unit}
    {run : State → Core → Res SeqEff} (h : Issues s c) (hk : Falls k k') (hf : form (issuing s c) false = .ok ())
    (hr : run (atIssue s c) (issuing s c) = .ok { core := k, uses := us, ctx := some (n, g) }) (hpc : k.pc = (issuing s c).pc)
    (hu : k'.logUses us = (k'', none)) : onCore c s (fun s => seqRun c s form run) = .next (withContext (issued s c k'') n g) := by
  have hadv : k.advance (issuing s c).pc ((issuing s c).pc + 1) .fall = .ok k' := hpc ▸ hk
  rw [onCore_next _ _ h.exists_, seqRun_issues h hf hr]
  unfold applySeq
  simp only [Option.getD_none, hadv, hu, raiseUse, withContext, issued, State.setCore_contexts]

theorem ownerForm_ok {imm : Word} {k : Core} {b : Bool} (h : k.owner = true) : ownerForm imm k b = .ok () := if_pos h

section
variable {s : State} {c : Nat} {ra : Fin 32} {bankm : Byte} {imm : Word} {k' : Core} (h : Issues s c) (hown : (issuing s c).owner = true)
  (hra : Readable (issuing s c) 0 ra (issuing s c).cyc)
include h hown hra

theorem exec_gload (he : (issuing s c).cyc + 3 < (atIssue s c).frame.e) (ha : WordAccess ((issuing s c).sreg ra).toNat 32 (ra ≠ 0) bankm)
    (hb : BankFree (issuing s c) (((issuing s c).sreg ra).toNat / 32 % 8) ((issuing s c).cyc + 1)) (hk : Falls (issuing s c) k') :
    exec (.gload c ra bankm imm) s =
      .next (withContext (issued s c (withUse k' ((issuing s c).sreg ra).toNat ((issuing s c).cyc + 1) (issuing s c).pc)) (ctxKey c (imm.toNat % 16))
        { seed := BitVec.ofNat 128 (ofLe (((issuing s c).load .shelf ((issuing s c).sreg ra).toNat 24 ((issuing s c).cyc + 1)).take 16)),
          step := BitVec.ofNat 64 (ofLe (((issuing s c).load .shelf ((issuing s c).sreg ra).toNat 24 ((issuing s c).cyc + 1)).drop 16)),
          ready := (issuing s c).cyc + 3 }) := by
  have hfree : BankFree k' (((issuing s c).sreg ra).toNat / 32 % 8) ((issuing s c).cyc + 1) := by
    unfold BankFree at hb ⊢
    rwa [Core.uses_advance hk]
  refine onCore_seqRun_context h hk (ownerForm_ok hown) ?_ rfl (Core.logUses_seqUse (issuing s c) hfree)
  simp only [Core.readS_ok hra, chkSpill_of_lt _ he, chkWordAccess_ok ha, bind, Except.bind]
  rfl

theorem exec_gstep (he : (issuing s c).cyc + 2 < (atIssue s c).frame.e) (hk : Falls (issuing s c) k') :
    exec (.gstep c ra imm) s =
      .next (withContext (issued s c k') (ctxKey c (imm.toNat % 16))
        { spGet {} (atIssue s c).contexts (ctxKey c (imm.toNat % 16)) with
          step := (spGet {} (atIssue s c).contexts (ctxKey c (imm.toNat % 16))).step + ((issuing s c).sreg ra).setWidth 64,
          ready := (issuing s c).cyc + 2 }) := by
  refine onCore_seqRun_context (us := []) h hk (ownerForm_ok hown) ?_ rfl rfl
  simp only [Core.readS_ok hra, chkSpill_of_lt _ he, bind, Except.bind]
  rfl
end

theorem exec_tget {s : State} {c : Nat} {rd : Fin 32} {imm : Word} {k' : Core} (h : Issues s c)
    (ht : Readable (issuing s c) 3 (imm.toNat % 4) (issuing s c).cyc) (hrd : Writable (atIssue s c) (issuing s c) 0 rd ((issuing s c).cyc + 2))
    (hk : Falls (withScalar (issuing s c) rd ((issuing s c).tile (imm.toNat % 4)).control 2) k') :
    exec (.tget c rd imm) s = .next (issued s c k') :=
  onCore_writesScalar h hrd (by rw [Core.readT_ok ht]; rfl) hk

theorem exec_pset {s : State} {c : Nat} {rd ra : Fin 32} {k' : Core} (h : Issues s c) (hra : Readable (issuing s c) 0 ra (issuing s c).cyc)
    (hrd : Writable (atIssue s c) (issuing s c) 2 (rd.val % 8) ((issuing s c).cyc + 1))
    (hk : Falls (((issuing s c).setPreg (rd.val % 8) (((issuing s c).sreg ra).setWidth 16)).setTag 2 (rd.val % 8) ((issuing s c).cyc + 1) 0
      (issuing s c).pc) k') : exec (.pset c rd ra) s = .next (issued s c k') := by
  refine onCore_seqRun_falls h hk rfl ?_ (by simp)
  simp only [Core.readS_ok hra, Core.chkWrite_ok hrd, chkSpill_ok _ hrd, bind, Except.bind]
  rfl

/-- Settles O4. -/
theorem tilePredicateAndContextInstructions : Obligations.TilePredicateAndContextInstructions :=
  ⟨fun _ _ _ _ _ _ h hown hra he ha hb hk => exec_gload h hown hra he ha hb hk, fun _ _ _ _ _ _ h =>
    ⟨fun ht hrd hk => exec_tget h ht hrd hk, fun hra hrd hk => exec_pset h hra hrd hk, fun hra hown he hk => exec_gstep h hown hra he hk⟩⟩

/-! ### Flags (R78 to R81) -/

/-- An instruction that puts an action in flight and falls through. -/
theorem onCore_seqRun_pending {s : State} {c : Nat} {p : Pending} {k' : Core} {run : State → Core → Res SeqEff} (h : Issues s c)
    (hk : Falls (withPending (issuing s c) p) k') (hr : run (atIssue s c) (issuing s c) = .ok { core := withPending (issuing s c) p }) :
    onCore c s (fun s => seqRun c s noForm run) = .next (issued s c k') :=
  onCore_seqRun_falls h hk rfl hr (by simp only [withPending])

theorem exec_setf {s : State} {c : Nat} {imm : Word} {k' : Core} (h : Issues s c) (he : (issuing s c).cyc + 1 < (atIssue s c).frame.e)
    (hk : Falls (withPending (issuing s c) { unit := 0, pc := (issuing s c).pc, ready := (issuing s c).cyc + 1, flag := some (imm.toNat % 64) }) k') :
    exec (.setf c imm) s = .next (issued s c k') := by
  refine onCore_seqRun_pending h hk ?_
  simp only [chkSpill_of_lt _ he, bind, Except.bind]
  rfl

theorem exec_chka {s : State} {c : Nat} {imm : Word} {k' : Core} (h : Issues s c) (harr : (issuing s c).arrived (imm.toNat % 64) = true)
    (hk : Falls (issuing s c) k') : exec (.chka c imm) s = .next (issued s c k') :=
  onCore_seqRun_falls h hk rfl (by simp only [harr, if_true]) rfl

/-- A wait that is taken back leaves the core as it was, but for the wait. -/
@[simp] theorem core_unwaited (s : State) (c : Nat) : (unwaited s c).core c = { s.core c with waitFlag := none } := State.core_setCore_self s c _

@[simp] theorem canIssue_unwaited (s : State) (c : Nat) : (unwaited s c).canIssue c = s.canIssue c := by
  unfold State.canIssue
  rw [core_unwaited]
  rfl

theorem bit_six (n : Nat) : bit n 6 = decide (n / 64 % 2 = 1) := rfl

/-- What `WAITF` does with a wait that has found its flag set. -/
def waited (f : Nat) (imm : Word) (k : Core) : Core := if k.flagSeen f k.cyc && bit imm.toNat 6 then k.clearFlag f else k

/-- `WAITF` looks at its flag anew, and waits where it is clear and nothing else stops the instruction. -/
theorem exec_waitf_eq {s : State} {c : Nat} {imm : Word} (hc : c < 81920) (hcan : s.canIssue c = true)
    (hwait : (s.core c).waitFlag = none ∨ (s.core c).waitFlag = some (imm.toNat % 64)) :
    exec (.waitf c imm) s = .next (
      if (issuing (unwaited s c) c).halted || decide (0 < (issuing (unwaited s c) c).skip) ||
          (issuing (unwaited s c) c).flagSeen (imm.toNat % 64) (issuing (unwaited s c) c).cyc || decide (lastWord < (issuing (unwaited s c) c).pc) ||
          decide ((issuing (unwaited s c) c).cyc < ((issuing (unwaited s c) c).tag 6 ((issuing (unwaited s c) c).pc / 96)).ready) then
        seqRun c (unwaited s c) noForm fun _ k => .ok { core := waited (imm.toNat % 64) imm k }
      else requestFreeze ((atIssue (unwaited s c) c).setCore c { issuing (unwaited s c) c with waitFlag := some (imm.toNat % 64) }) c 0 false
        (imm.toNat % 64) (issuing (unwaited s c) c).cyc (issuing (unwaited s c) c).pc) := by
  have hskip : (!s.canIssue c || ((s.core c).waitFlag.isSome && (s.core c).waitFlag != some (imm.toNat % 64))) = false := by
    rcases hwait with h | h <;> simp [hcan, h]
  have hcyc : (issuing (unwaited s c) c).cyc = (s.core c).cyc := by rw [issuing_cyc, core_unwaited]
  have hat : settle (unwaited s c) c (s.core c).cyc = atIssue (unwaited s c) c := by rw [atIssue, core_unwaited]
  rw [hcyc]
  change execWaitf c imm s = _
  unfold execWaitf
  rw [onCore_next _ _ hc]
  simp only [hskip, Bool.false_eq_true, if_false]
  rw [← unwaited, hat]
  rfl

/-- `WAITF` whose flag was set in an earlier cycle goes on, and clears it where asked. -/
theorem exec_waitf_set {s : State} {c : Nat} {imm : Word} {k' : Core} (h : Issues (unwaited s c) c)
    (hwait : (s.core c).waitFlag = none ∨ (s.core c).waitFlag = some (imm.toNat % 64))
    (hset : (issuing (unwaited s c) c).flagSeen (imm.toNat % 64) (issuing (unwaited s c) c).cyc = true)
    (hk : Falls (if imm.toNat / 64 % 2 = 1 then (issuing (unwaited s c) c).clearFlag (imm.toNat % 64) else issuing (unwaited s c) c) k') :
    exec (.waitf c imm) s = .next (issued (unwaited s c) c k') := by
  have hcan : s.canIssue c = true := by rw [← canIssue_unwaited]; exact h.can
  rw [exec_waitf_eq h.exists_ hcan hwait, if_pos (by simp [hset]), ← onCore_next _ (fun s => seqRun c s noForm _) h.exists_]
  refine onCore_seqRun_falls h hk rfl ?_ (by split <;> simp)
  simp only [waited, hset, bit_six, Bool.true_and, decide_eq_true_eq]

/-- Settles O5. -/
theorem flagInstructionsComplete : Obligations.FlagInstructionsComplete := by
  refine fun s c imm k' => ⟨fun h => ⟨exec_setf h, fun hk => ?_, fun hk => ?_, exec_chka h⟩, exec_waitf_set⟩
  · exact onCore_seqRun_pending h hk rfl
  · exact onCore_seqRun_pending h hk rfl

/-! ### Freeze requests (R34, R79) -/

/-- A first request with no freeze before it holds the package twelve cycles later, and leaves every core. -/
theorem requestFreeze_first {s : State} (c unit : Nat) (arrival : Bool) (f t pc : Nat) (hreqs : s.freeze.reqs = []) (hheld : s.freeze.held = none) :
    ∃ u, requestFreeze s c unit arrival f t pc = u ∧ u.freeze.held = some (t + 12) ∧
      u.freeze.reqs = [{ core := c, unit, arrival, flag := f, cycle := t, pc }] ∧ ∀ c', u.core c' = s.core c' := by
  unfold requestFreeze
  rw [hreqs, hheld]
  exact ⟨_, rfl, rfl, rfl, fun _ => rfl⟩

/-- The first request of a sequencer leaves its core as it is put. -/
theorem requestFreeze_setCore {s : State} (c f t pc : Nat) (k : Core) (hreqs : s.freeze.reqs = []) (hheld : s.freeze.held = none) :
    ∃ u, requestFreeze (s.setCore c k) c 0 false f t pc = u ∧ u.freeze.held = some (t + 12) ∧ u.core c = k ∧
      u.freeze.reqs = [{ core := c, unit := 0, arrival := false, flag := f, cycle := t, pc }] := by
  obtain ⟨u, hu, hheld', hreqs', hcore⟩ := requestFreeze_first (s := s.setCore c k) c 0 false f t pc hreqs hheld
  exact ⟨u, hu, hheld', (hcore c).trans (State.core_setCore_self s c k), hreqs'⟩

/-- A core that waits for no flag is brought to its cycle alike, whether or not its wait is taken back. -/
theorem issuing_unwaited {s : State} {c : Nat} (h : (s.core c).waitFlag = none) : issuing (unwaited s c) c = issuing s c := by
  have hcore : (unwaited s c).core c = s.core c := by
    rw [core_unwaited, ← h]
  unfold issuing atIssue
  rw [core_settle, core_settle, hcore]

theorem exec_waitf_clear {s : State} {c : Nat} {imm : Word} (h : Issues s c)
    (hclear : (issuing (unwaited s c) c).flagSeen (imm.toNat % 64) (issuing (unwaited s c) c).cyc = false)
    (hreqs : (atIssue (unwaited s c) c).freeze.reqs = []) (hheld : (atIssue (unwaited s c) c).freeze.held = none) :
    ∃ t, exec (.waitf c imm) s = .next t ∧ t.freeze.held = some ((issuing (unwaited s c) c).cyc + 12) ∧
      (t.core c).pc = (issuing (unwaited s c) c).pc ∧ (t.core c).cyc = (issuing (unwaited s c) c).cyc ∧
      (t.core c).waitFlag = some (imm.toNat % 64) ∧ t.freeze.reqs =
        [{ core := c, unit := 0, arrival := false, flag := imm.toNat % 64, cycle := (issuing (unwaited s c) c).cyc,
           pc := (issuing (unwaited s c) c).pc }] := by
  obtain ⟨u, hu, huheld, hcore, hureqs⟩ := requestFreeze_setCore c (imm.toNat % 64) (issuing (unwaited s c) c).cyc (issuing (unwaited s c) c).pc
    { issuing (unwaited s c) c with waitFlag := some (imm.toNat % 64) } hreqs hheld
  have hk := issuing_unwaited h.noWait
  have hword : ¬ lastWord < (issuing s c).pc := Nat.not_lt.mpr h.word
  have hpage := Nat.not_lt.mpr h.page
  refine ⟨u, (exec_waitf_eq h.exists_ h.can (.inl h.noWait)).trans (congrArg _ ((if_neg ?_).trans hu)), huheld, ?_, ?_, ?_, hureqs⟩
  · rw [hclear, hk]
    simp [h.alive, h.unskipped, hword, hpage]
  · simp only [hcore]
  · simp only [hcore]
  · simp only [hcore]

/-- Nothing stops an engine of a core in use from looking at its queue (R56, R85). -/
theorem dispatch_goes {s : State} {c d : Nat} {e : Engine} (hruns : s.cycling = true) (hsec : (s.core c).section_ = true)
    (halive : (s.core c).halted = false) (hcur : ((s.core c).eng e).cur = none) (hd : d < s.heldFrom) :
    ¬ (!s.cycling || !(s.core c).section_ || (s.core c).halted || ((s.core c).eng e).cur.isSome || decide (s.heldFrom ≤ d)) = true := by
  simp [hruns, hsec, halive, hcur, hd]

/-- An engine whose next command waits on a clear flag raises a request in its dispatch cycle. -/
theorem exec_engineDispatch_waits {s : State} {c : Nat} {e : Engine} {q : QEntry} {rest : List QEntry} (hc : c < 81920) (hruns : s.cycling = true)
    (hsec : (s.core c).section_ = true) (halive : (s.core c).halted = false) (hqueue : ((s.core c).eng e).queue = q :: rest)
    (hcur : ((s.core c).eng e).cur = none) (hd : ((s.core c).eng e).headCycle q < s.heldFrom)
    (halive1 : ((settle s c (((s.core c).eng e).headCycle q)).core c).halted = false) (hwen : q.desc.wen = true)
    (hclear : ((settle s c (((s.core c).eng e).headCycle q)).core c).flagSeen q.desc.wflag (((s.core c).eng e).headCycle q) = false) :
    exec (.engineDispatch c e) s = .next (requestFreeze (settle s c (((s.core c).eng e).headCycle q)) c (unitOf e) false q.desc.wflag
      (((s.core c).eng e).headCycle q) q.pc) := by
  change execEngineDispatch c e s = _
  unfold execEngineDispatch
  rw [onCore_next _ _ hc]
  simp only [hqueue, if_neg (dispatch_goes hruns hsec halive hcur hd), halive1, hwen, hclear, Bool.false_eq_true, if_false, Bool.not_false,
    Bool.and_self, if_true]

/-- Settles O6. -/
theorem clearFlagsRaiseFreezeRequests : Obligations.ClearFlagsRaiseFreezeRequests := by
  refine ⟨fun s c imm h hclear hreqs hheld => exec_waitf_clear h hclear hreqs hheld, ?_⟩
  intro s c e q rest hc hruns hsec halive hqueue hcur d s1 hd halive1 hwen hclear hreqs hheld
  obtain ⟨u, hu, hheld', hreqs', hcore⟩ := requestFreeze_first c (unitOf e) false q.desc.wflag d q.pc hreqs hheld
  exact ⟨u, (exec_engineDispatch_waits hc hruns hsec halive hqueue hcur hd halive1 hwen hclear).trans (congrArg _ hu), hheld', hcore c, hreqs'⟩

end Sys2Proof.Machine
end

section
/-! PROOFS. The queues of the engines: enqueue, dispatch, flag actions and completion (R56 to R58, R78, R128). -/

namespace Sys2Proof.Machine

open Sys2Proof

/-! ### Enqueue (R57, R58) -/

/-- The registers of the command are ready, so it enters its queue. -/
theorem enqueue_ok {c daddr : Nat} {k : Core} (h : Enqueues c k daddr) : enqueue k daddr false = .ok (withCommand k daddr) := by
  obtain ⟨-, -, hscalars, hpred⟩ := h
  have hread : checkAll (fun n => k.chkRead 0 n k.cyc) (scalarSources (k.descAt daddr)) = .ok () :=
    checkAll_ok fun n hn => Core.chkRead_ok (hscalars n hn)
  unfold enqueue
  by_cases hp : usesPred (k.descAt daddr) = true
  · simp only [Bool.not_false, if_true, hread, hp, Core.chkRead_ok (hpred hp), bind, Except.bind]
    rfl
  · simp only [Bool.not_false, if_true, hread, hp, bind, Except.bind]
    rfl

/-- The core that issues an enqueue issues the null skip of its own. -/
theorem withCommand_unskipped {k : Core} {daddr : Nat} (h : k.skip = 0) :
    { withCommand k daddr with skip := (withCommand k daddr).skip - 1 } = withCommand k daddr := by
  have hs : (withCommand k daddr).skip = 0 := by
    rw [withCommand, Core.setEng_eq]
    exact h
  generalize withCommand k daddr = k' at hs ⊢
  cases k'
  simp_all

/-- A core that may issue and is not in the range of a `SKIP`, and an enqueue whose checks pass: the command enters its queue, or the sequencer stalls
on a full one. -/
theorem enqCore_of_checks {s s1 : State} {c daddr : Nat} {k : Core} (hcan : s.canIssue c = true) (hwait : (s.core c).waitFlag = none)
    (hs1 : settle s c k.cyc = s1) (hk : s1.core c = k) (hcyc : (s.core c).cyc = k.cyc) (halive : k.halted = false) (hword : k.pc ≤ 1535)
    (hpage : (k.tag 6 (k.pc / 96)).ready ≤ k.cyc) (hskip : k.skip = 0) (he : Enqueues c k daddr) :
    enqCore c daddr s = if (k.eng (engineOf (k.descAt daddr).eng)).full k.cyc = true then s1.setCore c { k with stalled := some daddr }
      else applySeq s1 c k { core := withCommand k daddr } := by
  obtain ⟨hform, hdesc, -⟩ := id he
  have hword' : ¬ lastWord < k.pc := Nat.not_lt.mpr hword
  unfold enqCore
  rw [if_neg (by simp [hcan, hwait])]
  simp only [hcyc, hs1, hk, halive, Bool.false_eq_true, if_false, if_neg hword', hskip, lt_irrefl, decide_false, hform, Core.chkPage_ok hpage,
    Core.chkPage_ok hdesc, bind, Except.bind, enqueue_ok he]
  rw [withCommand_unskipped hskip]

theorem enqCore_eq {s : State} {c daddr : Nat} (h : Issues s c) (he : Enqueues c (issuing s c) daddr) :
    enqCore c daddr s =
      if ((issuing s c).eng (engineOf ((issuing s c).descAt daddr).eng)).full (issuing s c).cyc = true then
        (atIssue s c).setCore c { issuing s c with stalled := some daddr }
      else applySeq (atIssue s c) c (issuing s c) { core := withCommand (issuing s c) daddr } :=
  enqCore_of_checks h.can h.noWait (by rw [issuing_cyc]; rfl) rfl (issuing_cyc s c).symm h.alive h.word h.page h.unskipped he

/-- An enqueue with room in the queue puts its command at the end. -/
theorem enqCore_room {s : State} {c daddr : Nat} {k' : Core} (h : Issues s c) (he : Enqueues c (issuing s c) daddr)
    (hroom : ((issuing s c).eng (engineOf ((issuing s c).descAt daddr).eng)).full (issuing s c).cyc = false)
    (hk : Falls (withCommand (issuing s c) daddr) k') : enqCore c daddr s = issued s c k' := by
  have hpc : (withCommand (issuing s c) daddr).pc = (issuing s c).pc := by
    rw [withCommand, Core.setEng_eq]
  rw [enqCore_eq h he, if_neg (by simp [hroom])]
  refine applySeq_plain rfl rfl rfl ?_
  have hadv : (withCommand (issuing s c) daddr).advance (withCommand (issuing s c) daddr).pc ((withCommand (issuing s c) daddr).pc + 1) .fall = .ok k' := hk
  rwa [hpc] at hadv

/-- A stalled enqueue is tried again once its queue has a free entry. -/
theorem exec_enqueueAfterStall_eq {s : State} {c daddr : Nat} (hc : c < 81920) (hst : (s.core c).stalled = some daddr)
    (halive : (s.core c).halted = false) (hroom : ((s.core c).eng (engineOf ((s.core c).descAt daddr).eng)).queue.length < 8)
    (hcan : (retried s c daddr).canIssue c = true) : exec (.enqueueAfterStall c) s = .next (enqCore c daddr (retried s c daddr)) := by
  have hheld : ¬ s.heldFrom ≤ Nat.max (s.core c).cyc (((s.core c).eng (engineOf ((s.core c).descAt daddr).eng)).freedAt + 1) := by
    unfold State.canIssue at hcan
    have hcore : ((retried s c daddr).core c).cyc =
        Nat.max (s.core c).cyc (((s.core c).eng (engineOf ((s.core c).descAt daddr).eng)).freedAt + 1) :=
      congrArg Core.cyc (State.core_setCore_self s c _)
    simp only [hcore, Bool.and_eq_true, decide_eq_true_eq] at hcan
    exact Nat.not_le.mpr hcan.2
  change execEnqueueAfterStall c s = _
  unfold execEnqueueAfterStall
  rw [onCore_next _ _ hc]
  simp only [hst]
  rw [if_neg (by simp [halive, hroom]), if_neg hheld]
  rfl

/-- Settles O8. -/
theorem enqueuePutsCommandInQueue : Obligations.EnqueuePutsCommandInQueue := by
  refine fun s c daddr k' => ⟨fun h he => ⟨fun hroom hk => ?_, fun hfull => ?_⟩, fun hst halive hlen h he hroom hk => ?_⟩
  · exact (onCore_next _ _ h.exists_).trans (congrArg _ (enqCore_room h he hroom hk))
  · exact (onCore_next _ _ h.exists_).trans (congrArg _ ((enqCore_eq h he).trans (if_pos hfull)))
  · rw [exec_enqueueAfterStall_eq h.exists_ hst halive hlen h.can, enqCore_room h he hroom hk]

/-! ### Dispatch (R56, R82, R128) -/

/-- The command as its engine has taken it, with the tags of its destinations before. -/
def takenBy (k : Core) (q : QEntry) (d : Nat) (t : Timing) : InFlight := { q, d, old := t.tags.map fun g => (tagKey g.1 g.2.1, k.tag g.1 g.2.1) }

/-- Core `k` with the ready-cycle tags of a command. -/
def tagFor (k : Core) (e : Engine) (q : QEntry) (t : Timing) : Core := t.tags.foldl (fun m g => m.setTag g.1 g.2.1 g.2.2 (unitOf e) q.pc) k

/-- Core `k` once engine `e` has taken command `q` at cycle `d`: tags, the engine, and the flag due in the last ready cycle. -/
def dispatched (k : Core) (x : EngineState) (e : Engine) (q : QEntry) (rest : List QEntry) (d : Nat) (t : Timing) : Core :=
  let k3 := (tagFor k e q t).setEng e
    { x with queue := rest, occEnd := d + t.occ, freedAt := d, running := some (takenBy k q d t), cur := if q.null then none else some (takenBy k q d t) }
  { k3 with pend := k3.pend ++ [{ unit := unitOf e, pc := q.pc, ready := t.last, flag := if q.desc.sen then some q.desc.sflag else none }] }

theorem setTag_eq (k : Core) (kind n r unit pc : Nat) : ∃ tags, k.setTag kind n r unit pc = { k with tags := tags } := by
  unfold Core.setTag
  split <;> exact ⟨_, rfl⟩

/-- Recording tags changes the tags alone. -/
theorem tagFor_eq (k : Core) (e : Engine) (q : QEntry) (t : Timing) : ∃ tags, tagFor k e q t = { k with tags := tags } := by
  refine foldl_keeps (P := fun m => ∃ tags, m = { k with tags := tags }) _ ?_ t.tags (show ∃ tags, k = { k with tags := tags } from ⟨k.tags, rfl⟩)
  rintro _ g ⟨tags, rfl⟩
  obtain ⟨tags', h⟩ := setTag_eq { k with tags := tags } g.1 g.2.1 g.2.2 (unitOf e) q.pc
  exact ⟨tags', h⟩

theorem dispatched_eng (k : Core) (x : EngineState) (e : Engine) (q : QEntry) (rest : List QEntry) (d : Nat) (t : Timing) :
    (dispatched k x e q rest d t).eng e =
      { queue := rest, occEnd := d + t.occ, freedAt := d, running := some (takenBy k q d t), cur := if q.null then none else some (takenBy k q d t) } := by
  cases e <;> rfl

/-- A dispatch changes tags, engines and what is in flight, nothing else of the core. -/
theorem dispatched_eq (k : Core) (x : EngineState) (e : Engine) (q : QEntry) (rest : List QEntry) (d : Nat) (t : Timing) :
    ∃ mx vx sx nx, dispatched k x e q rest d t =
      { k with tags := (tagFor k e q t).tags, mx := mx, vx := vx, sx := sx, nx := nx,
               pend := k.pend ++ [{ unit := unitOf e, pc := q.pc, ready := t.last, flag := if q.desc.sen then some q.desc.sflag else none }] } := by
  obtain ⟨tags, h⟩ := tagFor_eq k e q t
  unfold dispatched
  rw [Core.setEng_eq, h]
  exact ⟨_, _, _, _, rfl⟩

/-- The core of a dispatch, however it is brought to its cycle. -/
theorem exec_engineDispatch_takes {s s1 : State} {c : Nat} {e : Engine} {q : QEntry} {rest : List QEntry} {k : Core} (h : Dispatches s c e q rest)
    (hs1 : settle s c (((s.core c).eng e).headCycle q) = s1) (hk : s1.core c = k)
    (hok : chkDispatch (atDispatch k q) s1.frame.e q (((s.core c).eng e).headCycle q) (timing s1 c q (((s.core c).eng e).headCycle q)) = .ok ()) :
    ∃ u, exec (.engineDispatch c e) s = .next u ∧ u.core c =
      dispatched (atDispatch k q) ((s.core c).eng e) e q rest (((s.core c).eng e).headCycle q) (timing s1 c q (((s.core c).eng e).headCycle q)) := by
  have halive : k.halted = false := by rw [← hk, ← hs1]; exact h.alive2
  have hflag : ¬ (q.desc.wen && !k.flagSeen q.desc.wflag (((s.core c).eng e).headCycle q)) = true := by
    have := h.flag
    rw [hs1, hk] at this
    cases hw : q.desc.wen <;> simp_all
  have hclr : (if (q.desc.wen && q.desc.wclr) = true then k.clearFlag q.desc.wflag else k) = atDispatch k q := by
    simp only [Bool.and_eq_true]
    rfl
  have hframe : s.frame.e = s1.frame.e := by rw [← hs1, settle_frame]
  change ∃ u, execEngineDispatch c e s = .next u ∧ _
  unfold execEngineDispatch
  rw [onCore_next _ _ h.exists_]
  simp only [h.queue, if_neg (dispatch_goes h.runs h.used h.alive h.idle h.unheld), hs1, hk, halive, Bool.false_eq_true, if_false, if_neg hflag,
    hclr, hframe, hok]
  exact ⟨_, rfl, State.core_setCore_self s1 c _⟩

/-- Settles O9. -/
theorem dispatchTakesTheHeadOfTheQueue : Obligations.DispatchTakesTheHeadOfTheQueue := by
  intro s c e q rest h d s1 k t fl hok
  obtain ⟨u, hu, hcore⟩ := exec_engineDispatch_takes (s1 := s1) (k := s1.core c) h rfl rfl hok
  obtain ⟨mx, vx, sx, nx, heq⟩ := dispatched_eq k ((s.core c).eng e) e q rest d t
  have hcore' : u.core c = dispatched k ((s.core c).eng e) e q rest d t := hcore
  refine ⟨u, hu, ?_, ?_, ?_, ?_, ?_, ?_, ?_⟩
  · rw [hcore', dispatched_eng]
    rfl
  all_goals
    rw [hcore', heq]
  · rfl

/-! ### Flag actions and completion (R78, R128) -/

/-- A flag action of a clear flag sets it, in its ready cycle. -/
theorem flagAction_clear {k : Core} {p : Pending} {f : Nat} (hc : p.clearFlag = none) (hp : p.flag = some f) (hf : spGet false k.sflags f = false) :
    k.flagAction p = ({ k with sflags := spSet false k.sflags f true, sflagAt := spSet 0 k.sflagAt f p.ready }, none) := by
  simp [Core.flagAction, hc, hp, hf]

/-- A set of a flag that is set is a double set. -/
theorem flagAction_double {k : Core} {p : Pending} {f : Nat} (hc : p.clearFlag = none) (hp : p.flag = some f) (hf : spGet false k.sflags f = true) :
    k.flagAction p = (k, some (p, { reason := 0x0104, object := 0x4000 + f, detail := f })) := by
  simp [Core.flagAction, hc, hp, hf]

/-- The least element of a list, as the model folds it. -/
theorem foldl_min_eq {l : List Nat} {m : Nat} (hm : m ∈ l) (hle : ∀ n ∈ l, m ≤ n) : ∃ r rs, l = r :: rs ∧ rs.foldl Nat.min r = m := by
  have hmin : l.min? = some m := List.min?_eq_some_iff.mpr ⟨hm, hle⟩
  cases l with
  | nil => simp at hm
  | cons r rs =>
    rw [List.min?_cons'] at hmin
    exact ⟨r, rs, rfl, Option.some.inj hmin⟩

/-- A completion brings its core past the earliest ready cycle of the engine. -/
theorem exec_commandComplete_eq {s : State} {c : Nat} {e : Engine} {p : Pending} (hc : c < 81920) (hruns : s.cycling = true)
    (halive : (s.core c).halted = false) (hcur : ((s.core c).eng e).cur = none) (hp : p ∈ (s.core c).pend) (hunit : p.unit = unitOf e)
    (hsrc : p.src = none) (hheld : p.ready < s.heldFrom) (hleast : ∀ q ∈ (s.core c).pend, q.unit = unitOf e → q.src = none → p.ready ≤ q.ready) :
    exec (.commandComplete c e) s = .next ((settle s c (p.ready + 1)).setCore c (((settle s c (p.ready + 1)).core c).setEng e
      { ((settle s c (p.ready + 1)).core c).eng e with
        running := if ((settle s c (p.ready + 1)).core c).pend.any (fun q => q.unit == unitOf e && q.src.isNone) then
          (((settle s c (p.ready + 1)).core c).eng e).running else none })) := by
  obtain ⟨r, rs, hl, hmin⟩ := foldl_min_eq (l := ((s.core c).pend.filter fun q => q.unit == unitOf e && q.src.isNone).map (·.ready)) (m := p.ready)
    (List.mem_map.mpr ⟨p, by simp [hp, hunit, hsrc], rfl⟩) (by
      simp only [List.mem_map, List.mem_filter, Bool.and_eq_true, beq_iff_eq, Option.isNone_iff_eq_none]
      rintro _ ⟨q, ⟨hq, hu, hs⟩, rfl⟩
      exact hleast q hq hu hs)
  have hgo : ¬ (((s.core c).eng e).cur.isSome || (s.core c).halted || !s.cycling || decide (s.heldFrom ≤ p.ready)) = true := by
    simp [hcur, halive, hruns, hheld]
  change execCommandComplete c e s = _
  unfold execCommandComplete
  rw [onCore_next _ _ hc]
  simp only [hl, hmin, if_neg hgo]

/-- Settles O10. -/
theorem flagActionsAndCompletionsSettle : Obligations.FlagActionsAndCompletionsSettle := by
  refine ⟨fun k p f hc hp => ⟨fun hf => ⟨_, flagAction_clear hc hp hf, ?_⟩, fun hf => ⟨_, flagAction_double hc hp hf, rfl, rfl⟩⟩, ?_⟩
  · refine ⟨spGet_spSet_self false k.sflags f true, spGet_spSet_self 0 k.sflagAt f p.ready, fun g hg => ?_, rfl, rfl⟩
    exact spGet_spSet_ne false k.sflags true hg.symm
  · exact fun s c e p hc hruns halive hcur hp hunit hsrc hheld hleast =>
      exec_commandComplete_eq hc hruns halive hcur hp hunit hsrc hheld hleast

end Sys2Proof.Machine
end

section
/-! PROOFS. What a command leaves that its engine executes (R56, R85, R129), and the commands of VX that work on registers (R109 to R117, R533). -/

namespace Sys2Proof.Machine

open Sys2Proof

/-! ### The effect of a command -/

/-- A command that is executed and has an effect puts it into the package. -/
theorem onEngine_executes {s : State} {c : Nat} {e : Engine} {cop : Nat} {fl : InFlight} {f : State → Core → InFlight → CRes CmdEff} {g : CmdEff}
    (h : Executes s c e cop fl) (hf : f (begun s c e) (seen s c e fl) fl = .ok g) :
    onEngine c e cop s f = .next (applyCmd (begun s c e) c e fl { g with core := restoreTags fl ((begun s c e).core c) g.core }) := by
  have hcore : (begun s c e).core c = (s.core c).setEng e { (s.core c).eng e with cur := none } := State.core_setCore_self ..
  rw [seen, hcore] at hf
  rw [onEngine, onCore_next _ _ h.exists_, engRun_executes h hf, hcore]

/-- A command without banks, paths or effects elsewhere leaves its core. -/
theorem onEngine_plain {s : State} {c : Nat} {e : Engine} {cop : Nat} {fl : InFlight} {f : State → Core → InFlight → CRes CmdEff} {k : Core}
    (h : Executes s c e cop fl) (hf : f (begun s c e) (seen s c e fl) fl = .ok { core := k }) :
    onEngine c e cop s f = .next (executed s c e fl k) := by
  rw [onEngine_executes h hf, applyCmd_plain]
  rfl

/-! ### The region's generator (R117) -/

/-- The path of the generator is no link of a row, so it is held against every core. -/
theorem firstPathConflict_generator {s : State} {c : Nat} {fl : InFlight} (hc : c < 81920) (h : GeneratorFree s c fl) :
    firstPathConflict s c (generatorUse c fl) = none := by
  have hall : ∀ ps : List (Nat × Nat), (∀ p ∈ ps, p.2 = 0xB40 + c / 1280 ∧ ∀ v ∈ s.pathUses, ¬(v.cycle = p.1 ∧ v.resource = p.2)) →
      firstPathConflict s c ps = none := by
    intro ps hps
    induction ps with
    | nil => rfl
    | cons p ps ih =>
      obtain ⟨hres, hfree⟩ := hps p (by simp)
      have hlink : ¬ (p.2 = 0xC00 ∨ p.2 = 0xC01) := by omega
      have hnone : pathConflict s p.1 p.2 none = none := by
        rw [pathConflict, List.find?_eq_none]
        exact fun v hv => by simpa using hfree v hv
      rw [firstPathConflict, if_neg hlink, hnone]
      exact ih fun q hq => hps q (by simp [hq])
  refine hall _ fun p hp => ⟨?_, h p hp⟩
  obtain ⟨i, -, rfl⟩ := List.mem_map.mp hp
  rfl

/-- A command that leaves its core and occupies the generator, which is free. -/
theorem onEngine_generator {s : State} {c : Nat} {e : Engine} {cop : Nat} {fl : InFlight} {f : State → Core → InFlight → CRes CmdEff} {k : Core}
    (h : Executes s c e cop fl) (hfree : GeneratorFree s c fl)
    (hf : f (begun s c e) (seen s c e fl) fl = .ok { core := k, paths := generatorUse c fl }) :
    onEngine c e cop s f = .next (withPaths (executed s c e fl k) (generatorUses c e fl)) := by
  have hnone : firstPathConflict (begun s c e) c (generatorUse c fl) = none := firstPathConflict_generator h.exists_ hfree
  rw [onEngine_executes h hf, applyCmd]
  simp only [hnone, Core.logUses, List.append_nil, List.foldl_nil, logOther, raiseUse, id]
  rfl

/-- The context of a command whose ready cycle has come. -/
theorem useContext_ok {s : State} {c : Nat} {fl : InFlight} (h : (spGet {} s.contexts (c / 1280 * 16 + fl.q.desc.ctx)).ready ≤ fl.d + 1) :
    useContext s c fl = .ok (spGet {} s.contexts (c / 1280 * 16 + fl.q.desc.ctx)) := if_neg (Nat.not_lt.mpr h)

theorem useContext_begun_ok {s : State} {c : Nat} {fl : InFlight} (e : Engine)
    (h : (spGet {} s.contexts (c / 1280 * 16 + fl.q.desc.ctx)).ready ≤ fl.d + 1) :
    useContext (begun s c e) c fl = .ok (spGet {} s.contexts (c / 1280 * 16 + fl.q.desc.ctx)) := useContext_ok (s := begun s c e) h

/-! ### Sources and results (R129, R136) -/

theorem vsrc_ok {k : Core} {fl : InFlight} {n : Nat} (h : Readable k 1 n (fl.d + 1)) : vsrc k fl n = .ok (k.vreg n) := by
  rw [vsrc, Core.readV_ok h]
  rfl

theorem vecResult_ok {k : Core} {fl : InFlight} (w : Bool) (v : BitVec 256)
    (h : fl.q.desc.pred ≠ 0 → Readable k 1 fl.q.desc.vd (fl.d + 1)) :
    vecResult k fl w v = .ok (k.setVreg fl.q.desc.vd (merged k fl w v)) := by
  unfold vecResult merged
  by_cases hp : fl.q.desc.pred = 0
  · simp only [hp, if_true]
    rfl
  · simp only [hp, if_false, Core.readV_ok (h hp)]
    rfl

/-! ### Lanes (R533) -/

theorem packNat_lt (b : Nat) (xs : List Nat) : packNat b xs < 2 ^ (b * xs.length) := by
  induction xs with
  | nil => simp [packNat]
  | cons x xs ih =>
    have hx : x % 2 ^ b < 2 ^ b := Nat.mod_lt _ (by positivity)
    have hpow : 2 ^ (b * (xs.length + 1)) = 2 ^ b * 2 ^ (b * xs.length) := by rw [← pow_add]; ring_nf
    rw [packNat, List.length_cons, hpow]
    calc x % 2 ^ b + 2 ^ b * packNat b xs < 2 ^ b + 2 ^ b * packNat b xs := by omega
      _ = 2 ^ b * (packNat b xs + 1) := by ring
      _ ≤ 2 ^ b * 2 ^ (b * xs.length) := Nat.mul_le_mul_left _ ih

/-- An element of a packed number is the element, cut to its width. -/
theorem elemOf_packNat (b : Nat) (xs : List Nat) (i : Nat) : elemOf (packNat b xs) b i = xs.getD i 0 % 2 ^ b := by
  have hb : 0 < 2 ^ b := by positivity
  induction xs generalizing i with
  | nil => simp [packNat, elemOf]
  | cons x xs ih =>
    have hx : x % 2 ^ b < 2 ^ b := Nat.mod_lt _ hb
    cases i with
    | zero => simp [packNat, elemOf]
    | succ i =>
      have hpow : 2 ^ (b * (i + 1)) = 2 ^ b * 2 ^ (b * i) := by rw [← pow_add]; ring_nf
      have hdiv : (x % 2 ^ b + 2 ^ b * packNat b xs) / 2 ^ b = packNat b xs := by
        rw [Nat.add_mul_div_left _ _ hb, Nat.div_eq_of_lt hx, zero_add]
      rw [packNat, elemOf, hpow, ← Nat.div_div_eq_div_mul, hdiv, List.getD_cons_succ]
      exact ih i

/-- Lane values that fit their width are the lanes of the register that they are packed into. -/
theorem lanes_packVec {w : Bool} {xs : List Nat} (hlen : xs.length = laneCount w) (hfit : ∀ x ∈ xs, x < 2 ^ (if w then 32 else 16)) :
    lanes w (packVec w xs) = xs := by
  have h256 : (if w then 32 else 16) * xs.length = 256 := by rw [hlen]; cases w <;> rfl
  have hnat : (packVec w xs).toNat = packNat (if w then 32 else 16) xs := by
    have hlt := packNat_lt (if w then 32 else 16) xs
    rw [h256] at hlt
    rw [packVec, BitVec.toNat_ofNat, Nat.mod_eq_of_lt hlt]
  refine List.ext_getElem (by simp [lanes, hlen]) fun i hi hi' => ?_
  simp only [lanes, List.getElem_map, List.getElem_range, laneOf, hnat, elemOf_packNat]
  rw [List.getD_eq_getElem _ _ hi', Nat.mod_eq_of_lt (hfit _ (List.getElem_mem hi'))]

/-! ### Lane-wise commands -/

section
variable {fl : InFlight}

/-- Arithmetic of two sources, lane by lane. -/
theorem vecOp_two {k : Core} (f : Desc → Val → Val → Val → Val) (h : VxReady k fl [fl.q.desc.va, fl.q.desc.vb]) :
    vecOp f false k fl = .ok { core := k.setVreg fl.q.desc.vd (merged k fl (fl.q.desc.fmta == 0xA) (packVec (fl.q.desc.fmta == 0xA)
      ((List.range (laneCount (fl.q.desc.fmta == 0xA))).map fun i => encodeIeee fl.q.desc.fmta fl.q.desc.rnd false 0 (f fl.q.desc
        (decodeVal fl.q.desc.fmta (laneOf (fl.q.desc.fmta == 0xA) (k.vreg fl.q.desc.va) i))
        (decodeVal fl.q.desc.fmta (laneOf (fl.q.desc.fmta == 0xA) (k.vreg fl.q.desc.vb) i))
        (decodeVal fl.q.desc.fmta (laneOf (fl.q.desc.fmta == 0xA) 0 i)))))) } := by
  obtain ⟨hsrc, hdst⟩ := h
  unfold vecOp
  simp only [vsrc_ok (hsrc fl.q.desc.va (by simp)), vsrc_ok (hsrc fl.q.desc.vb (by simp)), vecResult_ok _ _ hdst, bind, Except.bind, pure,
    Except.pure, Bool.false_eq_true, if_false]

/-- Arithmetic with `VD` as its third source. -/
theorem vecOp_three {k : Core} (f : Desc → Val → Val → Val → Val) (h : VxReady k fl [fl.q.desc.va, fl.q.desc.vb, fl.q.desc.vd]) :
    vecOp f true k fl = .ok { core := k.setVreg fl.q.desc.vd (merged k fl (fl.q.desc.fmta == 0xA) (packVec (fl.q.desc.fmta == 0xA)
      ((List.range (laneCount (fl.q.desc.fmta == 0xA))).map fun i => encodeIeee fl.q.desc.fmta fl.q.desc.rnd false 0 (f fl.q.desc
        (decodeVal fl.q.desc.fmta (laneOf (fl.q.desc.fmta == 0xA) (k.vreg fl.q.desc.va) i))
        (decodeVal fl.q.desc.fmta (laneOf (fl.q.desc.fmta == 0xA) (k.vreg fl.q.desc.vb) i))
        (decodeVal fl.q.desc.fmta (laneOf (fl.q.desc.fmta == 0xA) (k.vreg fl.q.desc.vd) i)))))) } := by
  obtain ⟨hsrc, hdst⟩ := h
  unfold vecOp
  simp only [vsrc_ok (hsrc fl.q.desc.va (by simp)), vsrc_ok (hsrc fl.q.desc.vb (by simp)), vsrc_ok (hsrc fl.q.desc.vd (by simp)),
    vecResult_ok _ _ hdst, bind, Except.bind, pure, Except.pure, if_true]

end

/-- Settles O11: the sources are read, each lane is computed, and the result goes into its register under the predicate. -/
theorem vectorLanesAreComputed : Obligations.VectorLanesAreComputed := by
  refine ⟨fun s c fl => ?_, fun s c fl => ⟨fun h ha hb hp => ?_, fun h ha hb => ?_, fun h hr hg => ?_, fun h hr => ?_⟩, fun w xs => lanes_packVec⟩
  · simp only [vxRows, List.forall_mem_cons, List.not_mem_nil, false_imp_iff, implies_true, and_true, Bool.false_eq_true, if_false, if_true]
    exact ⟨fun h hr => onEngine_plain h (vecOp_two _ hr), fun h hr => onEngine_plain h (vecOp_two _ hr), fun h hr => onEngine_plain h (vecOp_two _ hr),
      fun h hr => onEngine_plain h (vecOp_three _ hr), fun h hr => onEngine_plain h (vecOp_two _ hr), fun h hr => onEngine_plain h (vecOp_two _ hr),
      fun h hr => onEngine_plain h (vecOp_two _ hr)⟩
  · refine onEngine_plain h ?_
    simp only [vsrc_ok ha, vsrc_ok hb, bind, Except.bind, pure, Except.pure]
    by_cases hz : fl.q.desc.pred = 0
    · simp only [hz, if_true, true_or]
    · simp only [hz, if_false, Core.readP_ok (hp hz), atCycle]
  · refine onEngine_plain h ?_
    simp only [vsrc_ok ha, vsrc_ok hb, bind, Except.bind, pure, Except.pure]
  · obtain ⟨hsrc, hdst⟩ := hr
    obtain ⟨hctx, hfree⟩ := hg
    refine onEngine_generator h hfree ?_
    simp only [vsrc_ok (hsrc fl.q.desc.va (by simp)), vecResult_ok _ _ hdst, roundingWords, bind, Except.bind, pure, Except.pure]
    by_cases hr : fl.q.desc.rnd = 4
    · simp only [hr, if_true, useContext_begun_ok .vx (hctx hr), pair64]
    · simp only [hr, if_false]
  · obtain ⟨hsrc, hdst⟩ := hr
    refine onEngine_plain h ?_
    simp only [vsrc_ok (hsrc fl.q.desc.va (by simp)), vecResult_ok _ _ hdst, bind, Except.bind, pure, Except.pure]

end Sys2Proof.Machine
end

section
/-! PROOFS. The commands of VX on anchored registers (R110, R533), with scalar results, of the generator (R114 to R117), and with memory (R136). -/

namespace Sys2Proof.Machine

open Sys2Proof

/-! ### Anchored registers (R110) -/

/-- The value of an anchored register, as `VACVT` rounds it. -/
theorem value_anchored (acc : BitVec 128) (tag : BitVec 2) (wexp : BitVec 16) :
    Tile.value { acc := spSet 0 [] 0 acc, tags := spSet 0 [] 0 tag, wexp := wexp } 0 =
      if tag = 3 then .nan else if tag = 1 then .inf false else if tag = 2 then .inf true
      else .fin (decide (acc.toInt < 0)) acc.toInt.natAbs wexp.toInt false := by
  simp only [Tile.value, Tile.tagOf, Tile.entry, spGet_spSet_self, Tile.wexpInt]

/-- Settles O12. -/
theorem anchoredVectorCommandsComplete : Obligations.AnchoredVectorCommandsComplete := by
  refine fun s c fl => ⟨fun h => ?_, fun h ha hv => ⟨fun hfn hbreach => ?_, fun hfn hwexp hh => ?_⟩, fun h ha => ?_⟩
  · exact onEngine_plain h rfl
  · refine onEngine_plain h ?_
    simp only [vsrc_ok ha, vsrc_ok hv, hfn, hbreach, bind, Except.bind, pure, Except.pure, if_false, Bool.false_eq_true]
  · refine onEngine_plain h ?_
    simp only [vsrc_ok ha, vsrc_ok hv, hfn, hwexp, hh, bind, Except.bind, pure, Except.pure, if_true, ne_eq, not_true, or_self, if_false]
  · refine onEngine_plain h ?_
    simp only [vsrc_ok ha, value_anchored, bind, Except.bind, pure, Except.pure]

/-! ### Scalar results and draws (R100, R114 to R117) -/

/-- Settles O13. -/
theorem vectorScalarExchangesAndDraws : Obligations.VectorScalarExchangesAndDraws := by
  refine ⟨fun s c fl => ⟨fun ha => ⟨fun h => ?_, fun h => ?_, fun h => ?_⟩, fun h hr => ?_⟩, fun s c fl h hctx hfree hr => ?_⟩
  · refine onEngine_plain h ?_
    simp only [vsrc_ok ha, bind, Except.bind, pure, Except.pure]
  · refine onEngine_plain h ?_
    simp only [vsrc_ok ha, bind, Except.bind, pure, Except.pure]
    cases argmax fl.q.desc.fmta (selected (fl.q.desc.fmta == 0xA) fl.q.pred ((seen s c .vx fl).vreg fl.q.desc.va)) <;> rfl
  · refine onEngine_plain h ?_
    simp only [vsrc_ok ha, bind, Except.bind, pure, Except.pure]
  · refine onEngine_plain h ?_
    simp only [vecResult_ok _ _ hr.2, bind, Except.bind, pure, Except.pure]
  · refine onEngine_generator h hfree ?_
    simp only [useContext_begun_ok .vx hctx, vecResult_ok _ _ hr.2, bind, Except.bind, pure, Except.pure, pair64]

/-! ### Loads and stores (R127, R136) -/

/-- A memory operand in its declared banks, in its store and aligned passes its checks. -/
theorem chkOperand_ok {sp : Space} {a n : Nat} {based : Bool} {bankm : BitVec 8} (hsize : a + n ≤ spaceSize sp) (halign : a % spaceAlign sp = 0)
    (hbank : sp = .shelf → based = true → ∀ i, i < ceilDiv (a % 32 + n) 32 → bit bankm.toNat ((a / 32 + i) % 8) = true) :
    chkOperand sp a n based bankm = .ok () := by
  have hescape : (if sp == .shelf && based then
      ((List.range (ceilDiv (a % 32 + n) 32)).map fun i => (a / 32 + i) % 8).find? fun b => !bit bankm.toNat b else none) = none := by
    split
    next hs =>
      simp only [Bool.and_eq_true, beq_iff_eq] at hs
      rw [List.find?_eq_none]
      intro b hb
      obtain ⟨i, hi, rfl⟩ := List.mem_map.mp hb
      simp [hbank hs.1 hs.2 i (List.mem_range.mp hi)]
    next => rfl
  simp only [chkOperand, hescape, Nat.not_lt.mpr hsize, halign, if_false, ne_eq, not_true]

/-- An operand that lies where it says is found there. -/
theorem operand_ok {fl : InFlight} {f : BitVec 32} {base : Word} {n : Nat} {sp : Space} {a : Nat} (h : OperandAt fl f base n sp a) :
    operand fl f base n = .ok (sp, a) := by
  obtain ⟨hsp, ha, hsize, halign, hbank⟩ := h
  have haddr : opAddr f base = a := by rw [ha, opAddr, bits, Nat.pow_zero, Nat.div_one]
  have hchk : chkOperand sp a n (opBase f ≠ 0) fl.q.desc.bankm = .ok () :=
    chkOperand_ok hsize halign fun hs hb => hbank hs (of_decide_eq_true hb)
  simp only [operand, hsp, haddr, hchk, atCycle, bind, Except.bind, pure, Except.pure]

/-- A command that uses banks and paths without a conflict, has writes in flight and acts on the package, but brings nothing to another core. -/
theorem onEngine_sends {s : State} {c : Nat} {e : Engine} {cop : Nat} {fl : InFlight} {f : State → Core → InFlight → CRes CmdEff} {k : Core}
    {us : List (BankUse × Nat)} {ps : List Pending} {paths : List (Nat × Nat)} {post : State → State} (h : Executes s c e cop fl)
    (hpaths : PathsFree (begun s c e) c paths) (hu : NoConflict (restoreTags fl ((begun s c e).core c) k) us)
    (hf : f (begun s c e) (seen s c e fl) fl = .ok { core := k, uses := us, pends := ps, paths := paths, post := post }) :
    onEngine c e cop s f = .next (post (withPaths (transferred s c e fl k us ps) (pathLog c e fl paths))) := by
  unfold NoConflict at hu
  unfold PathsFree at hpaths
  rw [onEngine_executes h hf, applyCmd]
  simp only [hpaths, List.foldl_nil, logOther, hu, raiseUse]
  rfl

/-- A command that uses banks without a conflict and has writes in flight. -/
theorem onEngine_transfers {s : State} {c : Nat} {e : Engine} {cop : Nat} {fl : InFlight} {f : State → Core → InFlight → CRes CmdEff} {k : Core}
    {us : List (BankUse × Nat)} {ps : List Pending} (h : Executes s c e cop fl) (hu : NoConflict (restoreTags fl ((begun s c e).core c) k) us)
    (hf : f (begun s c e) (seen s c e fl) fl = .ok { core := k, uses := us, pends := ps }) :
    onEngine c e cop s f = .next (transferred s c e fl k us ps) :=
  onEngine_sends (paths := []) (post := id) h rfl hu hf

/-- Settles O14. -/
theorem vectorLoadAndStoreComplete : Obligations.VectorLoadAndStoreComplete := by
  refine fun s c fl sp a hop => ⟨fun h hr hu => ?_, fun h ha hu => ?_⟩
  · refine onEngine_transfers h hu ?_
    simp only [operand_ok hop, vecResult_ok _ _ hr.2, bind, Except.bind, pure, Except.pure]
  · refine onEngine_transfers h hu ?_
    simp only [operand_ok hop, vsrc_ok ha, bind, Except.bind, pure, Except.pure]

end Sys2Proof.Machine
end

section
/-! PROOFS. The commands of MX (R93 to R108): the tile commands, the exports, and that sums do not depend on their order (R94 to R96, R102). -/

namespace Sys2Proof.Machine

open Sys2Proof

/-! ### Order freedom (R94, R95, R102) -/

/-- Special tags may be joined in any order (R94). -/
theorem joinTag_right_comm (a b c : BitVec 2) : joinTag (joinTag a b) c = joinTag (joinTag a c) b := by
  revert a b c
  decide

/-- Two products may be added in any order. -/
theorem Partial.add_right_comm (p : Partial) (wexp : Int) (h : Nat) (v w : Val) :
    (p.add wexp h v).add wexp h w = (p.add wexp h w).add wexp h v := by
  cases v with
  | nan => cases w with
    | nan => rfl
    | inf n => simp only [Partial.add, joinTag_right_comm]
    | fin n m e st => simp only [Partial.add]; split <;> rfl
  | inf n' => cases w with
    | nan => simp only [Partial.add, joinTag_right_comm]
    | inf n => simp only [Partial.add, joinTag_right_comm]
    | fin n m e st => simp only [Partial.add]; split <;> rfl
  | fin n' m' e' st' => cases w with
    | nan => simp only [Partial.add]; split <;> rfl
    | inf n => simp only [Partial.add]; split <;> rfl
    | fin n m e st =>
      simp only [Partial.add]
      by_cases hm : m = 0
      · simp [hm]
      · by_cases hm' : m' = 0
        · simp [hm, hm']
        · simp only [hm, hm', if_false, Int.add_right_comm, Bool.or_right_comm]

/-- The step of a partial's addition for one entry (R102). -/
def addEntry (vals trailer : List Byte) (t : Tile) (i : Nat) : Tile :=
  { t with acc := spSet 0 t.acc i (t.entry i + BitVec.ofNat 128 (le vals (16 * i) 16)),
           tags := spSet 0 t.tags i (joinTag (t.tagOf i) (BitVec.ofNat 2 (le trailer 16 16 / 4 ^ i))) }

/-- The additions of the first `n` entries change these alone, each once. -/
theorem foldl_addEntry (vals trailer : List Byte) (t : Tile) (n : Nat) :
    let u := (List.range n).foldl (addEntry vals trailer) t
    (∀ i, u.entry i = if i < n then t.entry i + BitVec.ofNat 128 (le vals (16 * i) 16) else t.entry i) ∧
    (∀ i, u.tagOf i = if i < n then joinTag (t.tagOf i) (BitVec.ofNat 2 (le trailer 16 16 / 4 ^ i)) else t.tagOf i) ∧
    u.ovf = t.ovf ∧ u.wexp = t.wexp ∧ u.h = t.h := by
  induction n with
  | zero => simp
  | succ n ih =>
    obtain ⟨hentry, htag, hovf, hwexp, hh⟩ := ih
    rw [List.range_succ, List.foldl_append, List.foldl_cons, List.foldl_nil]
    generalize (List.range n).foldl (addEntry vals trailer) t = u at *
    refine ⟨fun i => ?_, fun i => ?_, hovf, hwexp, hh⟩
    · simp only [addEntry, Tile.entry, spGet_spSet] at hentry ⊢
      by_cases hi : n = i
      · subst hi; simp only [if_true, hentry, lt_irrefl, if_false, Nat.lt_succ_self]
      · simp only [hi, if_false, hentry, show i < n + 1 ↔ i < n by omega]
    · simp only [addEntry, Tile.tagOf, spGet_spSet] at htag ⊢
      by_cases hi : n = i
      · subst hi; simp only [if_true, htag, lt_irrefl, if_false, Nat.lt_succ_self]
      · simp only [hi, if_false, htag, show i < n + 1 ↔ i < n by omega]

/-- A tile after a partial (R102): each of its 64 entries has its value added and its tag joined, and `OVF` is joined. -/
theorem addPart_spec (t : Tile) (vals trailer : List Byte) :
    (∀ i, (t.addPart vals trailer).entry i = if i < 64 then t.entry i + BitVec.ofNat 128 (le vals (16 * i) 16) else t.entry i) ∧
    (∀ i, (t.addPart vals trailer).tagOf i = if i < 64 then joinTag (t.tagOf i) (BitVec.ofNat 2 (le trailer 16 16 / 4 ^ i)) else t.tagOf i) ∧
    (t.addPart vals trailer).ovf = (t.ovf || bit (le trailer 1 1) 0) ∧ (t.addPart vals trailer).wexp = t.wexp ∧ (t.addPart vals trailer).h = t.h :=
  foldl_addEntry vals trailer { t with ovf := t.ovf || bit (le trailer 1 1) 0 } 64

/-- Settles O16. -/
theorem sumsAreOrderFree : Obligations.SumsAreOrderFree := by
  refine ⟨fun t v1 v2 tr1 tr2 i => ?_, fun p wexp h xs ys hperm =>
    hperm.foldl_eq' (fun v _ w _ p => Partial.add_right_comm p wexp h v w) p⟩
  obtain ⟨hentry1, htag1, hovf1, hwexp1, hh1⟩ := addPart_spec t v1 tr1
  obtain ⟨hentry2, htag2, hovf2, -, -⟩ := addPart_spec t v2 tr2
  obtain ⟨hentry12, htag12, hovf12, hwexp12, hh12⟩ := addPart_spec (t.addPart v1 tr1) v2 tr2
  obtain ⟨hentry21, htag21, hovf21, -, -⟩ := addPart_spec (t.addPart v2 tr2) v1 tr1
  refine ⟨?_, ?_, ?_, hwexp12.trans hwexp1, hh12.trans hh1⟩
  · rw [hentry12, hentry21, hentry1, hentry2]
    split
    · ac_rfl
    · rfl
  · rw [htag12, htag21, htag1, htag2]
    split
    · exact joinTag_right_comm _ _ _
    · rfl
  · rw [hovf12, hovf21, hovf1, hovf2, Bool.or_right_comm]

/-! ### Tile commands (R93 to R97, R100, R102) -/

/-- A tile after its control word is written (R97). -/
theorem setControl_eq (t : Tile) (w : Word) :
    t.setControl w = if w.setWidth 16 = t.wexp ∧ BitVec.ofNat 6 (w.toNat / 2 ^ 16) = t.h then { t with ovfEn := bit w.toNat 22 }
      else { acc := [], tags := [], ovf := false, wexp := w.setWidth 16, h := BitVec.ofNat 6 (w.toNat / 2 ^ 16), ovfEn := bit w.toNat 22 } := by
  have hh : BitVec.ofNat 6 (bits w.toNat 21 16) = BitVec.ofNat 6 (w.toNat / 2 ^ 16) := by
    apply BitVec.eq_of_toNat_eq
    simp [bits]
  simp only [Tile.setControl, hh]
  split
  next h => rw [h.1, h.2]
  next => rfl

/-- Settles O15. -/
theorem tileCommandsComplete : Obligations.TileCommandsComplete := by
  refine fun s c fl => ⟨fun o ho => ⟨fun h ht hbreach hu => ?_, fun h hu => ?_⟩, fun h => ?_, fun h => ?_, fun sp a spT aT h hop hopT => ?_⟩
  · refine onEngine_transfers h hu ?_
    have hno : ∀ t : Tile, t = (seen s c .mx fl).tile fl.q.desc.tile → (t.ovfEn && ((List.range 64).map fun e =>
        (e, o.entrySum t.wexpInt t.h.toNat (e / 8) (e % 8))).any (·.2.breach)) = false := by
      rintro _ rfl
      rw [Bool.and_eq_false_imp]
      intro hen
      rw [List.any_eq_false]
      rintro _ hx
      obtain ⟨e, he, rfl⟩ := List.mem_map.mp hx
      simpa [Tile.wexpInt] using hbreach hen e (List.mem_range.mp he)
    simp only [ho, Core.readT_ok ht, hno _ rfl, atCycle, bind, Except.bind, pure, Except.pure, Bool.false_eq_true, if_false]
    rfl
  · refine onEngine_transfers h hu ?_
    simp only [ho, bind, Except.bind, pure, Except.pure]
  · exact onEngine_plain h rfl
  · exact onEngine_plain h (by rw [setControl_eq])
  · intro tm vals tr ht hver hwexp hh hu
    refine onEngine_transfers h hu ?_
    simp only [tm, tr] at ht hver hwexp hh
    simp only [operand_ok hop, operand_ok hopT, Core.readT_ok ht, hver, hwexp, hh, atCycle, bind, Except.bind, pure, Except.pure, ne_eq, not_true,
      or_self, if_false]
    rfl

/-! ### Exports (R101, R104 to R108) -/

/-- A command that uses banks without a conflict, has writes in flight, occupies the generator and counts. -/
theorem onEngine_exports {s : State} {c n : Nat} {e : Engine} {cop : Nat} {fl : InFlight} {f : State → Core → InFlight → CRes CmdEff} {k : Core}
    {us : List (BankUse × Nat)} {ps : List Pending} (h : Executes s c e cop fl) (hfree : GeneratorFree s c fl)
    (hu : NoConflict (restoreTags fl ((begun s c e).core c) k) us)
    (hf : f (begun s c e) (seen s c e fl) fl = .ok { core := k, uses := us, pends := ps, paths := generatorUse c fl, post := countOvf n }) :
    onEngine c e cop s f = .next (countOvf n (withPaths (transferred s c e fl k us ps) (generatorUses c e fl))) :=
  onEngine_sends h (firstPathConflict_generator h.exists_ hfree) hu hf

/-- The words that a tile's rounding draws. -/
theorem exportWords_ok {s : State} {c : Nat} {fl : InFlight} (e : Engine) (n : Nat) (h : GeneratorReady s c fl) :
    exportWords (begun s c e) c fl n = .ok (roundingWords s c fl fl.q.base2.toNat (fl.q.base3.toNat + 2 ^ 32 * fl.q.base3n.toNat) n) := by
  unfold exportWords roundingWords
  split
  next hr => rw [useContext_begun_ok e (h.1 hr)]; rfl
  next => rfl

/-- The result goes to registers, or to an operand that passes its checks. -/
theorem exists_operand {fl : InFlight} {f : BitVec 32} {base : Word} {n : Nat} {sp : Space} {a : Nat}
    (h : (opSpace f).isNone = true ∨ OperandAt fl f base n sp a) :
    ∃ sp' a', operand fl f base n = .ok (sp', a') ∧ ((opSpace f).isNone = false → sp' = sp ∧ a' = a) := by
  by_cases hn : (opSpace f).isNone = true
  · exact ⟨.shelf, 0, by simp [operand, Option.isNone_iff_eq_none.mp hn], by simp [hn]⟩
  · exact ⟨sp, a, operand_ok (h.resolve_left hn), fun _ => ⟨rfl, rfl⟩⟩

/-- Settles O17. -/
theorem tileExportsComplete : Obligations.TileExportsComplete := by
  refine fun s c fl sp spT a aT => ⟨fun h hg ht => ?_, fun h hg ht => ?_, fun h ht hop hopT => ?_⟩
  · intro size row k' stores hop hu
    obtain ⟨sp', a', hop', hat⟩ := exists_operand hop
    refine onEngine_exports h hg.2 hu ?_
    simp only [size] at hop'
    simp only [hop', Core.readT_ok ht, exportWords_ok .mx 64 hg, atCycle, bind, Except.bind, pure, Except.pure]
    by_cases hr : (opSpace fl.q.desc.opnd0).isNone = true
    · simp only [k', stores, row, hr, if_true]
      rfl
    · obtain ⟨rfl, rfl⟩ := hat (eq_false_of_ne_true hr)
      rfl
  · intro size entries blocks rows k' stores scales hop hopT hu
    obtain ⟨sp', a', hop', hat⟩ := exists_operand hop
    refine onEngine_exports h hg.2 hu ?_
    simp only [size] at hop'
    have ht0 := Core.readT_ok (ht 0 (by decide))
    have ht1 := Core.readT_ok (ht 1 (by decide))
    have ht2 := Core.readT_ok (ht 2 (by decide))
    have ht3 := Core.readT_ok (ht 3 (by decide))
    simp only [add_assoc, Nat.reduceAdd] at ht0 ht1 ht2 ht3
    simp only [hop', operand_ok hopT, ht0, ht1, ht2, ht3, exportWords_ok .mx 256 hg, atCycle, bind, Except.bind, pure, Except.pure]
    by_cases hr : (opSpace fl.q.desc.opnd0).isNone = true
    · simp only [k', stores, hr, if_true]
      rfl
    · obtain ⟨rfl, rfl⟩ := hat (eq_false_of_ne_true hr)
      rfl
  · intro w stores tr hu
    refine onEngine_transfers h hu ?_
    simp only [operand_ok hop, operand_ok hopT, Core.readT_ok ht, atCycle, bind, Except.bind, pure, Except.pure]
    rfl

end Sys2Proof.Machine
end

section
/-! PROOFS. The commands of SX and NX: copies and puts (R67 to R70, R131, R138), overlays (R66), transfers with the cellars and the
Hatch (R145, R159), stream programs (R166 to R168), posts and arrival clears (R81, R217). -/

namespace Sys2Proof.Machine

open Sys2Proof

/-! ### Copies and overlays (R66, R130, R138) -/

theorem copyOperands_ok {fl : InFlight} {src dst : Space} {a b : Nat} (hsrc : OperandAt fl fl.q.desc.opnd0 fl.q.base0 fl.q.desc.count src a)
    (hdst : OperandAt fl fl.q.desc.opnd1 fl.q.base1 fl.q.desc.count dst b) : copyOperands fl = .ok ((src, a), (dst, b)) := by
  simp only [copyOperands, operand_ok hsrc, operand_ok hdst, bind, Except.bind, pure, Except.pure]

/-- An overlay whose pages are not in use writes them, each ready at its cycle. -/
theorem exec_xovl {s : State} {c : Nat} {fl : InFlight} {src : Space} {a : Nat} (h : Executes s c .sx 0x38 fl)
    (hop : OperandAt fl fl.q.desc.opnd0 fl.q.base0 (768 * fl.q.desc.count) src a)
    (hpages : ∀ i, i < fl.q.desc.count → fl.q.desc.fn + i ∉ (seen s c .sx fl).pagesInUse) :
    exec (.xovl c) s = .next (transferred s c .sx fl (seen s c .sx fl) [] ((List.range fl.q.desc.count).map fun i =>
      inFlight fl.q.pc .code c (96 * (fl.q.desc.fn + i)) ((seen s c .sx fl).load src (a + 768 * i) 768 (fl.d + 12 * i + 1))
        (fl.d + 12 * (i + 1) + 1))) := by
  have hfind : (List.range fl.q.desc.count).find? (fun i => (seen s c .sx fl).pagesInUse.contains (fl.q.desc.fn + i)) = none := by
    rw [List.find?_eq_none]
    exact fun i hi => by simpa using hpages i (List.mem_range.mp hi)
  refine onEngine_transfers h rfl ?_
  simp only [operand_ok hop, hfind, bind, Except.bind, pure, Except.pure]

/-! ### What a command leaves in its core -/

/-- The tags as the dispatch recorded them are all that is put back. -/
theorem restoreTags_eq (fl : InFlight) (k0 k : Core) : ∃ tags, restoreTags fl k0 k = { k with tags := tags } :=
  foldl_keeps (P := fun m => ∃ tags, m = { k with tags := tags }) _ (fun _ _ ⟨_, h⟩ => ⟨_, by rw [h]⟩) fl.old
    (show ∃ tags, k = { k with tags := tags } from ⟨k.tags, rfl⟩)

/-- The tags of before the dispatch are all that a command sees otherwise. -/
theorem view_eq (fl : InFlight) (k : Core) : ∃ tags, fl.view k = { k with tags := tags } :=
  foldl_keeps (P := fun m => ∃ tags, m = { k with tags := tags }) _ (fun _ _ ⟨_, h⟩ => ⟨_, by rw [h]⟩) fl.old
    (show ∃ tags, k = { k with tags := tags } from ⟨k.tags, rfl⟩)

/-- A core whose tags and engines alone are replaced. -/
def SameButTags (a b : Core) : Prop := ∃ tags mx vx sx nx, a = { b with tags := tags, mx := mx, vx := vx, sx := sx, nx := nx }

theorem SameButTags.trans {a b c : Core} (h : SameButTags a b) (h' : SameButTags b c) : SameButTags a c := by
  obtain ⟨_, _, _, _, _, rfl⟩ := h
  obtain ⟨_, _, _, _, _, rfl⟩ := h'
  exact ⟨_, _, _, _, _, rfl⟩

theorem sameButTags_restoreTags (fl : InFlight) (k0 k : Core) : SameButTags (restoreTags fl k0 k) k := by
  obtain ⟨_, h⟩ := restoreTags_eq fl k0 k
  exact ⟨_, _, _, _, _, h⟩

/-- A command sees its core with tags and engines of its own. -/
theorem sameButTags_seen (s : State) (c : Nat) (e : Engine) (fl : InFlight) : SameButTags (seen s c e fl) (s.core c) := by
  obtain ⟨_, h⟩ := view_eq fl ((begun s c e).core c)
  refine .trans (b := (begun s c e).core c) ⟨_, _, _, _, _, h⟩ ?_
  have hcore : (begun s c e).core c = (s.core c).setEng e { (s.core c).eng e with cur := none } := State.core_setCore_self ..
  rw [hcore, Core.setEng_eq]
  exact ⟨_, _, _, _, _, rfl⟩

/-- Uses of banks without a conflict are logged, and change nothing else. -/
theorem logUses_of_noConflict {k : Core} {us : List (BankUse × Nat)} (h : NoConflict k us) :
    ∃ uses, k.logUses us = ({ k with uses := uses }, none) := by
  induction us generalizing k with
  | nil => exact ⟨k.uses, rfl⟩
  | cons u us ih =>
    obtain ⟨u, a⟩ := u
    unfold NoConflict at h
    cases hc : useConflict k u a with
    | some e => simp [Core.logUses, hc] at h
    | none =>
      simp only [Core.logUses, hc] at h ⊢
      obtain ⟨uses, hu⟩ := ih h
      exact ⟨uses, by rw [hu]⟩

/-- A command that transfers leaves its registers, and has its writes in flight behind those before. -/
theorem core_transferred {s : State} {c : Nat} {e : Engine} {fl : InFlight} {us : List (BankUse × Nat)} (ps : List Pending)
    (hu : NoConflict (restoreTags fl ((begun s c e).core c) (seen s c e fl)) us) :
    sameRegisters ((transferred s c e fl (seen s c e fl) us ps).core c) (s.core c) ∧
      ((transferred s c e fl (seen s c e fl) us ps).core c).pend = (s.core c).pend ++ ps := by
  obtain ⟨tags, mx, vx, sx, nx, hk⟩ := (sameButTags_restoreTags fl ((begun s c e).core c) (seen s c e fl)).trans (sameButTags_seen s c e fl)
  obtain ⟨uses, hlog⟩ := logUses_of_noConflict hu
  have hcore : (transferred s c e fl (seen s c e fl) us ps).core c =
      { s.core c with tags := tags, mx := mx, vx := vx, sx := sx, nx := nx, uses := uses, pend := (s.core c).pend ++ ps } := by
    refine (State.core_setCore_self ..).trans ?_
    rw [hlog, hk]
  rw [hcore]
  exact ⟨⟨rfl, rfl, rfl, rfl, rfl, rfl, rfl⟩, rfl⟩

/-! ### Transfers with the cellars and the Hatch (R145, R159) -/

/-- A beat that enters the request tables changes controllers only. -/
theorem requestBeat_eq (s : State) (b : Nat × Nat) : ∃ ctls, requestBeat s b = { s with cellar := { s.cellar with ctls := ctls } } := by
  unfold requestBeat
  split
  · exact ⟨_, rfl⟩
  · refine foldl_keeps (P := fun m => ∃ ctls, m = { s with cellar := { s.cellar with ctls := ctls } }) _ ?_ _ ⟨s.cellar.ctls, rfl⟩
    rintro _ j ⟨ctls, rfl⟩
    dsimp only
    split
    · exact ⟨_, rfl⟩
    · exact ⟨_, rfl⟩

theorem core_requestBeat {c : Nat} (s : State) (b : Nat × Nat) : (requestBeat s b).core c = s.core c := by
  obtain ⟨ctls, h⟩ := requestBeat_eq s b
  rw [h]
  rfl

theorem foldl_requestBeat_eq {β : Type} (g : β → Nat × Nat) (l : List β) (s : State) :
    ∃ ctls, l.foldl (fun m p => requestBeat m (g p)) s = { s with cellar := { s.cellar with ctls := ctls } } := by
  refine foldl_keeps (P := fun m => ∃ ctls, m = { s with cellar := { s.cellar with ctls := ctls } }) _ ?_ l ⟨s.cellar.ctls, rfl⟩
  rintro _ p ⟨ctls, rfl⟩
  obtain ⟨ctls', h⟩ := requestBeat_eq { s with cellar := { s.cellar with ctls := ctls } } (g p)
  exact ⟨ctls', h⟩

/-- A transfer that uses no bank of its core: the registers stay, its writes are in flight, and the memories wait for them. -/
theorem onEngine_device {s : State} {c : Nat} {e : Engine} {cop : Nat} {fl : InFlight} {f : State → Core → InFlight → CRes CmdEff}
    {ps : List Pending} {paths : List (Nat × Nat)} {post : State → State} (h : Executes s c e cop fl) (hpaths : PathsFree (begun s c e) c paths)
    (hf : f (begun s c e) (seen s c e fl) fl = .ok { core := seen s c e fl, pends := ps, paths := paths, post := post }) :
    ∃ u, onEngine c e cop s f = .next (post u) ∧ sameRegisters (u.core c) (s.core c) ∧ (u.core c).pend = (s.core c).pend ++ ps ∧
      u.cellar = s.cellar ∧ u.hatch = s.hatch := by
  obtain ⟨hregs, hpend⟩ := core_transferred (s := s) (c := c) (e := e) (fl := fl) (us := []) ps rfl
  exact ⟨_, onEngine_sends (us := []) h hpaths rfl hf, hregs, hpend, rfl, rfl⟩

/-- A transfer whose beats enter request tables leaves the bytes of the cellars. -/
theorem onEngine_cellar {β : Type} {s : State} {c : Nat} {e : Engine} {cop : Nat} {fl : InFlight} {f : State → Core → InFlight → CRes CmdEff}
    {ps : List Pending} {paths : List (Nat × Nat)} {g : β → Nat × Nat} {l : List β} (h : Executes s c e cop fl)
    (hpaths : PathsFree (begun s c e) c paths)
    (hf : f (begun s c e) (seen s c e fl) fl =
      .ok { core := seen s c e fl, pends := ps, paths := paths, post := fun m => l.foldl (fun m p => requestBeat m (g p)) m }) :
    ∃ u, onEngine c e cop s f = .next u ∧ sameRegisters (u.core c) (s.core c) ∧ (u.core c).pend = (s.core c).pend ++ ps ∧
      u.cellar.bytes = s.cellar.bytes ∧ u.hatch = s.hatch := by
  obtain ⟨u, hu, hregs, hpend, hcellar, hhatch⟩ := onEngine_device h hpaths hf
  obtain ⟨ctls, hctls⟩ := foldl_requestBeat_eq g l u
  refine ⟨_, hu, ?_⟩
  rw [hctls]
  exact ⟨hregs, hpend, by simp only [hcellar], hhatch⟩

/-- A transfer whose operand and address are good goes on with them. -/
theorem transfer_checked {α β γ : Type} {op : CRes α} {address : CRes β} {f : α → β → CRes γ} {x : α} {da : β} (hop : op = .ok x)
    (hda : address = .ok da) : (do let x ← op; let da ← address; f x da) = f x da := by
  rw [hop, hda]
  rfl

/-- Settles O19. -/
theorem deviceTransfersComplete : Obligations.DeviceTransfersComplete := by
  refine fun s c fl sp a da hop => ⟨fun h hda hgood hpaths => ?_, fun h hda hpaths => ?_, fun h hda hpaths => ?_, fun h hda hpaths => ?_⟩
  · have hfind : (piecesOf 0 fl.q.desc.count 512).find? (fun p => ((begun s c .sx).firstBad (da + p.2.1) p.2.2).isSome) = none := by
      rw [List.find?_eq_none]
      exact fun p hp => by simp [hgood p hp]
    refine onEngine_cellar (l := piecesOf 0 fl.q.desc.count 512)
      (g := fun p => (fl.d + (begun s c .sx).lambda c ((begun s c .sx).daSite fl.q.da) + p.1, da + p.2.1)) h hpaths ?_
    dsimp only
    refine (transfer_checked (operand_ok hop) hda).trans ?_
    simp only [hfind]
    rfl
  · refine onEngine_cellar (l := piecesOf 0 fl.q.desc.count 512)
      (g := fun p => (fl.d + (begun s c .sx).lambda c ((begun s c .sx).daSite fl.q.da) + p.1, da + p.2.1)) h hpaths ?_
    dsimp only
    exact transfer_checked (operand_ok hop) hda
  · refine onEngine_device (post := id) h hpaths ?_
    dsimp only
    exact transfer_checked (operand_ok hop) hda
  · refine onEngine_device (post := id) h hpaths ?_
    dsimp only
    exact transfer_checked (operand_ok hop) hda

/-! ### Puts into another core (R67, R70, R131) -/

/-- A package in which at most core `t` differs. -/
def OnlyCore (t : Nat) (s u : State) : Prop := ∃ cores, u = { s with cores := cores } ∧ ∀ c, c ≠ t → spGet {} cores c = s.core c

theorem OnlyCore.trans {t : Nat} {s u v : State} (h : OnlyCore t s u) (h' : OnlyCore t u v) : OnlyCore t s v := by
  obtain ⟨cores, rfl, hs⟩ := h
  obtain ⟨cores', rfl, hu⟩ := h'
  exact ⟨cores', rfl, fun c hc => (hu c hc).trans (hs c hc)⟩

theorem onlyCore_setCore (t : Nat) (s : State) (k : Core) : OnlyCore t s (s.setCore t k) :=
  ⟨_, rfl, fun _ hc => spGet_spSet_ne _ _ _ hc.symm⟩

theorem core_setCore_ne {s : State} {c t : Nat} (k : Core) (h : c ≠ t) : (s.setCore c k).core t = s.core t := spGet_spSet_ne _ _ _ h

/-- Conflicts of banks depend on the uses logged, and on nothing else of the core. -/
theorem NoConflict.congr {k k' : Core} {us : List (BankUse × Nat)} (hk : k'.uses = k.uses) (h : NoConflict k us) : NoConflict k' us := by
  induction us generalizing k k' with
  | nil => rfl
  | cons u us ih =>
    obtain ⟨u, a⟩ := u
    have hu : useConflict k' u a = useConflict k u a := by rw [useConflict, useConflict, hk]
    unfold NoConflict at h ⊢
    cases hc : useConflict k u a with
    | some e => simp [Core.logUses, hc] at h
    | none =>
      simp only [Core.logUses, hu, hc] at h ⊢
      exact ih (by rw [hk]) h

/-- Uses of the ports of core `t` without a conflict are logged there, and change nothing else. -/
theorem logOther_of_noConflict {t : Nat} {us : List (BankUse × Nat)} {s : State} (h : NoConflict (s.core t) us) :
    OnlyCore t s (logOther s (us.map fun u => (t, u.1, u.2))) ∧
      ∃ uses, (logOther s (us.map fun u => (t, u.1, u.2))).core t = { s.core t with uses := uses } := by
  induction us generalizing s with
  | nil => exact ⟨⟨s.cores, rfl, fun _ _ => rfl⟩, _, rfl⟩
  | cons u us ih =>
    obtain ⟨u, a⟩ := u
    have hcore := State.core_setCore_self s t { s.core t with uses := u :: (s.core t).uses }
    cases hc : useConflict (s.core t) u a with
    | some e => simp [NoConflict, Core.logUses, hc] at h
    | none =>
      have hrest : NoConflict ((s.setCore t { s.core t with uses := u :: (s.core t).uses }).core t) us := by
        rw [hcore]
        simpa only [NoConflict, Core.logUses, hc] using h
      obtain ⟨honly, uses, hk⟩ := ih hrest
      simp only [List.map_cons, logOther, Core.logUses, hc]
      exact ⟨(onlyCore_setCore t s _).trans honly, uses, by rw [hk, hcore]⟩

/-- Writes that travel to core `t` are in flight there, behind those before. -/
theorem foldl_appendPend (t : Nat) (ps : List Pending) (s : State) :
    let u := (ps.map fun p => (t, p)).foldl (fun m p => m.setCore p.1 { m.core p.1 with pend := (m.core p.1).pend ++ [p.2] }) s
    OnlyCore t s u ∧ u.core t = { s.core t with pend := (s.core t).pend ++ ps } := by
  induction ps generalizing s with
  | nil => exact ⟨⟨s.cores, rfl, fun _ _ => rfl⟩, by simp⟩
  | cons p ps ih =>
    obtain ⟨honly, hk⟩ := ih (s.setCore t { s.core t with pend := (s.core t).pend ++ [p] })
    refine ⟨(onlyCore_setCore t s _).trans honly, ?_⟩
    simp only [List.map_cons, List.foldl_cons, hk, State.core_setCore_self, List.append_assoc, List.singleton_append]

/-- A command that brings writes to another core: they are in flight there, and the registers of both cores stay. -/
theorem onEngine_puts {s : State} {c t : Nat} {e : Engine} {cop : Nat} {fl : InFlight} {f : State → Core → InFlight → CRes CmdEff}
    {us land : List (BankUse × Nat)} {ps : List Pending} {paths : List (Nat × Nat)} (h : Executes s c e cop fl) (htc : t ≠ c)
    (hpaths : PathsFree (begun s c e) c paths) (hu : NoConflict (restoreTags fl ((begun s c e).core c) (seen s c e fl)) us)
    (hland : NoConflict (s.core t) land)
    (hf : f (begun s c e) (seen s c e fl) fl =
      .ok { core := seen s c e fl, others := ps.map fun p => (t, p), uses := us,
            otherUses := land.map fun u => (t, u.1, u.2), paths := paths }) :
    ∃ u, onEngine c e cop s f = .next u ∧ sameRegisters (u.core c) (s.core c) ∧ sameRegisters (u.core t) (s.core t) ∧
      (u.core t).pend = (s.core t).pend ++ ps ∧ (u.core c).pend = (s.core c).pend ∧ u.hatch = s.hatch ∧ u.cellar = s.cellar ∧
      u.ports = s.ports := by
  obtain ⟨hregs, hpend⟩ := core_transferred (s := s) (c := c) (e := e) (fl := fl) [] hu
  have hrun : onEngine c e cop s f = .next (logOther ((ps.map fun p => (t, p)).foldl
      (fun m p => m.setCore p.1 { m.core p.1 with pend := (m.core p.1).pend ++ [p.2] })
      (withPaths (transferred s c e fl (seen s c e fl) us []) (pathLog c e fl paths))) (land.map fun u => (t, u.1, u.2))) := by
    unfold NoConflict at hu
    unfold PathsFree at hpaths
    rw [onEngine_executes h hf, applyCmd]
    simp only [hpaths, hu, raiseUse]
    rfl
  have hsent : (withPaths (transferred s c e fl (seen s c e fl) us []) (pathLog c e fl paths)).core t = s.core t :=
    (core_setCore_ne _ htc.symm).trans (core_setCore_ne _ htc.symm)
  obtain ⟨honly, hk⟩ := foldl_appendPend t ps (withPaths (transferred s c e fl (seen s c e fl) us []) (pathLog c e fl paths))
  obtain ⟨honly', uses, hk'⟩ := logOther_of_noConflict (hland.congr (k' := ((ps.map fun p => (t, p)).foldl
      (fun m p => m.setCore p.1 { m.core p.1 with pend := (m.core p.1).pend ++ [p.2] })
      (withPaths (transferred s c e fl (seen s c e fl) us []) (pathLog c e fl paths))).core t) (by rw [hk, hsent]))
  obtain ⟨cores, hs', hother⟩ := honly.trans honly'
  have hc : spGet {} cores c = (transferred s c e fl (seen s c e fl) us []).core c := hother c htc.symm
  rw [hs'] at hk' hrun
  refine ⟨_, hrun, ?_⟩
  rw [hk', hk, hsent]
  rw [← hc, List.append_nil] at hpend
  rw [← hc] at hregs
  exact ⟨hregs, ⟨rfl, rfl, rfl, rfl, rfl, rfl, rfl⟩, rfl, hpend, rfl, rfl, rfl⟩

theorem bits_low (v hi : Nat) : bits v hi 0 = v % 2 ^ (hi + 1) := by rw [bits, Nat.pow_zero, Nat.div_one, Nat.sub_zero]

/-- Settles O18: the copies send what `copyWithin` says, and a put goes to one other core. -/
theorem copiesAndPutsComplete : Obligations.CopiesAndPutsComplete := by
  refine ⟨fun s c fl src dst a b => ⟨fun hsrc hdst => ⟨fun h hu => ?_, fun h hu => ?_, fun h hu => ?_⟩, exec_xovl⟩,
    fun s c fl src dst a b h => ?_⟩
  · refine onEngine_transfers h hu ?_
    simp only [copyOperands_ok hsrc hdst, bind, Except.bind, pure, Except.pure]
    rfl
  · refine onEngine_transfers h hu ?_
    simp only [copyOperands_ok hsrc hdst, bind, Except.bind, pure, Except.pure]
    rfl
  · refine onEngine_transfers h hu ?_
    simp only [copyOperands_ok hsrc hdst, bind, Except.bind, pure, Except.pure]
    rfl
  · intro k d t ps uses land paths ready flag hsrc hdst htc hpaths hu hland
    rw [List.append_assoc]
    refine onEngine_puts h htc hpaths hu hland ?_
    simp only [copyOperands_ok hsrc hdst, bind, Except.bind, pure, Except.pure, bits_low, t, land, flag, List.map_append, List.map_map,
      List.map_flatMap, apply_ite (List.map _), List.map_cons, List.map_nil, bit, decide_eq_true_eq, Function.comp_def]
    rfl

/-! ### Stream programs (R166 to R168) -/

/-- An element that issues replaces its program by the one with the next element, and brings nothing to another core. -/
theorem streamEffect_ok {s : State} {c : Nat} {k : Core} {p : StreamProg} {g : CmdEff} (h : streamEffect s c k p = .ok g) :
    g.core = k.setProg { p with next := p.next + 1 } ∧ g.others = [] ∧ g.otherUses = [] ∧
      ∃ b : Nat → Nat × Nat, g.post = fun m => (List.range p.beats).foldl (fun m i => requestBeat m (b i)) m := by
  by_cases hpop : s.populated < p.elemDa p.next + 512 * p.beats
  · simp [streamEffect, hpop, bind, Except.bind, throw, throwThe, MonadExceptOf.throw] at h
  by_cases hsize : spaceSize (if p.destAttic then .attic else .shelf) < p.destOf p.next + 512 * p.beats
  · simp [streamEffect, hpop, hsize, bind, Except.bind, throw, throwThe, MonadExceptOf.throw] at h
  simp only [streamEffect, hpop, hsize, if_false, bind, Except.bind, pure, Except.pure] at h
  split at h
  next => cases h
  next =>
    cases h
    exact ⟨rfl, rfl, rfl, _, rfl⟩

/-- Elements that are all ready within the frame leave none that is late. -/
theorem find?_late_none {s : State} {c : Nat} {p : StreamProg}
    (h : ∀ e, e < p.count → p.readyAt (s.lambda c (s.daSite (p.elemDa e))) (p.issue e) < s.frame.e) :
    (List.range p.count).find? (fun e => decide (s.frame.e ≤ p.readyAt (s.lambda c (s.daSite (p.elemDa e))) (p.issue e))) = none := by
  rw [List.find?_eq_none]
  intro e he
  have := h e (List.mem_range.mp he)
  simpa using this

/-- XSTREAM starts a program that is valid, new to its core, not empty and ready within the frame. -/
theorem exec_xstream {s : State} {c : Nat} {fl : InFlight} {bytes : List Byte} {q : StreamProg} (h : Executes s c .sx 0x39 fl)
    (hbytes : (seen s c .sx fl).load .attic (0x17E00 + 32 * (fl.q.desc.count - 1)) 32 (fl.d + 1) = bytes)
    (hq : streamHeader fl.q.desc.count fl.q.pc fl.d bytes = q) (hvalid : le bytes 0 1 = 1) (hroom : (seen s c .sx fl).progs.length < 4)
    (hnew : ∀ r ∈ (seen s c .sx fl).progs, r.num ≠ fl.q.desc.count) (hcount : 0 < q.count)
    (hlate : ∀ e, e < q.count → q.readyAt (s.lambda c (s.daSite (q.elemDa e))) (q.issue e) < s.frame.e)
    (hu : NoConflict (restoreTags fl ((begun s c .sx).core c) { seen s c .sx fl with progs := (seen s c .sx fl).progs ++ [q] })
      (usesOf 3 fl.q.pc .attic (0x17E00 + 32 * (fl.q.desc.count - 1)) 32 (fl.d + 1))) :
    exec (.xstream c) s = .next (transferred s c .sx fl { seen s c .sx fl with progs := (seen s c .sx fl).progs ++ [q] }
      (usesOf 3 fl.q.pc .attic (0x17E00 + 32 * (fl.q.desc.count - 1)) 32 (fl.d + 1)) []) := by
  have hany : (seen s c .sx fl).progs.any (fun p => p.num == fl.q.desc.count) = false := by
    rw [List.any_eq_false]
    exact fun r hr => by simpa using hnew r hr
  have hfind := find?_late_none (s := begun s c .sx) hlate
  refine onEngine_transfers h hu ?_
  simp only [hbytes, hq, hvalid, hany, hfind, Nat.not_le.mpr hroom, Nat.ne_of_gt hcount, ne_eq, not_true, if_false, Option.isSome_none,
    Bool.false_eq_true, Bool.or_false, decide_false, bind, Except.bind, pure, Except.pure]

/-- A command without effect on other cores, with its paths free and its banks without conflict, leaves its own core with its writes in flight. -/
theorem core_applyCmd_alone {s : State} {c : Nat} {e : Engine} {fl : InFlight} {g : CmdEff} (hpaths : PathsFree s c g.paths)
    (hu : NoConflict g.core g.uses) (hothers : g.others = []) (hotherUses : g.otherUses = []) (hpost : ∀ m, (g.post m).core c = m.core c) :
    ∃ uses, (applyCmd s c e fl g).core c = { g.core with uses := uses, pend := g.core.pend ++ g.pends } := by
  obtain ⟨uses, hlog⟩ := logUses_of_noConflict hu
  refine ⟨uses, ?_⟩
  unfold PathsFree at hpaths
  rw [applyCmd, hpaths]
  simp only [hlog, hothers, hotherUses, List.foldl_nil, logOther, raiseUse, hpost]
  exact State.core_setCore_self ..

/-- Settles O20. -/
theorem streamProgramsRun : Obligations.StreamProgramsRun := by
  refine fun s c n fl p g => ⟨fun h hvalid hroom hnew hcount hlate hu => exec_xstream h rfl rfl hvalid hroom hnew hcount hlate hu,
    fun hc hcy hh hfind => ⟨fun hnext hheld hg hpaths hu => ?_, fun hready hheld => ?_⟩⟩
  · obtain ⟨hcore, hothers, hotherUses, b, hpost⟩ := streamEffect_ok hg
    have hkeep : ∀ m, (g.post m).core c = m.core c := fun m => by
      rw [hpost]
      exact core_foldl _ (fun m i => core_requestBeat m (b i)) _ m
    obtain ⟨uses, hk⟩ := core_applyCmd_alone (e := .sx) (fl := { q := { desc := { cop := 0x39, eng := 2 }, pc := p.pc }, d := p.issue p.next })
      hpaths hu hothers hotherUses hkeep
    rw [hcore] at hk
    have hrun : execStreamElement c n s = .next (applyCmd (settle s c (p.issue p.next)) c .sx
        { q := { desc := { cop := 0x39, eng := 2 }, pc := p.pc }, d := p.issue p.next } g) := by
      rw [execStreamElement, onCore_next _ _ hc]
      simp only [hfind, hcy, hh, hg, Nat.not_le.mpr hnext, Nat.not_le.mpr hheld, or_self, if_false, Bool.false_eq_true, Bool.true_eq_false]
    refine ⟨_, hrun, ?_⟩
    rw [hk]
    generalize (settle s c (p.issue p.next)).core c = k
    exact ⟨rfl, rfl, rfl, rfl, rfl, rfl, rfl, rfl, rfl⟩
  · change execStreamElementReady c n s = _
    rw [execStreamElementReady, onCore_next _ _ hc]
    simp only [hfind, hcy, hh, Nat.not_le.mpr hready, Nat.not_le.mpr hheld, or_self, if_false, Bool.false_eq_true, Bool.true_eq_false]
    split <;> rfl

/-! ### Posts and arrival clears (R81, R217) -/

/-- Settles O21. -/
theorem postAndArrivalClearComplete : Obligations.PostAndArrivalClearComplete := by
  refine fun s c fl sp a f => ⟨fun h hop hflow hcount hu => ?_, fun h => onEngine_transfers h rfl rfl⟩
  refine onEngine_sends (paths := []) h rfl hu ?_
  simp only [operand_ok hop, hflow, Nat.not_lt.mpr hcount, bind, Except.bind, pure, Except.pure, if_false]

end Sys2Proof.Machine
end

section
/-! PROOFS. Notes sent, and the end of a run: what these shared operations may change (R45, R236 to R244, R335, R373). -/

namespace Sys2Proof.Machine

open Sys2Proof

/-! ### Ports -/

/-- A port of which only the stores of notes and their counts differ. -/
def NotesOnly (a b : Port) : Prop := ∃ store out sent left, a = { b with store := store, outNotes := out, noteSent := sent, noteLeft := left }

theorem NotesOnly.refl (a : Port) : NotesOnly a a := ⟨_, _, _, _, rfl⟩

theorem NotesOnly.trans {a b c : Port} (h : NotesOnly a b) (h' : NotesOnly b c) : NotesOnly a c := by
  obtain ⟨_, _, _, _, rfl⟩ := h
  obtain ⟨_, _, _, _, rfl⟩ := h'
  exact ⟨_, _, _, _, rfl⟩

/-- Nothing but the notes of ports differs. -/
def StoresFrom (s t : State) : Prop := ∃ ports, t = { s with ports := ports } ∧ ∀ p, NotesOnly (spGet {} ports p) (s.port p)

theorem StoresFrom.refl (s : State) : StoresFrom s s := ⟨s.ports, rfl, fun _ => .refl _⟩

theorem StoresFrom.trans {s t u : State} (h : StoresFrom s t) (h' : StoresFrom t u) : StoresFrom s u := by
  obtain ⟨_, rfl, hp⟩ := h
  obtain ⟨_, rfl, hp'⟩ := h'
  exact ⟨_, rfl, fun p => (hp' p).trans (hp p)⟩

theorem storesFrom_modPort (s : State) (p : Nat) {f : Port → Port} (hf : ∀ q, NotesOnly (f q) q) : StoresFrom s (s.modPort p f) := by
  refine ⟨_, rfl, fun p' => ?_⟩
  rw [spGet_spSet]
  split
  next h => exact h ▸ hf _
  next => exact .refl _

theorem storesFrom_foldl {β : Type} {f : State → β → State} (hf : ∀ m b, StoresFrom m (f m b)) (l : List β) (s : State) :
    StoresFrom s (l.foldl f s) :=
  foldl_keeps (P := StoresFrom s) f (fun m b hm => hm.trans (hf m b)) l (.refl s)

/-! ### Notes (R236 to R239) -/

theorem storesFrom_drainList (input : Nat) (l : List NoteCopy) (blocked : List Nat) (s : State) :
    StoresFrom s (drainList input l blocked s).1 := by
  induction l generalizing blocked s with
  | nil => exact .refl s
  | cons c t ih =>
    unfold drainList
    split
    · exact ih _ s
    · extract_lets s1
      have h1 : StoresFrom s s1 := storesFrom_foldl (fun m q => storesFrom_modPort m q fun _ => ⟨_, _, _, _, rfl⟩) c.outs s
      split
      · exact h1.trans (ih ..)
      · exact (h1.trans (storesFrom_modPort _ input fun _ => ⟨_, _, _, _, rfl⟩)).trans (ih ..)

theorem storesFrom_drainStore (s : State) (input : Nat) : StoresFrom s (drainStore s input) := by
  have h : drainStore s input = (drainList input (s.port input).store [] s).1.modPort input
    fun o => { o with store := (drainList input (s.port input).store [] s).2 } := rfl
  rw [h]
  exact (storesFrom_drainList ..).trans (storesFrom_modPort _ input fun _ => ⟨_, _, _, _, rfl⟩)

theorem storesFrom_drainNotes (s : State) : StoresFrom s (drainNotes s) := storesFrom_foldl storesFrom_drainStore _ s

theorem storesFrom_storeNote (s : State) (input : Nat) (n : RNote) (outs : List Nat) : StoresFrom s (storeNote s input n outs) := by
  unfold storeNote
  split
  · split
    · exact .refl s
    · exact storesFrom_modPort s input fun _ => ⟨_, _, _, _, rfl⟩
  · exact (storesFrom_modPort s input fun _ => ⟨_, _, _, _, rfl⟩).trans (storesFrom_drainNotes _)

/-- Nothing but the notes of ports, the sequence numbers of notes, and the counters of drops and reversals differs. -/
def NotesFrom (s t : State) : Prop :=
  ∃ ports seqs drops reversals, t =
    { s with ports := ports, noteSeqs := seqs, fabric := { s.fabric with noteDrops := drops, noteReversals := reversals } } ∧
      ∀ p, NotesOnly (spGet {} ports p) (s.port p)

theorem NotesFrom.trans {s t u : State} (h : NotesFrom s t) (h' : NotesFrom t u) : NotesFrom s u := by
  obtain ⟨_, _, _, _, rfl, hp⟩ := h
  obtain ⟨_, _, _, _, rfl, hp'⟩ := h'
  exact ⟨_, _, _, _, rfl, fun p => (hp' p).trans (hp p)⟩

theorem StoresFrom.notes {s t : State} (h : StoresFrom s t) : NotesFrom s t := by
  obtain ⟨_, rfl, hp⟩ := h
  exact ⟨_, _, _, _, rfl, hp⟩

/-- What sending a note changes. -/
theorem sendNote_eq (s : State) (ntype : Nat) (dest : Option (Nat × Nat × Nat)) (payload : List Byte) :
    NotesFrom s (sendNote s ntype dest payload) := by
  unfold sendNote
  split
  split
  next =>
    refine .trans ?_ (storesFrom_storeNote ..).notes
    exact ⟨_, _, _, _, rfl, fun _ => .refl _⟩
  next =>
    split
    · exact ⟨_, _, _, _, rfl, fun _ => .refl _⟩
    · dsimp only
      split
      · exact ⟨_, _, _, _, rfl, fun _ => .refl _⟩
      · refine .trans ?_ (storesFrom_storeNote ..).notes
        split
        · exact ⟨_, _, _, _, rfl, fun _ => .refl _⟩
        · exact ⟨_, _, _, _, rfl, fun _ => .refl _⟩

/-- A stop note is a note with an event. -/
theorem sendStop_eq (s : State) (reason : Nat) :
    ∃ ports seqs drops reversals queue lost, sendStop s reason =
      { s with ports := ports, noteSeqs := seqs, fabric := { s.fabric with noteDrops := drops, noteReversals := reversals },
               alarms := { s.alarms with boxQueue := queue, lostEvent := lost } } ∧ ∀ p, NotesOnly (spGet {} ports p) (s.port p) := by
  unfold sendStop
  obtain ⟨q, n, h⟩ := boxEvent_eq s 6 (leBytes 2 reason ++ leBytes 1 1 ++ leBytes 1 s.coords.1 ++ leBytes 1 s.coords.2.1 ++ leBytes 1 s.coords.2.2)
  obtain ⟨_, _, _, _, hn, hp⟩ := sendNote_eq { s with alarms := { s.alarms with boxQueue := q, lostEvent := n } } 0x12 none
    (leBytes 8 s.frameIndex ++ leBytes 2 reason)
  dsimp only
  rw [h, hn]
  exact ⟨_, _, _, _, _, _, rfl, hp⟩

/-! ### The end of a run (R335, R362, R373) -/

theorem foldl_boxSeal_eq (rs : List InvRec) (s : State) : ∃ queue, rs.foldl boxSeal s = { s with alarms := { s.alarms with boxQueue := queue } } :=
  foldl_keeps (P := fun m => ∃ queue, m = { s with alarms := { s.alarms with boxQueue := queue } }) _ (fun _ _ ⟨_, h⟩ => ⟨_, by rw [h]; rfl⟩) rs
    ⟨s.alarms.boxQueue, rfl⟩

/-- A seal changes the inventory and joins the box-room queue. -/
theorem sealFrame_eq (s : State) (k tick : Nat) (clean : Bool) (q : List Byte) :
    ∃ inv queue, sealFrame s k tick clean q = { s with inv := inv, alarms := { s.alarms with boxQueue := queue } } := by
  unfold sealFrame
  exact (foldl_boxSeal_eq _ _).elim fun _ h => ⟨_, _, h⟩

theorem endStreams_eq (s : State) : ∃ streams, endStreams s = { s with streams := streams } := by
  refine foldl_keeps (P := fun m => ∃ streams, m = { s with streams := streams }) _ ?_ _ ⟨s.streams, rfl⟩
  rintro _ e ⟨_, rfl⟩
  dsimp only
  split
  · exact ⟨_, rfl⟩
  · exact ⟨_, rfl⟩

/-- The end of a run changes frame control, the freeze network, the inventory, the streams, the Hatch's dirty pages and the box-room queue. -/
theorem closeRun_eq {s : State} (ckind : Nat) (h : s.runOn = true) :
    ∃ pages streams inv queue, closeRun s ckind =
      { s with frame := s.frame.idle (ckind == 3), freeze := {}, hatch := { s.hatch with dirtyPages := pages }, streams := streams, inv := inv,
               alarms := { s.alarms with boxQueue := queue } } := by
  have hsealed : ∃ pages inv queue, (if s.inFrame then clearDirty (sealFrame s s.frameIndex s.now false (zeros 64)) else s) =
      { s with hatch := { s.hatch with dirtyPages := pages }, inv := inv, alarms := { s.alarms with boxQueue := queue } } := by
    split
    · obtain ⟨_, _, h⟩ := sealFrame_eq s s.frameIndex s.now false (zeros 64)
      exact ⟨_, _, _, by rw [h]; rfl⟩
    · exact ⟨_, _, _, rfl⟩
  obtain ⟨pages, inv, queue, h1⟩ := hsealed
  obtain ⟨_, h2⟩ := endStreams_eq { s with
    hatch := { s.hatch with dirtyPages := pages }, inv := inv, alarms := { s.alarms with boxQueue := queue } }
  unfold closeRun
  rw [if_neg (by simp [h])]
  dsimp only
  rw [h1, h2]
  exact ⟨_, _, _, _, rfl⟩

/-! ### Final replies of outstanding commands (R416) -/

/-- Nothing but the outstanding commands, the reply queue and the count of lost replies differs. -/
def RepliesFrom (s t : State) : Prop := ∃ out queue lost, t = { s with cmd := { s.cmd with out := out, queue := queue, repliesLost := lost } }

theorem RepliesFrom.refl (s : State) : RepliesFrom s s := ⟨_, _, _, rfl⟩

theorem RepliesFrom.trans {s t u : State} (h : RepliesFrom s t) (h' : RepliesFrom t u) : RepliesFrom s u := by
  obtain ⟨_, _, _, rfl⟩ := h
  obtain ⟨_, _, _, rfl⟩ := h'
  exact ⟨_, _, _, rfl⟩

theorem repliesFrom_finishCommand (s : State) (opcode status reason : Nat) (results : List (Nat × Byte)) :
    RepliesFrom s (finishCommand s opcode status reason results) := finishCommand_eq ..

theorem repliesFrom_failRunControl (s : State) (reason : Nat) (abort : Bool) : RepliesFrom s (failRunControl s reason abort) := by
  have hthree := ((repliesFrom_finishCommand s 0x31 stFaulted reason []).trans (repliesFrom_finishCommand _ 0x34 stFaulted reason [])).trans
    (repliesFrom_finishCommand _ 0x32 stFaulted reason [])
  unfold failRunControl
  dsimp only
  split
  · exact hthree.trans (repliesFrom_finishCommand _ 0x33 stFaulted reason [])
  · exact hthree

theorem repliesFrom_failAll (s : State) (reason spare : Nat) : RepliesFrom s (failAll s reason spare) :=
  foldl_keeps (P := RepliesFrom s) _ (fun _ _ hm => hm.trans (repliesFrom_finishCommand ..)) _ (.refl s)

/-! ### Stops and faults (R45, R46, R85) -/

/-- A package whose run has ended: frame control is idle with `STOPPED` set, and beside it only the freeze network, the ports' notes, the
inventory, the streams, the alarms, the events and the command window may differ. -/
def EndsRun (s t : State) (d : DevState) : Prop :=
  ∃ ports seqs drops reversals pages streams inv alarms events alertN cmd, t =
    { s with dev := d, frame := s.frame.idle true, freeze := {}, ports := ports, noteSeqs := seqs,
             fabric := { s.fabric with noteDrops := drops, noteReversals := reversals }, hatch := { s.hatch with dirtyPages := pages },
             streams := streams, inv := inv, alarms := alarms, sec := { s.sec with events := events }, pins := { s.pins with alertN := alertN },
             cmd := cmd } ∧ ∀ p, NotesOnly (spGet {} ports p) (s.port p)

theorem EndsRun.dev {s t : State} {d : DevState} (h : EndsRun s t d) : t.dev = d := by
  obtain ⟨_, _, _, _, _, _, _, _, _, _, _, rfl, -⟩ := h
  rfl

theorem EndsRun.stopped {s t : State} {d : DevState} (h : EndsRun s t d) : t.frame.stopped = true := by
  obtain ⟨_, _, _, _, _, _, _, _, _, _, _, rfl, -⟩ := h
  rfl

theorem EndsRun.landQueue {s t : State} {d : DevState} (h : EndsRun s t d) : t.landQueue = s.landQueue := by
  obtain ⟨_, _, _, _, _, _, _, _, _, _, _, rfl, -⟩ := h
  rfl

theorem EndsRun.ports {s t : State} {d : DevState} (h : EndsRun s t d) (p : Nat) : NotesOnly (t.port p) (s.port p) := by
  obtain ⟨_, _, _, _, _, _, _, _, _, _, _, rfl, hp⟩ := h
  exact hp p

theorem endsRun_enterStopped {s : State} (reason : Nat) (h : s.runOn = true) :
    EndsRun s (enterStopped s reason) .held ∧ (enterStopped s reason).alarms.latch = s.alarms.latch := by
  obtain ⟨_, _, _, _, hclose⟩ := closeRun_eq 3 h
  unfold enterStopped
  rw [if_neg (by simp [h]), hclose]
  dsimp only
  obtain ⟨_, _, _, hdev⟩ := setDev_eq _ _
  obtain ⟨_, _, _, hr⟩ := (repliesFrom_finishCommand _ 0x30 stFaulted reason (resFrame s.frame.lastClean)).trans
    (repliesFrom_failRunControl _ reason true)
  rw [hr, hdev]
  exact ⟨⟨_, _, _, _, _, _, _, _, _, _, _, rfl, fun _ => .refl _⟩, rfl⟩

theorem endsRun_faultClose {s : State} (reason : Nat) (h : s.runOn = true) :
    EndsRun s (faultClose s reason) .faulted ∧ (faultClose s reason).alarms.latch = s.alarms.latch := by
  obtain ⟨_, _, _, _, _, _, hstop, hp⟩ := sendStop_eq s reason
  obtain ⟨_, _, _, _, hclose⟩ := closeRun_eq (s := sendStop s reason) 3 (by rw [hstop]; exact h)
  unfold faultClose
  dsimp only
  rw [hclose, hstop]
  obtain ⟨_, _, _, hdev⟩ := setDev_eq _ _
  rw [hdev]
  obtain ⟨_, _, _, hr⟩ := repliesFrom_failAll _ _ _
  rw [hr]
  exact ⟨⟨_, _, _, _, _, _, _, _, _, _, _, rfl, hp⟩, rfl⟩

/-- A fault that ends the run is latched where the latch takes it. -/
theorem endsRun_enterFaulted {s : State} (f : FaultRec) (source : Nat) (h : s.runOn = true) :
    EndsRun s (enterFaulted s f source) .faulted ∧
      (s.latchTakes f = true → ∃ l, (enterFaulted s f source).alarms.latch = some l ∧ l.record = f) := by
  obtain ⟨a, e, l, hlatch, htakes, -⟩ := latchFault_eq s f source
  obtain ⟨hends, hkept⟩ := endsRun_faultClose (s := latchFault s f source) f.reason (by rw [hlatch]; exact h)
  unfold enterFaulted
  rw [if_neg (by simp [h])]
  refine ⟨?_, fun ht => ?_⟩
  · obtain ⟨_, _, _, _, _, _, _, _, _, _, _, ht, hp⟩ := hends
    rw [hlatch] at hp
    rw [ht, hlatch]
    exact ⟨_, _, _, _, _, _, _, _, _, _, _, rfl, hp⟩
  · obtain ⟨x, hx, hrec, -⟩ := htakes ht
    rw [hkept, hlatch]
    exact ⟨x, hx, hrec⟩

/-- A free latch takes every fault. -/
theorem latchTakes_of_free {s : State} (f : FaultRec) (h : s.alarms.latch = none) : s.latchTakes f = true := by
  unfold State.latchTakes
  rw [h]

/-- A device fault during a run is counted, and ends the run. -/
theorem endsRun_deviceFault {s : State} (reason source : Nat) (h : s.runOn = true) :
    EndsRun { s with stats := { s.stats with faults := satInc s.stats.faults } } (deviceFault s reason source) .faulted ∧
      (s.alarms.latch = none → ∃ l, (deviceFault s reason source).alarms.latch = some l ∧ l.record = s.deviceRec reason source) := by
  obtain ⟨hends, hlatch⟩ := endsRun_enterFaulted (s := { s with stats := { s.stats with faults := satInc s.stats.faults } })
    (s.deviceRec reason source) source h
  unfold deviceFault
  rw [if_neg (by simp [h])]
  exact ⟨hends, fun hl => hlatch (latchTakes_of_free _ hl)⟩

/-- An own stop at once ends the run in `HELD`. -/
theorem endsRun_stopNow {s : State} (reason : Nat) (h : s.runOn = true) : EndsRun s (stopNow s reason) .held := by
  obtain ⟨_, _, _, hlatch, -, -⟩ := latchFault_eq s (s.deviceRec reason 0) 0
  obtain ⟨_, _, _, _, _, _, hsent, hp⟩ := sendStop_eq (latchFault s (s.deviceRec reason 0) 0) reason
  obtain ⟨hends, -⟩ := endsRun_enterStopped (s := sendStop (latchFault s (s.deviceRec reason 0) 0) reason) reason (by rw [hsent, hlatch]; exact h)
  unfold stopNow
  rw [if_neg (by simp [h])]
  obtain ⟨_, _, _, _, _, _, _, _, _, _, _, ht, hp'⟩ := hends
  rw [hsent, hlatch] at hp'
  rw [hlatch] at hp
  rw [ht, hsent, hlatch]
  exact ⟨_, _, _, _, _, _, _, _, _, _, _, rfl, fun p => (hp' p).trans (hp p)⟩

end Sys2Proof.Machine
end

section
/-! PROOFS. The begin and the end of a frame, and freezes (R34 to R38, R53, R54, R80, R85, R131). -/

namespace Sys2Proof.Machine

open Sys2Proof

/-! ### All cores brought to a cycle -/

/-- What the steps of bringing a core to a cycle keep, bringing it there keeps. -/
theorem settle_keeps {P : State → Prop} {c : Nat} (hdevice : ∀ m w, P m → P (m.applyDevice w)) (hcore : ∀ m k, P m → P (m.setCore c k))
    (hbuffer : ∀ m f, P m → P (m.emptyBuffer c f)) (hraise : ∀ m unit pc cycle f, P m → P (raiseCore m c unit pc cycle f)) {s : State} (t : Nat)
    (h : P s) : P (settle s c t) := by
  have hdev : P (settleDevice s c t) := by
    unfold settleDevice
    dsimp only
    split
    · exact h
    · exact foldl_keeps _ hdevice _ (hcore _ _ h)
  exact foldl_keeps _ (fun m _ hm => hraise m _ _ _ _ hm) _ (hcore _ _ (foldl_keeps _ hbuffer _ hdev))

/-- Bringing a core to a cycle neither holds nor releases the package. -/
theorem settle_held (s : State) (c t : Nat) : (settle s c t).freeze.held = s.freeze.held := by
  refine settle_keeps (P := fun m => m.freeze.held = s.freeze.held) ?_ (fun _ _ h => h) ?_ (fun _ _ _ _ _ h => h) t rfl
  · intro m w h
    obtain ⟨_, _, hw⟩ := applyDevice_eq m w
    rw [hw]
    exact h
  · intro m f h
    unfold State.emptyBuffer
    split
    · exact h
    · exact h

theorem settlesFrom_settleAll (s : State) (t : Nat) : SettlesFrom s (settleAll s t) :=
  settlesFrom_foldl (.refl s) (fun m c => settlesFrom_settle m c t) _

theorem settleAll_held (s : State) (t : Nat) : (settleAll s t).freeze.held = s.freeze.held :=
  foldl_keeps (P := fun m => m.freeze.held = s.freeze.held) _ (fun m c h => (settle_held m c t).trans h) _ rfl

/-! ### Operations on each core -/

/-- What an operation does to its own core, and composes, a fold of it does to each core of the list. -/
theorem core_foldl_each {R : Core → Core → Prop} {I : State → Prop} {f : State → Nat → State} (htrans : ∀ {a b c}, R a b → R b c → R a c)
    (hI : ∀ m d, I m → I (f m d)) (hself : ∀ m c, I m → R (m.core c) ((f m c).core c)) (hother : ∀ m c d, d ≠ c → (f m d).core c = m.core c)
    {l : List Nat} {s : State} {c : Nat} (hs : I s) (hc : c ∈ l) : R (s.core c) ((l.foldl f s).core c) := by
  induction l generalizing s with
  | nil => simp at hc
  | cons d l ih =>
    rw [List.foldl_cons]
    by_cases hl : c ∈ l
    · by_cases hd : d = c
      · subst hd
        exact htrans (hself s d hs) (ih (hI s d hs) hl)
      · have := ih (hI s d hs) hl
        rwa [hother s c d hd] at this
    · have hd : c = d := by simpa [hl] using hc
      subst hd
      have hkeep : ∀ l : List Nat, c ∉ l → ∀ m, (l.foldl f m).core c = m.core c := by
        intro l
        induction l with
        | nil => exact fun _ _ => rfl
        | cons e l ih' =>
          intro hl m
          rw [List.foldl_cons, ih' (fun h => hl (by simp [h])), hother m c e (fun h => hl (by simp [h]))]
      rw [hkeep l hl]
      exact hself s c hs

/-- What is not the default stands in the map. -/
theorem mem_of_spGet_ne {α : Type} {d : α} {m : List (Nat × α)} {k : Nat} (h : spGet d m k ≠ d) : (k, spGet d m k) ∈ m := by
  induction m with
  | nil => exact absurd rfl h
  | cons e m ih =>
    obtain ⟨k', v⟩ := e
    unfold spGet at h ⊢
    split
    next hk => simp [hk]
    next hk =>
      rw [if_neg hk] at h
      exact List.mem_cons_of_mem _ (ih h)

/-- A core with a section is one that the timetable uses. -/
theorem mem_usedCores {s : State} {c : Nat} (h : (s.core c).section_ = true) : c ∈ s.usedCores := by
  have hne : spGet {} s.cores c ≠ ({} : Core) := fun he => by
    rw [State.core, he] at h
    exact absurd h (by decide)
  exact List.mem_map.mpr ⟨_, List.mem_filter.mpr ⟨mem_of_spGet_ne hne, h⟩, rfl⟩

/-! ### The end of the schedule (R38, R53) -/

/-- A core that has ended and has posted all of its flows passes the checks of cycle *E* − 1. -/
theorem endChecks_passes {s : State} {c : Nat}
    (h : (s.core c).halted = true ∨ ((s.core c).ended = true ∧ ∀ f ∈ (s.core c).flows, f.posted = 0 ∨ f.count ≤ f.posted)) : endChecks s c = s := by
  unfold endChecks
  dsimp only
  rcases h with h | ⟨hended, hflows⟩
  · rw [if_pos h]
  · have hnone : (s.core c).flows.find? (fun f => decide (0 < f.posted) && decide (f.posted < f.count)) = none := by
      rw [List.find?_eq_none]
      intro f hf
      have := hflows f hf
      simp only [Bool.and_eq_true, decide_eq_true_eq]
      omega
    simp [hended, hnone]

/-- A device that sends no hold has no ready note to send. -/
theorem sendReady_of_no_hold {s : State} (h : s.frame.holdOut = false) : sendReady s = s := by
  unfold sendReady
  split
  · simp [h]
  · rfl

theorem countWear_eq (s : State) : ∃ mgmt, countWear s = { s with mgmt := mgmt } := by
  unfold countWear
  split
  · exact ⟨_, rfl⟩
  · exact ⟨_, rfl⟩

/-- The package with the programs of cores `l` ended. -/
def withoutPrograms (l : List Nat) (s : State) : State := l.foldl (fun m c => m.setCore c { m.core c with progs := [] }) s

theorem core_withoutPrograms {l : List Nat} {c : Nat} (s : State) (h : c ∈ l) : ((withoutPrograms l s).core c).progs = [] :=
  core_foldl_each (R := fun _ k => k.progs = []) (I := fun _ => True) (fun _ h => h) (fun _ _ _ => trivial)
    (fun m c _ => by rw [State.core_setCore_self]) (fun m c d h => core_setCore_ne _ h) trivial h

theorem withoutPrograms_eq (l : List Nat) (s : State) : ∃ cores, withoutPrograms l s = { s with cores := cores } := by
  refine foldl_keeps (P := fun m => ∃ cores, m = { s with cores := cores }) _ ?_ l ⟨s.cores, rfl⟩
  rintro _ c ⟨_, rfl⟩
  exact ⟨_, rfl⟩

/-- SCHEDULE_END with every core ended and every posted flow complete. -/
theorem exec_scheduleEnd {s : State} (hcy : s.cycling = true) (hfault : s.freeze.faultAt = none) (hheld : s.freeze.held = none)
    (hhold : s.frame.holdOut = false) {z : State} (hz : settleAll (s.advanceTo (s.cycleTime s.frame.e)) s.frame.e = z) (hzf : z.freeze.faultAt = none)
    (hcores : ∀ c ∈ z.usedCores, (z.core c).halted = true ∨
      ((z.core c).ended = true ∧ ∀ f ∈ (z.core c).flows, f.posted = 0 ∨ f.count ≤ f.posted)) :
    ∃ t, exec .scheduleEnd s = .next t ∧ t.frame.tickWait = true ∧ t.frame.completedAt = some t.now ∧ t.fabric.curCycle = s.frame.e ∧
      ∀ c, (z.core c).section_ = true → (t.core c).progs = [] := by
  have hchecks : ∀ l : List Nat, (∀ c ∈ l, c ∈ z.usedCores) → l.foldl endChecks z = z := by
    intro l
    induction l with
    | nil => exact fun _ => rfl
    | cons c l ih =>
      intro hl
      rw [List.foldl_cons, endChecks_passes (hcores c (hl c (by simp)))]
      exact ih fun d hd => hl d (by simp [hd])
  have hzhold : z.frame.holdOut = false := by
    obtain ⟨_, hadv⟩ := s.advanceTo_eq (s.cycleTime s.frame.e)
    obtain ⟨_, _, _, _, _, _, hset⟩ := settlesFrom_settleAll (s.advanceTo (s.cycleTime s.frame.e)) s.frame.e
    rw [← hz, hset, hadv]
    exact hhold
  obtain ⟨cores, hw⟩ := withoutPrograms_eq z.usedCores z
  obtain ⟨mgmt, hwear⟩ := countWear_eq (withoutPrograms z.usedCores z)
  have hrun : execScheduleEnd s = .next (sendReady { countWear (withoutPrograms z.usedCores z) with
      frame := { (withoutPrograms z.usedCores z).frame with tickWait := true, completedAt := some (withoutPrograms z.usedCores z).now },
      fabric := { (withoutPrograms z.usedCores z).fabric with curCycle := s.frame.e } }) := by
    rw [execScheduleEnd]
    simp only [hcy, hfault, hheld, hz, hchecks z.usedCores (fun _ h => h), hzf, Option.isSome_none, Bool.not_true, Bool.or_false,
      Bool.false_eq_true, if_false]
    rfl
  refine ⟨_, hrun, ?_⟩
  rw [sendReady_of_no_hold (by rw [hw]; exact hzhold), hwear]
  refine ⟨rfl, rfl, rfl, fun c hc => core_withoutPrograms z (mem_usedCores hc)⟩

/-! ### Cycle 0 (R38, R53, R54, R131) -/

/-- Core `k` at cycle 0 of frame `n`: at its entry, with every register ready and its sync flags clear; what a frame does not reset is that of
core `a`. -/
def Starts (n : Nat) (a k : Core) : Prop :=
  k.pc = a.entries.getD (n % Nat.max a.entries.length 1) 0 ∧ k.entries = a.entries ∧ k.cyc = 0 ∧ k.ended = false ∧ k.tags = [] ∧ k.sflags = [] ∧
    k.sregs = a.sregs ∧ k.vregs = a.vregs ∧ k.pregs = a.pregs ∧ k.tiles = a.tiles ∧ k.aflags = a.aflags ∧ k.shelf = a.shelf ∧ k.attic = a.attic

theorem Starts.trans {n : Nat} {a b c : Core} (h : Starts n a b) (h' : Starts n b c) : Starts n a c := by
  obtain ⟨-, hentries, -, -, -, -, hs, hv, hp, ht, ha, hshelf, hattic⟩ := h
  obtain ⟨hpc, hentries', hcyc, hended, htags, hsflags, hs', hv', hp', ht', ha', hshelf', hattic'⟩ := h'
  exact ⟨by rw [hpc, hentries], hentries'.trans hentries, hcyc, hended, htags, hsflags, hs'.trans hs, hv'.trans hv, hp'.trans hp, ht'.trans ht,
    ha'.trans ha, hshelf'.trans hshelf, hattic'.trans hattic⟩

theorem starts_startFrame (k : Core) (n free : Nat) : Starts n k (k.startFrame n free) :=
  ⟨rfl, rfl, rfl, rfl, rfl, rfl, rfl, rfl, rfl, rfl, rfl, rfl, rfl⟩

/-- Core `c` starts the frame and draws its staging. -/
def startCore (m : State) (c : Nat) : State := State.useFree (m.setCore c ((m.core c).startFrame m.frameIndex m.freeCtr)) 4096

theorem core_startCores {l : List Nat} {c : Nat} (s : State) (h : c ∈ l) : Starts s.frameIndex (s.core c) ((l.foldl startCore s).core c) := by
  refine core_foldl_each (R := Starts s.frameIndex) (f := startCore) (I := fun m => m.frameIndex = s.frameIndex) Starts.trans (fun _ _ h => h) ?_
    (fun m c d h => core_setCore_ne _ h) rfl h
  intro m c hm
  have hcore : (startCore m c).core c = (m.core c).startFrame m.frameIndex m.freeCtr := State.core_setCore_self ..
  rw [hcore, hm]
  exact starts_startFrame ..

/-- FRAME_START in tick wait. -/
theorem exec_frameStart {s : State} (hrun : s.inRun = true) (htaken : s.frame.tickTaken = true) (hwait : s.frame.tickWait = true) :
    ∃ t, exec .frameStart s = .next t ∧ t.frame.tickWait = false ∧ t.frame.tickTaken = false ∧ t.fabric.curCycle = 0 ∧ t.pathUses = [] ∧
      ∀ c ∈ s.usedCores, Starts s.frameIndex (s.core c) (t.core c) := by
  obtain ⟨time, hadv⟩ := s.advanceTo_eq (s.frame.tick + 256)
  have hstart : execFrameStart s = .next (startControllers { s.usedCores.foldl startCore { s with time := time } with
      frame := { (s.usedCores.foldl startCore { s with time := time }).frame with tickWait := false, tickTaken := false, ranOnce := true },
      contexts := spMap {} (fun g => { g with ready := 0 }) (s.usedCores.foldl startCore { s with time := time }).contexts, pathUses := [],
      fabric := { (s.usedCores.foldl startCore { s with time := time }).fabric with curCycle := 0 } }) := by
    rw [execFrameStart, hadv]
    simp only [hrun, htaken, hwait, Bool.not_true, Bool.or_false, Bool.false_eq_true, if_false]
    rfl
  exact ⟨_, hstart, rfl, rfl, rfl, rfl, fun c hc => core_startCores { s with time := time } hc⟩

/-- Settles O22. -/
theorem framesBeginAndEnd : Obligations.FramesBeginAndEnd := by
  refine ⟨fun s hcy hfault hheld hhold hzf hcores => ?_, fun s hrun htaken hwait => ?_⟩
  · exact exec_scheduleEnd hcy hfault hheld hhold rfl hzf hcores
  · obtain ⟨t, ht, hwait', htaken', hcyc, hpaths, hstarts⟩ := exec_frameStart hrun htaken hwait
    refine ⟨t, ht, hwait', htaken', hcyc, hpaths, fun c hc => ?_⟩
    obtain ⟨hpc, -, hcyc, hended, htags, hsflags, hs, hv, hp, ht, ha, hshelf, hattic⟩ := hstarts c hc
    exact ⟨hpc, hcyc, hended, htags, hsflags, hs, hv, hp, ht, ha, hshelf, hattic⟩

/-! ### Freezes halt and resume (R34 to R37) -/

/-- FREEZE_HALT of a freeze that no fault halt comes before. -/
theorem exec_freezeHalt {s : State} {h : Nat} (hcy : s.cycling = true) (hheld : s.freeze.held = some h) (hhalted : s.freeze.halted = false)
    (hfault : ∀ f, s.freeze.faultAt = some f → h < f) (hfault' : ∀ f, (settleAll s h).freeze.faultAt = some f → h < f) :
    ∃ t, exec .freezeHalt s = .next t ∧ t.freeze.halted = true ∧ t.freeze.held = some h ∧ t.fabric.freezes = s.fabric.freezes + 1 ∧
      t.fabric.curCycle = h ∧ t.freeze.startMt = t.now := by
  have hheld' := settleAll_held s h
  obtain ⟨_, _, _, _, freeze, _, hset⟩ := settlesFrom_settleAll s h
  obtain ⟨time, hadv⟩ := (settleAll s h).advanceTo_eq (s.cycleTime h)
  have hrun : execFreezeHalt s = .next { settleAll s h with
      time := time, freeze := { (settleAll s h).freeze with halted := true, startMt := ({ settleAll s h with time := time } : State).now },
      fabric := { (settleAll s h).fabric with freezes := (settleAll s h).fabric.freezes + 1, curCycle := h } } := by
    rw [execFreezeHalt]
    simp only [hheld]
    rw [if_neg, if_neg, hadv]
    · split
      next f hf => simpa using hfault' f hf
      next => simp
    · rw [hcy, hhalted]
      split
      next f hf => simpa using hfault f hf
      next => decide
  refine ⟨_, hrun, rfl, hheld'.trans hheld, ?_, rfl, rfl⟩
  rw [hset]

/-- The flags of a freeze's causes are looked at again: only cores change. -/
theorem foldl_rearm_eq (h : Nat) (l : List FreezeReq) (s : State) : ∃ cores, l.foldl (rearm h) s = { s with cores := cores } := by
  refine foldl_keeps (P := fun m => ∃ cores, m = { s with cores := cores }) _ ?_ l ⟨s.cores, rfl⟩
  rintro _ r ⟨cores, rfl⟩
  unfold rearm
  dsimp only
  split
  · exact ⟨cores, rfl⟩
  · split
    · exact ⟨_, rfl⟩
    · exact ⟨_, rfl⟩

/-- FREEZE_RESUME once every flag awaited is set. -/
theorem exec_freezeResume {s : State} {h : Nat} (p : Nat) (hcy : s.cycling = true) (hheld : s.freeze.held = some h) (hhalted : s.freeze.halted = true)
    (hset : ∀ r ∈ (settleAll s h).freeze.reqs, (settleAll s h).stillWaits r = false) :
    ∃ t, exec (.freezeResume p) s = .next t ∧ t.freeze.held = none ∧ t.freeze.halted = false ∧ t.freeze.reqs = [] ∧
      t.fabric.frozenCycles = s.fabric.frozenCycles + BitVec.ofNat 64 (Nat.max p 1) ∧
      t.fabric.frameFrozen = s.fabric.frameFrozen + BitVec.ofNat 32 (Nat.max p 1) := by
  have hleft : (settleAll s h).freeze.reqs.filter (settleAll s h).stillWaits = [] := by
    rw [List.filter_eq_nil_iff]
    exact fun r hr => by simp [hset r hr]
  obtain ⟨_, _, _, _, _, _, hsettled⟩ := settlesFrom_settleAll s h
  have hfabric : (settleAll s h).fabric = s.fabric := by rw [hsettled]
  have hrun : ∃ u, execFreezeResume p s = .next u ∧ u.freeze.held = none ∧ u.freeze.halted = false ∧ u.freeze.reqs = [] ∧
      u.fabric = (addFrozen (settleAll s h) (Nat.max p 1)).fabric := by
    rw [execFreezeResume]
    simp only [hheld, hcy, hhalted, hleft, Bool.not_true, Bool.or_false, Bool.false_eq_true, if_false, List.isEmpty_nil]
    refine ⟨_, rfl, ?_⟩
    generalize addFrozen (settleAll s h) (Nat.max p 1) = m
    obtain ⟨_, _, hbox⟩ := boxEvent_eq m 1 (leBytes 4 h ++ leBytes 4 (Nat.max p 1) ++ leBytes 1 m.freeze.causeBits ++
      leBytes 4 ((m.freeze.causes.head?).elim 0 (·.core)))
    rw [hbox]
    obtain ⟨_, hrearm⟩ := foldl_rearm_eq h m.freeze.causes _
    rw [hrearm]
    obtain ⟨_, hadv⟩ := State.advanceTo_eq _ _
    rw [hadv]
    exact ⟨rfl, rfl, rfl, rfl⟩
  obtain ⟨u, hu, hnone, hgo, hreqs, hfab⟩ := hrun
  refine ⟨u, hu, hnone, hgo, hreqs, ?_, ?_⟩
  · rw [hfab, ← hfabric]
    rfl
  · rw [hfab, ← hfabric]
    rfl

/-! ### Freezes that last too long (R37, R42) -/

/-- Nothing differs but a device's notes, its hold counts, what frame control remembers of its hold, and an event. -/
def HoldFrom (s t : State) : Prop :=
  ∃ ports seqs drops reversals sent joined holdOut pauseSent queue lost, t =
    { s with ports := ports, noteSeqs := seqs,
             fabric := { s.fabric with noteDrops := drops, noteReversals := reversals, holdsSent := sent, holdsJoined := joined },
             frame := { s.frame with holdOut := holdOut, pauseSent := pauseSent },
             alarms := { s.alarms with boxQueue := queue, lostEvent := lost } }

theorem HoldFrom.trans {s t u : State} (h : HoldFrom s t) (h' : HoldFrom t u) : HoldFrom s u := by
  obtain ⟨_, _, _, _, _, _, _, _, _, _, rfl⟩ := h
  obtain ⟨_, _, _, _, _, _, _, _, _, _, rfl⟩ := h'
  exact ⟨_, _, _, _, _, _, _, _, _, _, rfl⟩

theorem NotesFrom.hold {s t : State} (h : NotesFrom s t) : HoldFrom s t := by
  obtain ⟨_, _, _, _, rfl, -⟩ := h
  exact ⟨_, _, _, _, _, _, _, _, _, _, rfl⟩

theorem holdFrom_boxEvent (s : State) (kind : Nat) (body : List Byte) : HoldFrom s (boxEvent s kind body) := by
  obtain ⟨_, _, h⟩ := boxEvent_eq s kind body
  rw [h]
  exact ⟨_, _, _, _, _, _, _, _, _, _, rfl⟩

/-- No ready note goes before the frame is complete. -/
theorem sendReady_of_incomplete {s : State} (h : s.frame.completedAt = none) : sendReady s = s := by
  unfold sendReady State.proposal
  rw [h]
  rfl

theorem holdFrom_sendHold {s : State} (cause : Nat) (pause : Bool) (h : s.frame.completedAt = none) :
    HoldFrom s (sendHold s cause pause) := by
  have hcount : ∀ m : State, HoldFrom m { m with fabric :=
      (if cause = 5 then { m.fabric with holdsJoined := m.fabric.holdsJoined + 1 } else { m.fabric with holdsSent := m.fabric.holdsSent + 1 }) } := by
    intro m
    split
    · exact ⟨_, _, _, _, _, _, _, _, _, _, rfl⟩
    · exact ⟨_, _, _, _, _, _, _, _, _, _, rfl⟩
  have hrefl : HoldFrom s s := ⟨_, _, _, _, _, _, _, _, _, _, rfl⟩
  have hframe : ∀ (m : State) (out sent : Bool), HoldFrom m { m with frame := { m.frame with holdOut := out, pauseSent := sent } } :=
    fun m out sent => ⟨_, _, _, _, _, _, _, _, _, _, rfl⟩
  unfold sendHold
  dsimp only
  split
  · exact hrefl
  · split
    · split
      · exact (((hframe s s.frame.holdOut true).trans (sendNote_eq ..).hold).trans (hcount _)).trans (holdFrom_boxEvent ..)
      · exact hrefl
    · have hsent := (((hframe s true pause).trans (sendNote_eq _ 0x10 none (holdPayload s.frameIndex cause pause)).hold).trans (hcount _)).trans
        (holdFrom_boxEvent _ 2 (leBytes 8 s.frameIndex ++ leBytes 1 cause ++ leBytes 1 (b2n (cause == 5))))
      rw [sendReady_of_incomplete]
      · exact hsent
      · obtain ⟨_, _, _, _, _, _, _, _, _, _, hs⟩ := hsent
        rw [hs]
        exact h

/-- FREEZE_OVER of a frozen package that has not been counted in this frame. -/
theorem exec_freezeOver {s : State} (hin : s.inFrame = true) (hover : s.freeze.overThis = false) (hhalted : s.freeze.halted = true)
    (hcomplete : s.frame.completedAt = none) :
    ∃ t, exec .freezeOver s = .next t ∧ t.freeze.overThis = true ∧ t.fabric.freezeOver = s.fabric.freezeOver + 1 := by
  have hrun : ∃ m : State, execFreezeOver s = .next (if m.now ≤ m.horizon then sendHold m 2 false else m) ∧ m.frame = s.frame ∧
      m.freeze.overThis = true ∧ m.fabric.freezeOver = s.fabric.freezeOver + 1 := by
    obtain ⟨time, hadv⟩ := s.advanceTo_eq
      (s.freeze.startMt + ceilDiv ((s.fabric.freezeAllow + 1 - s.fabric.frameFrozen.toNat) * 1000000) s.rate)
    rw [execFreezeOver]
    simp only [hin, hover, hhalted, hadv, Bool.not_true, Bool.or_false, Bool.true_or, Bool.false_eq_true, if_false, if_true]
    exact ⟨_, rfl, rfl, rfl, rfl⟩
  obtain ⟨m, hrun, hframe, hover', hcount⟩ := hrun
  refine ⟨_, hrun, ?_⟩
  split
  · obtain ⟨_, _, _, _, _, _, _, _, _, _, hsent⟩ := holdFrom_sendHold (s := m) 2 false (by rw [hframe]; exact hcomplete)
    rw [hsent]
    exact ⟨hover', hcount⟩
  · exact ⟨hover', hcount⟩

/-- A package that executes cycles has a run on. -/
theorem runOn_of_cycling {s : State} (h : s.cycling = true) : s.runOn = true := by
  have hrun : s.inRun = true := by
    unfold State.cycling at h
    simp only [Bool.and_eq_true] at h
    exact h.1.1.1
  unfold State.runOn
  rw [hrun]
  rfl

/-- A fault found at a freeze ends the run, and is latched with its reason, core and object where the latch is free. -/
theorem freezeFault_latched {s : State} (r : FreezeReq) (periods source : Nat) (f : FaultRec) (hrun : s.runOn = true)
    (hlatch : s.alarms.latch = none) :
    (freezeFault s r periods source f).dev = .faulted ∧ (freezeFault s r periods source f).frame.stopped = true ∧
      ∃ l, (freezeFault s r periods source f).alarms.latch = some l ∧ l.record.reason = f.reason ∧ l.record.lcore = r.core ∧
        l.record.object = f.object := by
  unfold freezeFault
  obtain ⟨hends, htakes⟩ := endsRun_enterFaulted
    (s := addFrozen { s with stats := { s.stats with faults := satInc s.stats.faults } } periods) _ source hrun
  obtain ⟨l, hl, hrec⟩ := htakes (latchTakes_of_free _ hlatch)
  exact ⟨hends.dev, hends.stopped, l, hl, by rw [hrec]; rfl, by rw [hrec]; rfl, by rw [hrec]; rfl⟩

/-- CIRCULAR_WAIT of a freeze that only sync flags caused. -/
theorem exec_circularWait {s : State} {h : Nat} {r : FreezeReq} (hcy : s.cycling = true) (hheld : s.freeze.held = some h)
    (hhalted : s.freeze.halted = true) (hcauses : s.freeze.causes.any (·.arrival) = false)
    (hr : lowestReq (s.freeze.reqs.filter s.stillWaits) = some r) (hlatch : s.alarms.latch = none) :
    ∃ t l, exec .circularWait s = .next t ∧ t.dev = .faulted ∧ t.frame.stopped = true ∧ t.alarms.latch = some l ∧
      l.record.reason = 0x0201 ∧ l.record.lcore = r.core ∧ l.record.object = 0x4000 + r.flag := by
  obtain ⟨time, hadv⟩ := s.advanceTo_eq (s.freeze.startMt + ceilDiv ((s.fabric.freezeAllow + 1) * 1000000) s.rate)
  have hrun : ∃ f : FaultRec, execCircularWait s = .next (freezeFault { s with time := time } r (s.fabric.freezeAllow + 1) r.core f) ∧
      f.reason = 0x0201 ∧ f.object = obj 4 r.flag := by
    unfold execCircularWait
    simp only [hr, hheld, hcy, hhalted, hcauses, hadv, Bool.not_true, Bool.or_false, Bool.false_eq_true, if_false]
    exact ⟨_, rfl, rfl, rfl⟩
  obtain ⟨f, hrun, hreason, hobject⟩ := hrun
  obtain ⟨hdev, hstopped, l, hl, hreason', hcore, hobject'⟩ := freezeFault_latched (s := { s with time := time }) r (s.fabric.freezeAllow + 1)
    r.core f (runOn_of_cycling hcy) hlatch
  exact ⟨_, l, hrun, hdev, hstopped, hl, hreason'.trans hreason, hcore, hobject'.trans hobject⟩

/-- ARRIVAL_TIMEOUT of a freeze with an arrival cause. -/
theorem exec_arrivalTimeout {s : State} {h : Nat} {r : FreezeReq} (hcy : s.cycling = true) (hheld : s.freeze.held = some h)
    (hhalted : s.freeze.halted = true) (hr : lowestReq ((s.freeze.reqs.filter s.stillWaits).filter (·.arrival)) = some r)
    (hlatch : s.alarms.latch = none) :
    ∃ t l, exec .arrivalTimeout s = .next t ∧ t.dev = .faulted ∧ t.frame.stopped = true ∧ t.alarms.latch = some l ∧
      l.record.reason = 0x0202 ∧ l.record.lcore = r.core ∧ l.record.object = 0x5000 + r.flag := by
  obtain ⟨time, hadv⟩ := s.advanceTo_eq (s.freeze.startMt + s.fabric.arrivalLimit * 1024)
  have hrun : ∃ (n : Nat) (f : FaultRec), execArrivalTimeout s = .next (freezeFault { s with time := time } r n r.core f) ∧ f.reason = 0x0202 ∧
      f.object = obj 5 r.flag := by
    unfold execArrivalTimeout
    simp only [hr, hheld, hcy, hhalted, hadv, Bool.not_true, Bool.or_false, Bool.false_eq_true, if_false]
    exact ⟨_, _, rfl, rfl, rfl⟩
  obtain ⟨n, f, hrun, hreason, hobject⟩ := hrun
  obtain ⟨hdev, hstopped, l, hl, hreason', hcore, hobject'⟩ := freezeFault_latched (s := { s with time := time }) r n r.core f
    (runOn_of_cycling hcy) hlatch
  exact ⟨_, l, hrun, hdev, hstopped, hl, hreason'.trans hreason, hcore, hobject'.trans hobject⟩

/-! ### The fault halt (R85, R86) -/

theorem runOn_congr {s t : State} (hdev : t.dev = s.dev) (hframe : t.frame = s.frame) : t.runOn = s.runOn := by
  rw [State.runOn, State.runOn, State.inRun, State.inRun, hdev, hframe]

theorem runOn_advanceTo (s : State) (t : Nat) : (s.advanceTo t).runOn = s.runOn := by
  obtain ⟨_, h⟩ := s.advanceTo_eq t
  rw [h]
  rfl

theorem runOn_settleAll (s : State) (t : Nat) : (settleAll s t).runOn = s.runOn := by
  obtain ⟨_, _, _, _, _, _, h⟩ := settlesFrom_settleAll s t
  exact runOn_congr (by rw [h]) (by rw [h])

/-- Latching faults leaves the device state and frame control. -/
theorem runOn_foldl_latchFault (l : List FaultRec) (s : State) : (l.foldl (fun m f => latchFault m f f.lcore) s).runOn = s.runOn := by
  refine foldl_keeps (P := fun m : State => m.runOn = s.runOn) _ (fun m f hm => ?_) l rfl
  obtain ⟨_, _, _, h, -⟩ := latchFault_eq m f f.lcore
  rw [h]
  exact hm

/-- The faults raised are latched in their order, and the first one ends the run. -/
def faultHalted (m : State) (t : Nat) : State :=
  let m2 := { m with fabric := { m.fabric with curCycle := t } }
  let fs := sortBy FaultRec.rank m2.freeze.raised
  faultClose (fs.foldl (fun m f => latchFault m f f.lcore) m2) ((fs.head?).elim 0 (·.reason))

theorem endsRun_faultHalted {m : State} (t : Nat) (h : m.runOn = true) :
    (faultHalted m t).dev = .faulted ∧ (faultHalted m t).frame.stopped = true := by
  obtain ⟨hends, -⟩ := endsRun_faultClose (s := (sortBy FaultRec.rank m.freeze.raised).foldl (fun m f => latchFault m f f.lcore)
    { m with fabric := { m.fabric with curCycle := t } }) (((sortBy FaultRec.rank m.freeze.raised).head?).elim 0 (·.reason))
    ((runOn_foldl_latchFault _ _).trans h)
  exact ⟨hends.dev, hends.stopped⟩

theorem exec_faultHalt {s : State} {t : Nat} (hcy : s.cycling = true) (hfault : s.freeze.faultAt = some t) :
    ∃ u, exec .faultHalt s = .next u ∧ u.dev = .faulted ∧ u.frame.stopped = true := by
  have hrun : execFaultHalt s = .next (faultHalted ((settleAll s t).advanceTo (s.cycleTime t)) t) := by
    unfold execFaultHalt
    rw [hfault]
    exact if_neg (by simp [hcy])
  exact ⟨_, hrun, endsRun_faultHalted t (by rw [runOn_advanceTo, runOn_settleAll]; exact runOn_of_cycling hcy)⟩

/-- Settles O23. -/
theorem freezesHaltResumeAndFault : Obligations.FreezesHaltResumeAndFault :=
  ⟨fun _ _ p hcy => ⟨exec_freezeHalt hcy, exec_freezeResume p hcy, exec_freezeOver⟩,
    fun _ _ _ hcy => ⟨exec_circularWait hcy, exec_arrivalTimeout hcy, exec_faultHalt hcy⟩⟩

end Sys2Proof.Machine
end

section
/-! PROOFS. Detours, flips and transit plans (R229, R233, R275, R425, R499). -/

namespace Sys2Proof.Machine

open Sys2Proof

/-! ### Ports -/

/-- Nothing but ports differs. -/
def PortsFrom (s t : State) : Prop := ∃ ports, t = { s with ports := ports }

theorem PortsFrom.refl (s : State) : PortsFrom s s := ⟨s.ports, rfl⟩

theorem PortsFrom.trans {s t u : State} (h : PortsFrom s t) (h' : PortsFrom t u) : PortsFrom s u := by
  obtain ⟨_, rfl⟩ := h
  obtain ⟨_, rfl⟩ := h'
  exact ⟨_, rfl⟩

theorem portsFrom_modPort (s : State) (p : Nat) (f : Port → Port) : PortsFrom s (s.modPort p f) := ⟨_, rfl⟩

theorem portsFrom_foldl {β : Type} {f : State → β → State} (hf : ∀ m b, PortsFrom m (f m b)) (l : List β) (s : State) :
    PortsFrom s (l.foldl f s) :=
  foldl_keeps (P := PortsFrom s) f (fun m b hm => hm.trans (hf m b)) l (.refl s)

/-! ### Parcels posted again (R272, R273) -/

/-- The active version, the flip that waits, and the counts of flips and detours are the same. -/
def SameEpoch (s t : State) : Prop :=
  t.fabric.active = s.fabric.active ∧ t.fabric.flipRound = s.fabric.flipRound ∧ t.fabric.flips = s.fabric.flips ∧
    t.fabric.detours = s.fabric.detours

theorem SameEpoch.refl (s : State) : SameEpoch s s := ⟨rfl, rfl, rfl, rfl⟩

theorem SameEpoch.trans {s t u : State} (h : SameEpoch s t) (h' : SameEpoch t u) : SameEpoch s u :=
  ⟨h'.1.trans h.1, h'.2.1.trans h.2.1, h'.2.2.1.trans h.2.2.1, h'.2.2.2.trans h.2.2.2⟩

theorem sameEpoch_of_fabric {s t : State} (h : t.fabric = s.fabric) : SameEpoch s t := by
  unfold SameEpoch
  rw [h]
  exact ⟨rfl, rfl, rfl, rfl⟩

theorem sameEpoch_boxEvent (s : State) (kind : Nat) (body : List Byte) : SameEpoch s (boxEvent s kind body) := by
  obtain ⟨_, _, h⟩ := boxEvent_eq s kind body
  exact sameEpoch_of_fabric (by rw [h])

/-! ### Copies of parcels (R196, R217 to R220) -/

/-- Nothing differs but ports, the requests held, the landing queue and what an alarm leaves. -/
def PostsFrom (s t : State) : Prop :=
  ∃ ports held queue alarms events alertN, t =
    { s with ports := ports, heldRequests := held, landQueue := queue, alarms := alarms, sec := { s.sec with events := events },
             pins := { s.pins with alertN := alertN } }

theorem PostsFrom.refl (s : State) : PostsFrom s s := ⟨_, _, _, _, _, _, rfl⟩

theorem PostsFrom.trans {s t u : State} (h : PostsFrom s t) (h' : PostsFrom t u) : PostsFrom s u := by
  obtain ⟨_, _, _, _, _, _, rfl⟩ := h
  obtain ⟨_, _, _, _, _, _, rfl⟩ := h'
  exact ⟨_, _, _, _, _, _, rfl⟩

theorem postsFrom_foldl {β : Type} {f : State → β → State} (hf : ∀ m b, PostsFrom m (f m b)) (l : List β) (s : State) : PostsFrom s (l.foldl f s) :=
  foldl_keeps (P := PostsFrom s) f (fun m b hm => hm.trans (hf m b)) l (.refl s)

theorem postsFrom_modPort (s : State) (p : Nat) (f : Port → Port) : PostsFrom s (s.modPort p f) := ⟨_, _, _, _, _, _, rfl⟩

theorem postsFrom_raiseAlarm (s : State) (reason source : Nat) (body : List Byte) (fault perFrame : Bool) :
    PostsFrom s (raiseAlarm s reason source body fault perFrame) := by
  obtain ⟨_, _, _, h, -⟩ := raiseAlarm_eq s reason source body fault perFrame
  rw [h]
  exact ⟨_, _, _, _, _, _, rfl⟩

theorem postsFrom_portLoss (s : State) (p : Nat) : PostsFrom s (portLoss s p) := (postsFrom_modPort s p _).trans (postsFrom_raiseAlarm ..)

theorem postsFrom_dropHdr (s : State) (p : Nat) : PostsFrom s (dropHdr s p) := (postsFrom_modPort s p _).trans (postsFrom_portLoss ..)

theorem postsFrom_enqueueCopy (s : State) (p : Nat) (h : Hdr) (payload : List Byte) (straggler : Bool) :
    PostsFrom s (enqueueCopy s p h payload straggler) := by
  unfold enqueueCopy
  dsimp only
  split
  · exact ⟨_, _, _, _, _, _, rfl⟩
  · split
    · refine .trans ?_ (postsFrom_portLoss ..)
      exact ⟨_, _, _, _, _, _, rfl⟩
    · exact ⟨_, _, _, _, _, _, rfl⟩

theorem postsFrom_enqueueLanding (s : State) (input : Nat) (h : Hdr) (payload : List Byte) : PostsFrom s (enqueueLanding s input h payload) := by
  unfold enqueueLanding
  split
  · split
    · exact .refl s
    · exact postsFrom_dropHdr s input
  · exact ⟨_, _, _, _, _, _, rfl⟩

theorem postsFrom_postCopies (s : State) (e : XEntry) (h : Hdr) (payload : List Byte) (straggler : Bool) :
    PostsFrom s (postCopies s e h payload straggler) := by
  have hcopies := postsFrom_foldl (fun m p => postsFrom_enqueueCopy m p h payload straggler) (maskPorts e.dmask) s
  unfold postCopies
  dsimp only
  split
  · exact hcopies.trans (postsFrom_enqueueLanding ..)
  · exact hcopies

theorem PostsFrom.sameEpoch {s t : State} (h : PostsFrom s t) : SameEpoch s t := by
  obtain ⟨_, _, _, _, _, _, rfl⟩ := h
  exact ⟨rfl, rfl, rfl, rfl⟩

theorem NotesFrom.sameEpoch {s t : State} (h : NotesFrom s t) : SameEpoch s t := by
  obtain ⟨_, _, _, _, rfl, -⟩ := h
  exact ⟨rfl, rfl, rfl, rfl⟩

theorem sameEpoch_repost (s : State) (flow frame seq : Nat) : SameEpoch s (repost s flow frame seq) := by
  unfold repost
  dsimp only
  split
  · refine .trans ?_ (postsFrom_postCopies ..).sameEpoch
    exact ⟨rfl, rfl, rfl, rfl⟩
  · exact .refl s

theorem sameEpoch_serveQueue (n : Nat) (s : State) : SameEpoch s (serveQueue n s) := by
  induction n generalizing s with
  | zero => exact .refl s
  | succ n ih =>
    unfold serveQueue
    split
    · exact .refl s
    · split
      · exact .refl s
      · refine .trans (.trans ?_ (sameEpoch_repost ..)) (ih _)
        exact ⟨rfl, rfl, rfl, rfl⟩

theorem sameEpoch_resendEvent (s : State) (served : Bool) (flow frame first count : Nat) :
    SameEpoch s (resendEvent s served flow frame first count) := sameEpoch_boxEvent ..

theorem sameEpoch_serveResend (s : State) (flow frame first count : Nat) : SameEpoch s (serveResend s flow frame first count) := by
  unfold serveResend
  dsimp only
  split
  · exact .refl s
  · split
    · exact ⟨rfl, rfl, rfl, rfl⟩
    · refine .trans (.trans (sameEpoch_resendEvent s true flow frame first count) ?_) (sameEpoch_serveQueue ..)
      exact ⟨rfl, rfl, rfl, rfl⟩

/-- A request for missing parcels leaves the epoch. -/
theorem sameEpoch_requestResend (s : State) (flow frame first count : Nat) : SameEpoch s (requestResend s flow frame first count) := by
  unfold requestResend
  split
  · exact sameEpoch_serveResend ..
  · split
    · exact .refl s
    · split
      · exact ⟨rfl, rfl, rfl, rfl⟩
      · refine .trans (.trans ?_ (sameEpoch_boxEvent ..)) (sendNote_eq ..).sameEpoch
        exact ⟨rfl, rfl, rfl, rfl⟩

theorem sameEpoch_releaseRequests (s : State) : SameEpoch s (releaseRequests s) := by
  unfold releaseRequests
  refine foldl_keeps (P := SameEpoch s) _ (fun m r hm => hm.trans (sameEpoch_requestResend ..)) _ ?_
  exact ⟨rfl, rfl, rfl, rfl⟩

/-! ### Writes of a version and flips (R229, R231, R232) -/

/-- A write that completes: the entries of the inactive version are those of the set, its transit entries stay, and so does the active version. -/
theorem finishWrite_of_writing {s : State} {n : Nat} {ts : TableSet} (h : s.fabric.writing = some n) (hts : s.tableSet n = some ts) :
    (finishWrite s).fabric = { s.fabric with writing := none } ∧ ∀ b, (finishWrite s).version b = if (!s.fabric.active) = b then
      { s.version (!s.fabric.active) with tx := ts.tx, xbar := ts.xbar, landing := ts.landing, set := some n } else s.version b := by
  unfold finishWrite writeSet
  simp only [h, hts]
  refine ⟨?_, fun b => State.version_setVersion s (!s.fabric.active) b _⟩
  unfold State.setVersion
  split
  · rfl
  · rfl

/-- Completing a write changes the versions and ends the write. -/
theorem finishWrite_eq (s : State) : ∃ a b w, finishWrite s = { s with verA := a, verB := b, fabric := { s.fabric with writing := w } } := by
  unfold finishWrite writeSet
  dsimp only
  split
  · split
    · exact ⟨_, _, _, rfl⟩
    · unfold State.setVersion
      split
      · exact ⟨_, _, _, rfl⟩
      · exact ⟨_, _, _, rfl⟩
  · exact ⟨_, _, _, rfl⟩

/-- A flip makes the other version active and is counted. -/
theorem flip_eq (s : State) (detour : Bool) :
    ∃ ports queue lost, flip s detour =
      { s with ports := ports, alarms := { s.alarms with boxQueue := queue, lostEvent := lost },
               fabric := { s.fabric with active := !s.fabric.active, flips := s.fabric.flips + 1, ticksSinceFlip := 0, writable := false } } := by
  have hnamed : ∀ (m n : State) (l : List Nat), PortsFrom n (l.foldl (fun u p => if m.epochUses p && (m.port p).state == .up then
      u.modPort p fun q => { q with named := true } else u) n) := by
    refine fun m n l => portsFrom_foldl (fun u p => ?_) l n
    split
    · exact portsFrom_modPort u p _
    · exact .refl u
  unfold flip
  extract_lets a x s1 s2 s3
  obtain ⟨_, h2⟩ : PortsFrom s1 s2 := portsFrom_foldl (fun m p => portsFrom_modPort m p _) s1.portList s1
  obtain ⟨_, h3⟩ : PortsFrom s2 s3 := hnamed s2 s2 s2.portList
  obtain ⟨_, _, hbox⟩ := boxEvent_eq s3 4 (leBytes 1 (s3.activeVersion.set.getD 0) ++ leBytes 1 (b2n detour) ++ leBytes 8 s3.round)
  rw [hbox, h3, h2]
  exact ⟨_, _, _, rfl⟩

/-! ### Detours (R233, R275) -/

/-- A note taken from the intake leaves the rest of the package. -/
theorem takeNote_eq (s : State) (ntype x y z : Nat) : ∃ notes xoff, takeNote s ntype x y z = { s with noteIn := notes, xoff := xoff } := by
  unfold takeNote
  split
  · exact ⟨_, _, rfl⟩
  · exact ⟨_, _, rfl⟩

/-- A loss whose plan is known is announced: the union grows, the plan is written, and the flip falls at the latest round. -/
theorem announceLoss_planned {s : State} {l : Link} {F n : Nat} {u : List Link} (hwritable : s.fabric.writable = true)
    (hflipped : s.fabric.flippedUnion = none) (hu : (if s.fabric.union.contains l then s.fabric.union else s.fabric.union ++ [l]) = u)
    (hplan : s.planFor s.baseSet u = some n) :
    announceLoss s l F = { s with fabric := { s.fabric with
      union := u, announced := s.fabric.announced ++ [F], writing := some n, staged := none,
      flipRound := some ((s.fabric.announced ++ [F]).foldl Nat.max 0) } } := by
  unfold announceLoss
  simp only [hflipped, hu]
  split
  next hnone => exact absurd (hnone.symm.trans hplan) (by simp)
  next m hm =>
    obtain rfl : m = n := Option.some.inj (hm.symm.trans hplan)
    exact if_neg (by simp [hwritable])

/-- DETOUR_FLIP at its round. -/
theorem exec_detourFlip {s : State} {F : Nat} (hrun : s.runOn = true) (hround : s.fabric.flipRound = some F) :
    ∃ t, exec .detourFlip s = .next t ∧ t.fabric.active = !s.fabric.active ∧ t.fabric.flips = s.fabric.flips + 1 ∧
      t.fabric.detours = s.fabric.detours + 1 ∧ t.fabric.flipRound = none := by
  obtain ⟨_, hadv⟩ := s.advanceTo_eq (F * 1024)
  obtain ⟨_, _, _, hwrite⟩ := finishWrite_eq (s.advanceTo (F * 1024))
  obtain ⟨_, _, _, hflip⟩ := flip_eq (finishWrite (s.advanceTo (F * 1024))) true
  have hexec : ∃ m : State, execDetourFlip s = .next (releaseRequests m) ∧ m.fabric.active = (!s.fabric.active) ∧
      m.fabric.flips = s.fabric.flips + 1 ∧ m.fabric.detours = s.fabric.detours + 1 ∧ m.fabric.flipRound = none := by
    unfold execDetourFlip
    rw [hround]
    refine ⟨_, if_neg (by simp [hrun]), ?_⟩
    rw [hflip, hwrite, hadv]
    exact ⟨rfl, rfl, rfl, rfl⟩
  obtain ⟨m, hexec, hactive, hflips, hdetours, hnone⟩ := hexec
  obtain ⟨ha, hr, hf, hd⟩ := sameEpoch_releaseRequests m
  exact ⟨_, hexec, ha.trans hactive, hf.trans hflips, hd.trans hdetours, hr.trans hnone⟩

/-! ### Transit plans (R425, R499) -/

theorem postsFrom_dropTransit (old : List XEntry) (s : State) (p : Nat) : PostsFrom s (dropTransit old s p) := by
  unfold dropTransit
  dsimp only
  exact (postsFrom_modPort s p _).trans (postsFrom_foldl (fun m _ => postsFrom_dropHdr m p) _ _)

/-- At a later time machine time is that time. -/
theorem mtNs_advanceTo {s : State} {t : Nat} (h : s.now < t) : (s.advanceTo t).time.mtNs = BitVec.ofNat 64 t := by
  rw [State.advanceTo, if_pos h]

/-- The package with the transit entries of version `v` replaced. -/
def transitReplaced (s : State) (v : Bool) (tx : List TEntry) (xb : List XEntry) : State :=
  { s.setVersion v { s.version v with ttx := tx, txbar := xb } with transit := none }

/-- What a transit plan replaces, and what of the active version goes with it, changes nothing else of the versions. -/
theorem transitReplaced_spec {s u : State} {v : Bool} {tx : List TEntry} {xb : List XEntry} (h : PostsFrom (transitReplaced s v tx xb) u) :
    u.transit = none ∧ (u.version v).ttx = tx ∧ (u.version v).txbar = xb ∧ (u.version v).tx = (s.version v).tx ∧
      (u.version v).xbar = (s.version v).xbar ∧ (u.version v).landing = (s.version v).landing ∧ u.version (!v) = s.version (!v) ∧
      u.time = s.time := by
  obtain ⟨_, _, _, _, _, _, rfl⟩ := h
  cases v
  · exact ⟨rfl, rfl, rfl, rfl, rfl, rfl, rfl, rfl⟩
  · exact ⟨rfl, rfl, rfl, rfl, rfl, rfl, rfl, rfl⟩

/-- TRANSIT_APPLY of a plan that waits. -/
theorem exec_transitApply {s : State} {v : Bool} {tx : List TEntry} {xb : List XEntry} (htransit : s.transit = some (v, tx, xb)) :
    ∃ t, exec .transitApply s = .next t ∧ t.transit = none ∧ (t.version v).ttx = tx ∧ (t.version v).txbar = xb ∧
      (t.version v).tx = (s.version v).tx ∧ (t.version v).xbar = (s.version v).xbar ∧ (t.version v).landing = (s.version v).landing ∧
      t.version (!v) = s.version (!v) ∧ t.time.mtNs = BitVec.ofNat 64 ((s.round + 1) * 1024) := by
  have hlater : s.now < (s.round + 1) * 1024 := by
    unfold State.round
    omega
  obtain ⟨u, hexec, hposts⟩ : ∃ u, execTransitApply s = .next u ∧ PostsFrom (transitReplaced (s.advanceTo ((s.round + 1) * 1024)) v tx xb) u := by
    unfold execTransitApply
    rw [htransit]
    refine ⟨_, rfl, ?_⟩
    split
    · exact postsFrom_foldl (postsFrom_dropTransit _) _ _
    · exact .refl _
  obtain ⟨hnone, htx, htxb, htx', hxb, hland, hother, htime⟩ := transitReplaced_spec hposts
  rw [← mtNs_advanceTo hlater]
  obtain ⟨time, hadv⟩ := s.advanceTo_eq ((s.round + 1) * 1024)
  rw [hadv] at htx' hxb hland hother
  exact ⟨u, hexec, hnone, htx, htxb, htx', hxb, hland, hother, by rw [htime]⟩

/-- Settles O26. -/
theorem tablesAreReplacedAndFlipped : Obligations.TablesAreReplacedAndFlipped := by
  refine ⟨fun s x y z F lostPort frame n => ⟨fun hrun hwritable hflipped hplan => ?_, fun ts hwriting hts => ?_, fun hrun hround => ?_⟩,
    fun s v tx xb htransit => ?_⟩
  · obtain ⟨notes, xoff, htake⟩ := takeNote_eq s 0x13 x y z
    have hannounce := announceLoss_planned (s := { s with noteIn := notes, xoff := xoff }) (F := F) hwritable hflipped rfl hplan
    have hexec : execDetour x y z F lostPort frame s = .next (announceLoss { s with noteIn := notes, xoff := xoff }
        (s.linkName x y z lostPort) F) := by
      unfold execDetour
      rw [htake]
      exact congrArg _ (if_pos hrun)
    exact ⟨_, hexec.trans (congrArg _ hannounce), rfl, rfl, rfl⟩
  · obtain ⟨hfabric, hversion⟩ := finishWrite_of_writing hwriting hts
    have hactive : (finishWrite s).activeVersion = s.activeVersion := by
      rw [State.activeVersion, hversion, hfabric, if_neg (by cases s.fabric.active <;> decide)]
      rfl
    refine ⟨finishWrite s, rfl, by rw [hfabric], ?_⟩
    rw [hversion, if_pos rfl]
    exact ⟨rfl, rfl, rfl, rfl, hactive⟩
  · exact exec_detourFlip hrun hround
  · exact exec_transitApply htransit

end Sys2Proof.Machine
end

section
/-! PROOFS. Ports that come up and go down (R197, R198, R200, R201, R271). -/

namespace Sys2Proof.Machine

open Sys2Proof

/-! ### What leaves ports but for their notes -/

/-- Of every port only the stores of notes and their counts differ; REFCLK_SYS is present as before. -/
structure KeepsPorts (s t : State) : Prop where
  notes : ∀ p, NotesOnly (t.port p) (s.port p)
  refSys : t.time.refSys = s.time.refSys

section
variable {s t u : State}

theorem KeepsPorts.refl (s : State) : KeepsPorts s s := ⟨fun _ => .refl _, rfl⟩

theorem KeepsPorts.trans (h : KeepsPorts s t) (h' : KeepsPorts t u) : KeepsPorts s u :=
  ⟨fun p => (h'.notes p).trans (h.notes p), h'.refSys.trans h.refSys⟩

theorem KeepsPorts.congr (h : KeepsPorts s t) (hp : u.ports = t.ports) (hr : u.time.refSys = t.time.refSys := by rfl) : KeepsPorts s u := by
  refine ⟨fun p => ?_, hr.trans h.refSys⟩
  rw [State.port, hp]
  exact h.notes p

theorem NotesFrom.keepsPorts (h : NotesFrom s t) : KeepsPorts s t := by
  obtain ⟨_, _, _, _, rfl, hp⟩ := h
  exact ⟨hp, rfl⟩

theorem StoresFrom.keepsPorts (h : StoresFrom s t) : KeepsPorts s t := h.notes.keepsPorts

theorem EndsRun.keepsPorts {d : DevState} (h : EndsRun s t d) : KeepsPorts s t := by
  refine ⟨h.ports, ?_⟩
  obtain ⟨_, _, _, _, _, _, _, _, _, _, _, rfl, -⟩ := h
  rfl

theorem keepsPorts_foldl {β : Type} {f : State → β → State} {l : List β} (h : KeepsPorts s t) (hf : ∀ m b, KeepsPorts s m → KeepsPorts s (f m b)) :
    KeepsPorts s (l.foldl f t) := foldl_keeps (P := KeepsPorts s) f hf l h

theorem keepsPorts_modPort {p : Nat} {f : Port → Port} (h : KeepsPorts s t) (hf : ∀ q, NotesOnly (f q) q) : KeepsPorts s (t.modPort p f) :=
  h.trans (storesFrom_modPort t p hf).keepsPorts

theorem keepsPorts_boxEvent {kind : Nat} {body : List Byte} (h : KeepsPorts s t) : KeepsPorts s (boxEvent t kind body) := by
  obtain ⟨_, _, he⟩ := boxEvent_eq t kind body
  exact h.congr (by rw [he]) (by rw [he])

theorem keepsPorts_raiseAlarm {reason source : Nat} {body : List Byte} {fault perFrame : Bool} (h : KeepsPorts s t) :
    KeepsPorts s (raiseAlarm t reason source body fault perFrame) := by
  obtain ⟨_, _, _, he, -⟩ := raiseAlarm_eq t reason source body fault perFrame
  exact h.congr (by rw [he]) (by rw [he])

theorem keepsPorts_sendNote {ntype : Nat} {dest : Option (Nat × Nat × Nat)} {payload : List Byte} (h : KeepsPorts s t) :
    KeepsPorts s (sendNote t ntype dest payload) := h.trans (sendNote_eq ..).keepsPorts

theorem keepsPorts_stopNow {reason : Nat} (h : KeepsPorts s t) : KeepsPorts s (stopNow t reason) := by
  by_cases hrun : t.runOn = true
  · exact h.trans (endsRun_stopNow reason hrun).keepsPorts
  · unfold stopNow
    rw [if_pos (by simpa using hrun)]
    exact h

theorem keepsPorts_sendStop {reason : Nat} (h : KeepsPorts s t) : KeepsPorts s (sendStop t reason) := by
  unfold sendStop
  exact keepsPorts_sendNote (keepsPorts_boxEvent h)

theorem keepsPorts_stopAtTick {reason : Nat} (h : KeepsPorts s t) : KeepsPorts s (stopAtTick t reason) := by
  unfold stopAtTick
  split
  · exact h
  · split
    · exact keepsPorts_stopNow h
    · split
      · exact h
      · obtain ⟨_, _, _, hlatch, -, -⟩ := latchFault_eq t (t.deviceRec reason 0) 0
        refine KeepsPorts.congr (keepsPorts_sendStop (t := latchFault t (t.deviceRec reason 0) 0) ?_) rfl
        exact h.congr (by rw [hlatch]) (by rw [hlatch])

theorem keepsPorts_checkLate (h : KeepsPorts s t) : KeepsPorts s (checkLate t) := by
  unfold checkLate
  split
  · exact h
  · split
    · exact h
    · split
      · split
        · exact keepsPorts_stopNow h
        · exact h
      · exact h

theorem keepsPorts_sendReady (h : KeepsPorts s t) : KeepsPorts s (sendReady t) := by
  unfold sendReady
  split
  · split
    · exact h
    · exact keepsPorts_checkLate (keepsPorts_sendNote (h.congr rfl))
  · exact h

theorem keepsPorts_sendHold {cause : Nat} {pause : Bool} (h : KeepsPorts s t) : KeepsPorts s (sendHold t cause pause) := by
  unfold sendHold
  dsimp only
  split
  · exact h
  · split
    · split
      · refine keepsPorts_boxEvent (KeepsPorts.congr (keepsPorts_sendNote ?_) rfl)
        exact h.congr rfl
      · exact h
    · refine keepsPorts_sendReady (keepsPorts_boxEvent (KeepsPorts.congr (keepsPorts_sendNote ?_) rfl))
      exact h.congr rfl

theorem keepsPorts_announceLoss {l : Link} {F : Nat} (h : KeepsPorts s t) : KeepsPorts s (announceLoss t l F) := by
  unfold announceLoss
  extract_lets v x s1
  have h1 : KeepsPorts s s1 := h.congr rfl
  split
  · split
    · exact h
    · exact keepsPorts_stopNow (h.congr rfl)
  · split
    · exact keepsPorts_stopNow h1
    · split
      · exact keepsPorts_stopNow h1
      · exact h1.congr rfl

theorem keepsPorts_declareDetour {p : Nat} (h : KeepsPorts s t) : KeepsPorts s (declareDetour t p) := by
  unfold declareDetour
  split
  · exact h
  · exact keepsPorts_announceLoss (keepsPorts_sendNote h)

theorem keepsPorts_setMtState {st : TimeState} (h : KeepsPorts s t) : KeepsPorts s (setMtState t st) := by
  unfold setMtState
  split
  · exact h
  · exact keepsPorts_boxEvent (h.congr rfl)

theorem keepsPorts_mtLost (h : KeepsPorts s t) : KeepsPorts s (mtLost t) := by
  unfold mtLost mtHoldover markHoldover
  split
  · refine keepsPorts_raiseAlarm ?_
    split
    · exact h
    · have h1 : KeepsPorts s (setMtState t .holdover) := keepsPorts_setMtState h
      dsimp only
      split
      · exact h1.congr rfl
      · exact h1.congr rfl
  · exact h

theorem keepsPorts_dropNote (h : KeepsPorts s t) : KeepsPorts s (dropNote t) := h.congr rfl

theorem keepsPorts_rerouteStore {p input : Nat} (h : KeepsPorts s t) : KeepsPorts s (rerouteStore p t input) := by
  unfold rerouteStore
  refine keepsPorts_foldl (keepsPorts_modPort h fun _ => ⟨_, _, _, _, rfl⟩) fun m c hm => ?_
  have h1 : ∀ rev : Bool, KeepsPorts s (if rev then { m with fabric := { m.fabric with noteReversals := m.fabric.noteReversals + 1 } } else m) := by
    intro rev
    split
    · exact hm.congr rfl
    · exact hm
  split
  dsimp only
  split
  · exact keepsPorts_dropNote (keepsPorts_modPort (h1 _) fun _ => ⟨_, _, _, _, rfl⟩)
  · exact keepsPorts_modPort (h1 _) fun _ => ⟨_, _, _, _, rfl⟩

end

/-! ### One port -/

@[simp] theorem port_modPort (s : State) (p p' : Nat) (f : Port → Port) : (s.modPort p f).port p' = if p = p' then f (s.port p) else s.port p' :=
  State.port_setPort s p p' _

theorem port_raiseAlarm (s : State) (reason source : Nat) (body : List Byte) (fault perFrame : Bool) (p : Nat) :
    (raiseAlarm s reason source body fault perFrame).port p = s.port p := by
  obtain ⟨_, _, _, h, -⟩ := raiseAlarm_eq s reason source body fault perFrame
  rw [h]
  rfl

theorem port_boxEvent (s : State) (kind : Nat) (body : List Byte) (p : Nat) : (boxEvent s kind body).port p = s.port p := by
  obtain ⟨_, _, h⟩ := boxEvent_eq s kind body
  rw [h]
  rfl

/-- A port in a state: its state alone changes. -/
theorem port_setPortState (s : State) (p : Nat) (st : PortState) : (setPortState s p st).port p = { s.port p with state := st } := by
  unfold setPortState
  dsimp only
  split
  next h => rw [← h]
  next => rw [port_boxEvent, port_modPort, if_pos rfl]

/-! ### Heartbeats (R200, R201) -/

/-- A port that has received a heartbeat in this round. -/
def heartbeatSeen (s : State) (q : Port) (b : List Byte) : Port :=
  { q with peer := if le b 0 1 < 3 then le b 0 1 + 1 else q.peer, hbSeen := s.round :: q.hbSeen,
           peerLag := if le b 8 4 = 0x80000000 then none else some (sext 32 (le b 8 4)), peerPhyTx := BitVec.ofNat 32 (le b 12 4),
           peerPhyRx := BitVec.ofNat 32 (le b 16 4) }

theorem exec_heartbeat {s : State} {p : Nat} (body : List Byte) (hp : portExists s.variant p = true) (ht : (s.port p).talks = true) :
    ∃ t, exec (.heartbeat p body) s = .next t ∧ (t.port p).hbSeen = s.round :: (s.port p).hbSeen ∧
      (le body 0 1 < 3 → (t.port p).peer = le body 0 1 + 1) := by
  have hreceive : receiveHeartbeat s p body = (if le body 0 1 = 1 ∧ (s.port p).peerSlice.toNat = s.fabric.slice ∧ s.runOn then
      (if (s.setPort p (heartbeatSeen s (s.port p) body)).freeze.halted then stopNow (s.setPort p (heartbeatSeen s (s.port p) body)) 0x0205
        else stopAtTick (s.setPort p (heartbeatSeen s (s.port p) body)) 0x0205)
      else s.setPort p (heartbeatSeen s (s.port p) body)) := if_neg (by simp [ht])
  have hkeeps : KeepsPorts (s.setPort p (heartbeatSeen s (s.port p) body)) (receiveHeartbeat s p body) := by
    rw [hreceive]
    split
    · split
      · exact keepsPorts_stopNow (.refl _)
      · exact keepsPorts_stopAtTick (.refl _)
    · exact .refl _
  obtain ⟨_, _, _, _, hq⟩ := hkeeps.notes p
  rw [State.port_setPort, if_pos rfl] at hq
  refine ⟨_, onPort_next (fun s => receiveHeartbeat s p body) hp, ?_⟩
  rw [hq]
  exact ⟨rfl, fun h => if_pos h⟩

/-! ### A port goes down (R201, R271) -/

/-- A port in state `st` whose stores are empty and that no flip has named since. -/
def downed (q : Port) (st : PortState) : Port :=
  { q with state := st, downs := q.downs + 1, losses := q.losses + BitVec.ofNat 32 (q.departure.length + q.retry.length), departure := [],
           retry := [], resends := [], naks := [], localNotes := [], outNotes := [], named := false, width := 0, tries := 0 }

/-- The state with a port just down. -/
def portDowned (s : State) (p : Nat) (st : PortState) : State :=
  (setPortState s p st).modPort p fun q => { q with
    downs := q.downs + 1, losses := q.losses + BitVec.ofNat 32 (q.departure.length + q.retry.length), departure := [], retry := [],
    resends := [], naks := [], localNotes := [], outNotes := [], named := false, width := 0, tries := 0 }

theorem portDowned_port (s : State) (p : Nat) (st : PortState) : (portDowned s p st).port p = downed (s.port p) st := by
  unfold portDowned
  rw [port_modPort, if_pos rfl, port_setPortState]
  rfl

/-- What follows a port's going down changes only notes of ports. -/
theorem keepsPorts_portGoesDown (s : State) (p : Nat) (st : PortState) : KeepsPorts (portDowned s p st) (portGoesDown s p st) := by
  unfold portGoesDown
  extract_lets q s1 s2 x s3 s4 s5 s6
  have h3 : KeepsPorts s2 s3 := (KeepsPorts.refl s2).congr rfl
  have h4 : KeepsPorts s2 s4 := by
    refine KeepsPorts.trans ?_ (storesFrom_drainNotes _).keepsPorts
    exact keepsPorts_foldl (keepsPorts_raiseAlarm h3) fun _ _ hm => keepsPorts_rerouteStore hm
  have h5 : KeepsPorts s2 s5 := by
    simp only [s5]
    split
    · exact keepsPorts_sendHold h4
    · exact h4
  have h6 : KeepsPorts s2 s6 := by
    simp only [s6]
    split
    · exact keepsPorts_mtLost h5
    · exact h5
  split
  · exact h6
  · exact keepsPorts_declareDetour h6

/-- A port that goes down has its stores empty and is named no more; after that only notes of ports change. -/
theorem portGoesDown_port (s : State) (p : Nat) (st : PortState) : NotesOnly ((portGoesDown s p st).port p) (downed (s.port p) st) := by
  rw [← portDowned_port]
  exact (keepsPorts_portGoesDown s p st).notes p

theorem exec_portDown {s : State} {p : Nat} (hp : portExists s.variant p = true) (ht : (s.port p).talks = true)
    (hseen : ∀ n ∈ (s.port p).hbSeen, n + 4 < s.round) :
    ∃ t, exec (.portDown p) s = .next t ∧ (t.port p).state = .down ∧ (t.port p).downs = (s.port p).downs + 1 ∧ (t.port p).departure = [] ∧
      (t.port p).retry = [] ∧ (t.port p).named = false := by
  have hnone : (s.port p).hbSeen.any (fun n => decide (s.round ≤ n + 4)) = false := by
    rw [List.any_eq_false]
    exact fun n hn => by simpa using hseen n hn
  have hexec : execPortDown p s = .next (portGoesDown s p .down) := by
    unfold execPortDown
    rw [onPort_next _ hp]
    exact congrArg _ (if_neg (by simp [ht, hnone]))
  obtain ⟨_, _, _, _, hq⟩ := portGoesDown_port s p .down
  refine ⟨_, hexec, ?_⟩
  rw [hq]
  exact ⟨rfl, rfl, rfl, rfl, rfl⟩

/-! ### Training (R197, R198) -/

/-- A port that enters discovery keeps what its training gave it. -/
theorem port_enterDiscovery (s : State) (p : Nat) :
    ((enterDiscovery s p).port p).state = .discovery ∧ ((enterDiscovery s p).port p).width = (s.port p).width ∧
      ((enterDiscovery s p).port p).halfHi = (s.port p).halfHi ∧ ((enterDiscovery s p).port p).retrains = (s.port p).retrains := by
  have huse : ∀ (m : State) (n : Nat), (m.useFree n).port p = m.port p := fun _ _ => rfl
  unfold enterDiscovery sendIdentity pushLocal
  dsimp only
  rw [port_modPort, if_pos rfl, port_modPort, if_pos rfl, huse, port_setPortState, port_modPort, if_pos rfl]
  exact ⟨rfl, rfl, rfl, rfl⟩

/-- A port in an attempt to train. -/
def training (s : State) (p : Nat) (r : TrainResult) : State :=
  (setPortState s p .training).modPort p fun q => { q with retrains := q.retrains + 1, lanesGood := BitVec.ofNat 16 r.lanesGood }

theorem port_training (s : State) (p : Nat) (r : TrainResult) :
    (training s p r).port p =
      { s.port p with state := .training, retrains := (s.port p).retrains + 1, lanesGood := BitVec.ofNat 16 r.lanesGood } := by
  rw [training, port_modPort, if_pos rfl, port_setPortState]

/-- An attempt that passes gives the port its width, and discovery, or `UP` in Ethernet mode. -/
theorem trainPort_passes {s : State} {p : Nat} {r : TrainResult} {w : Nat} {hi : Bool} (hstep : r.failStep = 0)
    (hw : widthOf p r.lanesGood r.partnerWidth = some (w, hi)) :
    ((trainPort s p r).port p).width = w ∧ ((trainPort s p r).port p).halfHi = hi ∧
      ((trainPort s p r).port p).retrains = (s.port p).retrains + 1 ∧
      ((trainPort s p r).port p).state = (if (s.port p).ethernet then .up else .discovery) := by
  have htrain : trainPort s p r = (if (((training s p r).modPort p fun q => { q with width := w, halfHi := hi }).port p).ethernet then
      setPortState (((training s p r).modPort p fun q => { q with width := w, halfHi := hi }).modPort p fun q => { q with tries := 0 }) p .up
      else enterDiscovery ((training s p r).modPort p fun q => { q with width := w, halfHi := hi }) p) := by
    unfold trainPort
    rw [if_pos hstep, hw]
    rfl
  have hport : ((training s p r).modPort p fun q => { q with width := w, halfHi := hi }).port p =
      { (training s p r).port p with width := w, halfHi := hi } := (port_modPort ..).trans (if_pos rfl)
  have heth : (((training s p r).modPort p fun q => { q with width := w, halfHi := hi }).port p).ethernet = (s.port p).ethernet := by
    rw [hport, port_training]
    rfl
  rw [htrain, heth]
  split
  · rw [port_setPortState, port_modPort, if_pos rfl, hport, port_training]
    exact ⟨rfl, rfl, rfl, rfl⟩
  · obtain ⟨hstate, hwidth, hhalf, hretrains⟩ := port_enterDiscovery ((training s p r).modPort p fun q => { q with width := w, halfHi := hi }) p
    rw [hport, port_training] at hwidth hhalf hretrains
    exact ⟨hwidth, hhalf, hretrains, hstate⟩

/-- An attempt that fails leaves the port down. -/
theorem trainPort_fails {s : State} {p : Nat} {r : TrainResult} (h : r.failStep ≠ 0 ∨ widthOf p r.lanesGood r.partnerWidth = none) :
    ((trainPort s p r).port p).state = .down ∧ ((trainPort s p r).port p).width = 0 ∧
      ((trainPort s p r).port p).tries = (s.port p).tries + 1 := by
  have hnone : (if r.failStep = 0 then widthOf p r.lanesGood r.partnerWidth else none) = none := by
    rcases h with h | h
    · exact if_neg h
    · rw [h, ite_self]
  have hport : (trainPort s p r).port p =
      (setPortState ((training s p r).modPort p fun q => { q with tries := ((training s p r).port p).tries + 1, width := 0 }) p .down).port p := by
    unfold trainPort
    rw [hnone]
    dsimp only
    split
    · exact port_raiseAlarm ..
    · rfl
  rw [hport, port_setPortState, port_modPort, if_pos rfl, port_training]
  exact ⟨rfl, rfl, rfl⟩

/-- Both training events run an attempt. -/
theorem exec_train {s : State} {p : Nat} {r : TrainResult} {i : Instr} (hp : portExists s.variant p = true) (henable : (s.port p).enable = true)
    (href : s.time.refSys = true)
    (hi : (i = .portTrain p r ∧ ((s.port p).state = .off ∨ (s.port p).state = .training ∨ (s.port p).state = .down)) ∨
      (i = .trainRetry p r ∧ (s.port p).state = .down)) : exec i s = .next (trainPort s p r) := by
  rcases hi with ⟨rfl, hstate⟩ | ⟨rfl, hstate⟩
  · change execPortTrain p r s = _
    unfold execPortTrain
    rw [onPort_next _ hp]
    refine congrArg _ (if_neg ?_)
    rcases hstate with h | h | h <;> simp [henable, href, h, Port.talks]
  · change execTrainRetry p r s = _
    unfold execTrainRetry
    rw [onPort_next _ hp]
    exact congrArg _ (if_neg (by simp [henable, href, hstate]))

/-- Settles O30. -/
theorem portsComeUpAndGoDown : Obligations.PortsComeUpAndGoDown := by
  refine ⟨fun s p body hp ht => ⟨exec_heartbeat body hp ht, exec_portDown hp ht⟩,
    fun s p r hp henable href i hi => ⟨fun w half hstep hw => ?_, fun h => ?_⟩⟩
  · exact ⟨_, exec_train hp henable href hi, trainPort_passes hstep hw⟩
  · exact ⟨_, exec_train hp henable href hi, trainPort_fails h⟩

end Sys2Proof.Machine
end

section
/-! PROOFS. Received containers are forwarded and land (R193, R216 to R219, R227, R228). -/

namespace Sys2Proof.Machine

open Sys2Proof

/-! ### Departure stores -/

/-- The departure store of a port, and whether it is named, are the same. -/
structure SameStore (i : Nat) (s t : State) : Prop where
  departure : (t.port i).departure = (s.port i).departure
  named : (t.port i).named = (s.port i).named

theorem SameStore.refl (i : Nat) (s : State) : SameStore i s s := ⟨rfl, rfl⟩

theorem SameStore.trans {i : Nat} {s t u : State} (h : SameStore i s t) (h' : SameStore i t u) : SameStore i s u :=
  ⟨h'.departure.trans h.departure, h'.named.trans h.named⟩

theorem sameStore_modPort (i p : Nat) (s : State) {f : Port → Port} (hdep : ∀ q, (f q).departure = q.departure)
    (hnamed : ∀ q, (f q).named = q.named) : SameStore i s (s.modPort p f) := by
  have hport : (s.modPort p f).port i = s.port i ∨ (s.modPort p f).port i = f (s.port i) := by
    rw [port_modPort]
    split
    · next h => exact .inr (h ▸ rfl)
    · exact .inl rfl
  rcases hport with h | h
  · exact ⟨by rw [h], by rw [h]⟩
  · exact ⟨by rw [h, hdep], by rw [h, hnamed]⟩

theorem sameStore_raiseAlarm (i : Nat) (s : State) (reason source : Nat) (body : List Byte) (fault perFrame : Bool) :
    SameStore i s (raiseAlarm s reason source body fault perFrame) := by
  exact ⟨by rw [port_raiseAlarm], by rw [port_raiseAlarm]⟩

theorem sameStore_portLoss (i p : Nat) (s : State) : SameStore i s (portLoss s p) := by
  unfold portLoss
  refine SameStore.trans (sameStore_modPort i p s ?_ ?_) (sameStore_raiseAlarm ..) <;> exact fun _ => rfl

theorem sameStore_dropHdr (i p : Nat) (s : State) : SameStore i s (dropHdr s p) := by
  unfold dropHdr
  refine SameStore.trans (sameStore_modPort i p s ?_ ?_) (sameStore_portLoss ..) <;> exact fun _ => rfl

theorem sameStore_enqueueLanding (i : Nat) (s : State) (input : Nat) (h : Hdr) (payload : List Byte) :
    SameStore i s (enqueueLanding s input h payload) := by
  unfold enqueueLanding
  split
  · split
    · exact .refl i s
    · exact sameStore_dropHdr i input s
  · exact ⟨rfl, rfl⟩

theorem sameStore_enqueueCopy {i j : Nat} (hij : j ≠ i) (s : State) (h : Hdr) (payload : List Byte) (straggler : Bool) :
    SameStore i s (enqueueCopy s j h payload straggler) := by
  have hset (t : State) (q : Port) : SameStore i t (t.setPort j q) := by
    have h : (t.setPort j q).port i = t.port i := by rw [State.port_setPort, if_neg hij]
    exact ⟨by rw [h], by rw [h]⟩
  unfold enqueueCopy
  dsimp only
  split
  · exact hset s _
  · split
    · refine SameStore.trans ?_ (sameStore_portLoss ..)
      obtain ⟨hdep, hnamed⟩ := hset { s with heldRequests := s.heldRequests ++ [(h.flow, s.nearFrame h.framelo, h.seq, 1)] } _
      exact ⟨hdep, hnamed⟩
    · exact hset s _

/-- A named port with room takes the copy. -/
theorem enqueueCopy_departure {i : Nat} {s : State} (h : Hdr) (payload : List Byte) (straggler : Bool) (hnamed : (s.port i).named = true)
    (hroom : (s.port i).departure.length < 1024) :
    ∃ c, ((enqueueCopy s i h payload straggler).port i).departure = (s.port i).departure ++ [c] ∧ c.hdr = h ∧ c.payload = payload := by
  unfold enqueueCopy
  dsimp only
  rw [if_neg (by simp [hnamed]), if_neg (by omega), State.port_setPort, if_pos rfl]
  exact ⟨_, rfl, rfl, rfl⟩

/-- Copies to other ports leave the store. -/
theorem sameStore_copies (i : Nat) (h : Hdr) (payload : List Byte) (straggler : Bool) :
    ∀ (l : List Nat) (s : State), i ∉ l → SameStore i s (l.foldl (fun m j => enqueueCopy m j h payload straggler) s) := by
  intro l
  induction l with
  | nil => exact fun s _ => .refl i s
  | cons j l ih =>
    intro s hi
    obtain ⟨hj, hl⟩ := not_or.mp (fun h => hi (List.mem_cons.mpr h))
    exact (sameStore_enqueueCopy (Ne.symm hj) s h payload straggler).trans (ih _ hl)

/-- Each port of a list takes one copy. -/
theorem copies_departure {i : Nat} {l : List Nat} {s : State} (h : Hdr) (payload : List Byte) (straggler : Bool) (hl : l.Nodup) (hi : i ∈ l)
    (hnamed : (s.port i).named = true) (hroom : (s.port i).departure.length < 1024) :
    ∃ c, ((l.foldl (fun m j => enqueueCopy m j h payload straggler) s).port i).departure = (s.port i).departure ++ [c] ∧ c.hdr = h ∧
      c.payload = payload := by
  obtain ⟨before, after, rfl⟩ := List.append_of_mem hi
  obtain ⟨hbefore, hafter⟩ : i ∉ before ∧ i ∉ after := by
    rw [List.nodup_append] at hl
    exact ⟨fun hmem => hl.2.2 i hmem i (List.mem_cons_self ..) rfl, (List.nodup_cons.mp hl.2.1).1⟩
  rw [List.foldl_append, List.foldl_cons]
  obtain ⟨hdep1, hnamed1⟩ := sameStore_copies i h payload straggler before s hbefore
  obtain ⟨c, hdep2, hhdr, hpay⟩ := enqueueCopy_departure h payload straggler (hnamed1.trans hnamed) (hdep1 ▸ hroom)
  exact ⟨c, by rw [(sameStore_copies i h payload straggler after _ hafter).departure, hdep2, hdep1], hhdr, hpay⟩

/-- At most the sample counters of a port, and the alarms, differ. -/
def SampledFrom (s : State) (p : Nat) (t : State) : Prop :=
  t = s ∨ ∃ a b c alarms, t = { s.setPort p { s.port p with sampleTx := a, sampleRx := b, samples := c } with alarms := alarms }

theorem sampleHdr_eq (s : State) (p : Nat) (tx : Bool) (t slot : Nat) (resent straggler service : Bool) (h : Hdr) :
    SampledFrom s p (sampleHdr s p tx t slot resent straggler service h) := by
  unfold sampleHdr
  extract_lets q on n q1 s1 flags r
  obtain ⟨a, b, hq1⟩ : ∃ a b, q1 = { q with sampleTx := a, sampleRx := b } := by
    unfold q1
    split <;> exact ⟨_, _, rfl⟩
  unfold s1
  rw [hq1]
  split
  · exact .inl rfl
  · split
    · exact .inr ⟨a, b, _, _, rfl⟩
    · split
      · exact .inr ⟨a, b, _, _, rfl⟩
      · exact .inr ⟨a, b, _, _, rfl⟩

/-- A header sample changes only a port's sample counters, and alarms. -/
theorem sampleHdr_spec (s : State) (p : Nat) (tx : Bool) (t slot : Nat) (resent straggler service : Bool) (h : Hdr) :
    PostsFrom s (sampleHdr s p tx t slot resent straggler service h) ∧
      ∀ i, ∃ a b c, (sampleHdr s p tx t slot resent straggler service h).port i =
        { s.port i with sampleTx := a, sampleRx := b, samples := c } := by
  rcases sampleHdr_eq s p tx t slot resent straggler service h with he | ⟨a, b, c, alarms, he⟩
  · rw [he]
    exact ⟨.refl s, fun i => ⟨_, _, _, rfl⟩⟩
  · rw [he]
    refine ⟨⟨_, _, _, _, _, _, rfl⟩, fun i => ?_⟩
    have hport : State.port { s.setPort p { s.port p with sampleTx := a, sampleRx := b, samples := c } with alarms := alarms } i =
        (s.setPort p { s.port p with sampleTx := a, sampleRx := b, samples := c }).port i := rfl
    rw [hport, State.port_setPort]
    split
    · next hp => exact hp ▸ ⟨_, _, _, rfl⟩
    · exact ⟨_, _, _, rfl⟩

/-! ### Forwarding -/

/-- A parcel that its crossbar entry forwards goes to every port that the entry names (R219, R232, R235). -/
theorem receiveParcel_departure {s : State} {p i : Nat} {h : Hdr} {payload : List Byte} {straggler : Bool} {e : XEntry}
    (hpermit : bit (s.port p).permit.toNat h.slice = true) (hslice : h.cls = 0 → h.slice = s.fabric.slice) (hwriting : s.fabric.writing = none)
    (hlookup : (s.version h.epoch).lookup p h.flow = some e) (hcls : e.transit = decide (h.cls = 2)) (hhops : 0 < h.hops) (hi : i < 22)
    (hmask : bit e.dmask.toNat i = true) (hnamed : (s.port i).named = true) (hroom : (s.port i).departure.length < 1024) :
    ∃ c, ((receiveParcel s p h payload straggler).port i).departure = (s.port i).departure ++ [c] ∧
      c.hdr = { h with hops := h.hops - 1, cls := if e.outclass then 2 else 0 } ∧ c.payload = payload := by
  have hcopies : forwardCopies s p e h payload straggler =
      (maskPorts e.dmask).foldl (fun m j =>
        enqueueCopy m j { h with hops := h.hops - 1, cls := if e.outclass then 2 else 0 } payload straggler) s := by
    unfold forwardCopies
    simp only [if_neg (Nat.ne_of_gt hhops)]
  obtain ⟨c, hdep, hhdr, hpay⟩ := copies_departure { h with hops := h.hops - 1, cls := if e.outclass then 2 else 0 } payload straggler
    (l := maskPorts e.dmask) (List.nodup_range.filter _) (List.mem_filter.mpr ⟨List.mem_range.mpr hi, hmask⟩) hnamed hroom
  refine ⟨c, ?_, hhdr, hpay⟩
  unfold receiveParcel
  rw [if_neg (by simpa [hpermit] using hslice), if_neg (by simp [hwriting]), hlookup]
  dsimp only
  rw [if_neg (by simp [hcls, Bool.beq_eq_decide_eq]), hcopies, ← hdep]
  split
  · exact (sameStore_enqueueLanding ..).departure
  · rfl

/-- A good parcel of an `UP` port is forwarded. -/
theorem goodContainer_departure {s : State} {p i round slot : Nat} {h : Hdr} {payload : List Byte} {e : XEntry} (hup : (s.port p).state = .up)
    (hver : h.hver = 1) (hclass : h.cls = 0 ∨ h.cls = 2) (hpermit : bit (s.port p).permit.toNat h.slice = true)
    (hslice : h.cls = 0 → h.slice = s.fabric.slice) (hwriting : s.fabric.writing = none)
    (hlookup : (s.version h.epoch).lookup p h.flow = some e) (hcls : e.transit = decide (h.cls = 2)) (hhops : 0 < h.hops) (hi : i < 22)
    (hmask : bit e.dmask.toNat i = true) (hnamed : (s.port i).named = true) (hroom : (s.port i).departure.length < 1024) :
    ∃ c, ((goodContainer s p round slot 1 h payload).port i).departure = (s.port i).departure ++ [c] ∧
      c.hdr = { h with hops := h.hops - 1, cls := if e.outclass then 2 else 0 } ∧ c.payload = payload := by
  unfold goodContainer
  rw [if_neg (by simp), if_neg (by omega), if_neg (by omega), if_neg (by simp [hup])]
  dsimp only
  obtain ⟨hposts, hports⟩ := sampleHdr_spec s p false (round * 1024 + (s.port p).slotTime slot / 65536) slot (1 == 3) (slot % 32 == 0 && 1 == 1)
    (slot % 32 == 0) h
  generalize sampleHdr s p false _ slot _ _ _ h = t at hposts hports ⊢
  obtain ⟨_, _, _, hp⟩ := hports p
  obtain ⟨_, _, _, hpi⟩ := hports i
  have hdep : (t.port i).departure = (s.port i).departure := by rw [hpi]
  rw [← hdep]
  obtain ⟨_, _, _, _, _, _, rfl⟩ := hposts
  exact receiveParcel_departure (by rw [hp]; exact hpermit) hslice hwriting hlookup hcls hhops hi hmask (by rw [hpi]; exact hnamed)
    (by rw [hdep]; exact hroom)

/-- The state in which a container is judged: machine time at its slot, its symbols counted (R188, R193). -/
def containerDecoded (s : State) (p round slot : Nat) (line : LineContainer) : State :=
  (s.advanceTo (round * 1024 + (s.port p).slotTime slot / 65536)).modPort p fun q =>
    { q with fecCorr := q.fecCorr + BitVec.ofNat 64 line.corrected, fecUncorr := q.fecUncorr + BitVec.ofNat 32 line.failed }

theorem containerDecoded_port (s : State) (p round slot : Nat) (line : LineContainer) (i : Nat) :
    (containerDecoded s p round slot line).port i =
      if p = i then { s.port i with fecCorr := (s.port i).fecCorr + BitVec.ofNat 64 line.corrected,
                                    fecUncorr := (s.port i).fecUncorr + BitVec.ofNat 32 line.failed }
      else s.port i := by
  unfold containerDecoded
  obtain ⟨_, htime⟩ := s.advanceTo_eq (round * 1024 + (s.port p).slotTime slot / 65536)
  have hport (j : Nat) : (s.advanceTo (round * 1024 + (s.port p).slotTime slot / 65536)).port j = s.port j := by
    rw [htime]
    rfl
  rw [port_modPort, hport, hport]
  split
  · next h => rw [h]
  · rfl

theorem containerDecoded_tables (s : State) (p round slot : Nat) (line : LineContainer) :
    (containerDecoded s p round slot line).fabric = s.fabric ∧ ∀ v, (containerDecoded s p round slot line).version v = s.version v := by
  unfold containerDecoded
  obtain ⟨_, htime⟩ := s.advanceTo_eq (round * 1024 + (s.port p).slotTime slot / 65536)
  rw [htime]
  exact ⟨rfl, fun _ => rfl⟩

/-- A failed container of a port with retry is answered by a NAK that is sent twice. -/
theorem failedContainer_nak {s : State} {p round slot cont : Nat} (hretry : (s.port p).retryOn = true) (hcont : cont ≠ 3) :
    failedContainer s p round slot cont = s.setPort p
      { s.port p with naks := (s.port p).naks ++ [{ round, slot, left := 2 }], naksSent := (s.port p).naksSent + 1 } := by
  unfold failedContainer
  dsimp only
  rw [if_neg (by simp [hretry, hcont]), if_neg (by simp [hretry]), if_neg hcont]

/-- The model's check of a container is the one of R189 and R190. -/
theorem containerOk_iff (b : List Byte) :
    ((crc8 (slice b 0 3) == bits (ofBe (slice b 0 4)) 7 0 && bits (ofBe (slice b 0 4)) 31 30 == 1) &&
      ((bits (ofBe (slice b 0 4)) 29 28 != 1 && bits (ofBe (slice b 0 4)) 29 28 != 3) ||
        crc32c (slice b 4 272) == le b 276 4)) = true ↔ containerOk b := by
  unfold containerOk containerCont
  simp only [Bool.and_eq_true, Bool.or_eq_true, bne_iff_ne, beq_iff_eq, ne_eq, and_assoc, imp_iff_not_or, not_or]

section
variable {s : State} {p round slot : Nat} {ws : List (List (BitVec 10))} (hp : portExists s.variant p = true) (hslot : slot < (s.port p).slots)
  (hfit : wordsFit slot ws = true) (htalks : (s.port p).talks = true)
include hp hslot hfit htalks

theorem containerReceive_good (hline : (lineContainer slot ws).ok = true) (hok : containerOk (lineContainer slot ws).bytes)
    (hnak : noNak (lineContainer slot ws).bytes) :
    execContainerReceive p round slot ws s = .next (goodContainer (containerDecoded s p round slot (lineContainer slot ws)) p round slot
      (containerCont (lineContainer slot ws).bytes) (hdrOf (slice (lineContainer slot ws).bytes 4 16))
      (slice (lineContainer slot ws).bytes 20 256)) := by
  unfold noNak at hnak
  unfold execContainerReceive
  rw [onPort_next _ hp]
  dsimp only
  rw [if_neg (by simp [htalks, hfit, hslot]), if_neg (by simp [hline]), if_neg (by rw [(containerOk_iff _).mpr hok]; decide),
    if_neg (by simp [hnak])]
  rfl

theorem containerReceive_bad (hline : (lineContainer slot ws).ok = true) (hbad : ¬containerOk (lineContainer slot ws).bytes) :
    execContainerReceive p round slot ws s = .next (failedContainer ((containerDecoded s p round slot (lineContainer slot ws)).modPort p fun q =>
      { q with crcErr := q.crcErr + 1 }) p round slot (containerCont (lineContainer slot ws).bytes)) := by
  unfold execContainerReceive
  rw [onPort_next _ hp]
  dsimp only
  rw [if_neg (by simp [htalks, hfit, hslot]), if_neg (by simp [hline]), 
    if_pos (by rw [Bool.eq_false_of_not_eq_true (mt (containerOk_iff _).mp hbad)]; rfl)]
  rfl

theorem containerReceive_undecoded (hline : (lineContainer slot ws).ok = false) :
    execContainerReceive p round slot ws s = .next (failedContainer (containerDecoded s p round slot (lineContainer slot ws)) p round slot
      (containerCont (lineContainer slot ws).bytes)) := by
  unfold execContainerReceive
  rw [onPort_next _ hp]
  dsimp only
  rw [if_neg (by simp [htalks, hfit, hslot]), if_pos (by simp [hline])]
  rfl

end

/-! ### Landing -/

/-- A write to the shelf or the attic of a core. -/
theorem applyWrite_store (k : Core) (attic : Bool) (c a : Nat) (bs : List Byte) :
    let k1 := k.applyWrite { space := if attic then .attic else .shelf, core := c, addr := a, bytes := bs }
    (if attic then k1.attic else k1.shelf) = writeBytes (if attic then k.attic else k.shelf) a bs ∧ k1.aflags = k.aflags ∧ k1.sregs = k.sregs := by
  cases attic <;> exact ⟨rfl, rfl, rfl⟩

/-- The core of a landing entry with the payload of a parcel at its offset (R227). -/
def landed (s : State) (e : LEntry) (off : Nat) (payload : List Byte) : Core :=
  (s.core e.lcore).applyWrite
    { space := if e.attic then .attic else .shelf, core := e.lcore, addr := e.base + 256 * off, bytes := slice payload 0 256 }

/-- A parcel written into its buffer: its bytes at its offset, the completing one with the arrival flag, and only its core and the landing
state differ (R227, R228). -/
theorem writeParcel_spec (s : State) (n : Nat) (e : LEntry) (b : LandState) (off : Nat) (payload : List Byte) :
    ∃ k, writeParcel s n e b off payload = { s.setCore e.lcore k with land := spSet {} s.land n { b with landed := off :: b.landed } } ∧
      (∀ i, i < 256 → spGet 0 (if e.attic then k.attic else k.shelf) (e.base + 256 * off + i) = (slice payload 0 256).getD i 0) ∧
      (e.count ≤ b.landed.length + 1 → k.arrived e.aflag = true) ∧ (b.landed.length + 1 < e.count → k.aflags = (s.core e.lcore).aflags) ∧
      k.sregs = (s.core e.lcore).sregs := by
  obtain ⟨hstore, hflags, hregs⟩ := applyWrite_store (s.core e.lcore) e.attic e.lcore (e.base + 256 * off) (slice payload 0 256)
  have hbytes (i : Nat) (hi : i < 256) : spGet 0 (if e.attic then (landed s e off payload).attic else (landed s e off payload).shelf)
      (e.base + 256 * off + i) = (slice payload 0 256).getD i 0 := by
    unfold landed
    rw [hstore, spGet_writeBytes, if_pos (by rw [length_slice]; omega), Nat.add_sub_cancel_left]
  by_cases hlast : e.count ≤ b.landed.length + 1
  · exact ⟨{ landed s e off payload with aflags := spSet false (landed s e off payload).aflags e.aflag true },
      congrArg (fun k => { s.setCore e.lcore k with land := spSet {} s.land n { b with landed := off :: b.landed } }) (if_pos hlast), hbytes,
      fun _ => spGet_spSet_self false (landed s e off payload).aflags e.aflag true, fun hmore => absurd hlast (Nat.not_le.mpr hmore), hregs⟩
  · exact ⟨landed s e off payload,
      congrArg (fun k => { s.setCore e.lcore k with land := spSet {} s.land n { b with landed := off :: b.landed } }) (if_neg hlast), hbytes,
      fun h => absurd h hlast, fun _ => hflags, hregs⟩

theorem parcelLanding_next {s : State} {l : Landing} {rest : List Landing} (hqueue : s.landQueue = l :: rest) (hcapture : s.capture = false) :
    execParcelLanding s = .next (landParcel { s with landQueue := rest } l) := by
  unfold execParcelLanding
  rw [hqueue]
  exact congrArg _ (if_neg (by simp [hcapture]))

/-- A parcel that fits its buffer is written (R227). -/
theorem landParcel_fits {s : State} {l : Landing} {n : Nat} {e : LEntry} (hbuf : s.landBuf l.hdr (s.nearFrame l.hdr.framelo) = some (n, e))
    (hoff : l.hdr.offset < e.count) (hlast : l.hdr.lastf = true → l.hdr.seq + 1 = e.count)
    (hinst : (spGet {} s.land n).inst = none ∨
      ((spGet {} s.land n).inst = some (s.nearFrame l.hdr.framelo) ∧ l.hdr.offset ∉ (spGet {} s.land n).landed)) :
    landParcel s l = writeParcel s n e { spGet {} s.land n with inst := some (s.nearFrame l.hdr.framelo) } l.hdr.offset l.payload := by
  unfold landParcel
  simp only [hbuf]
  rw [if_neg (by omega), if_neg (by simpa using hlast)]
  rcases hinst with hnone | ⟨hsome, hnew⟩
  · rw [hnone]
  · simp only [hsome]
    rw [if_neg (Nat.lt_irrefl _), if_neg (Nat.lt_irrefl _), if_neg (by simpa using hnew), ← hsome]

/-- In a run a landing fault without a buffer is a device fault with the record of R227. -/
theorem landFault_of_run {s : State} {reason ks : Nat} {l : Landing} (h : s.runOn = true) :
    landFault s reason l ks none = enterFaulted { s with stats := { s.stats with faults := satInc s.stats.faults } }
      { reason, engine := 6, pc := 0xFFFF, frame := ks, cycle := s.cycleNow, byte37 := l.input, detail := l.hdr.flow, object := 0xFFFF,
        bytes14 := 0xFFFF } l.hdr.flow := by
  unfold landFault
  exact if_neg (by simp [h])

/-- A parcel without a landing buffer is a device fault in a run (R227). -/
theorem landParcel_unnamed {s : State} {l : Landing} (hbuf : s.landBuf l.hdr (s.nearFrame l.hdr.framelo) = none) :
    landParcel s l = landFault s 0x0522 l (s.nearFrame l.hdr.framelo) none := by
  unfold landParcel
  simp only [hbuf]

/-! ### The obligation -/

/-- Settles O29. -/
theorem parcelsAreForwardedAndLand : Obligations.ParcelsAreForwardedAndLand := by
  refine ⟨?_, ?_, ?_⟩
  · intro s p round slot i ws e hp hslot hfit b h
    refine ⟨?_, ?_, ?_⟩
    · intro hup heth hline hok hnak hcont hver hclass hpermit hslice hwriting hlookup hcls hhops hi hmask hnamed hroom
      have htalks : (s.port p).talks = true := by simp [Port.talks, hup, heth]
      have hport := containerDecoded_port s p round slot (lineContainer slot ws)
      have hkept (j : Nat) : ((containerDecoded s p round slot (lineContainer slot ws)).port j).state = (s.port j).state ∧
          ((containerDecoded s p round slot (lineContainer slot ws)).port j).permit = (s.port j).permit ∧
          ((containerDecoded s p round slot (lineContainer slot ws)).port j).departure = (s.port j).departure ∧
          ((containerDecoded s p round slot (lineContainer slot ws)).port j).named = (s.port j).named := by
        rw [hport]
        split <;> exact ⟨rfl, rfl, rfl, rfl⟩
      obtain ⟨hstate, hper, -, -⟩ := hkept p
      obtain ⟨hfab, hversion⟩ := containerDecoded_tables s p round slot (lineContainer slot ws)
      obtain ⟨-, -, hdep, hnam⟩ := hkept i
      have hgood := containerReceive_good (round := round) hp hslot hfit htalks hline hok hnak
      rw [hcont] at hgood
      obtain ⟨c, hc, hhdr, hpay⟩ := goodContainer_departure (s := containerDecoded s p round slot (lineContainer slot ws)) (round := round)
        (slot := slot) (payload := slice b 20 256) (hstate.trans hup) hver hclass (hper ▸ hpermit) (by rw [hfab]; exact hslice)
        (by rw [hfab]; exact hwriting) (by rw [hversion]; exact hlookup) hcls hhops hi hmask (hnam.trans hnamed) (hdep ▸ hroom)
      exact ⟨_, c, hgood, hc.trans (by rw [hdep]), hhdr, hpay⟩
    · intro htalks hretry hcont hline hbad
      refine ⟨_, containerReceive_bad hp hslot hfit htalks hline hbad, ?_⟩
      rw [failedContainer_nak (by simpa [containerDecoded_port, Port.retryOn] using hretry) hcont, State.port_setPort, if_pos rfl,
        port_modPort, if_pos rfl, containerDecoded_port, if_pos rfl]
      exact ⟨rfl, rfl, rfl⟩
    · intro htalks hretry hcont hline
      refine ⟨_, containerReceive_undecoded hp hslot hfit htalks hline, ?_⟩
      rw [failedContainer_nak (by simpa [containerDecoded_port, Port.retryOn] using hretry) hcont, State.port_setPort, if_pos rfl,
        containerDecoded_port, if_pos rfl]
      exact ⟨rfl, rfl, rfl, rfl⟩
  · intro s l rest n e hqueue hcapture ks b hbuf hoff hlast hinst
    have hland := landParcel_fits (s := { s with landQueue := rest }) hbuf hoff hlast hinst
    obtain ⟨k, hwrite, hbytes, hflag, hflags, hregs⟩ := writeParcel_spec { s with landQueue := rest } n e { b with inst := some ks } l.hdr.offset
      l.payload
    refine ⟨_, (parcelLanding_next hqueue hcapture).trans (congrArg _ (hland.trans hwrite)), rfl,
      spGet_spSet_self {} s.land n { inst := some ks, landed := l.hdr.offset :: b.landed }, ?_⟩
    rw [show ∀ (m : List (Nat × LandState)), State.core { State.setCore { s with landQueue := rest } e.lcore k with land := m } e.lcore = k from
      fun _ => State.core_setCore_self ..]
    exact ⟨hbytes, hflag, hflags, hregs, rfl, rfl⟩
  · intro s l rest hqueue hcapture hrun hlatch hbuf
    have hland := (landParcel_unnamed (s := { s with landQueue := rest }) hbuf).trans (landFault_of_run (s := { s with landQueue := rest }) hrun)
    obtain ⟨hends, htakes⟩ := endsRun_enterFaulted (s := { s with landQueue := rest, stats := { s.stats with faults := satInc s.stats.faults } })
      { reason := 0x0522, engine := 6, pc := 0xFFFF, frame := s.nearFrame l.hdr.framelo, cycle := s.cycleNow, byte37 := l.input,
        detail := l.hdr.flow, object := 0xFFFF, bytes14 := 0xFFFF } l.hdr.flow hrun
    obtain ⟨r, hr, hrec⟩ := htakes (latchTakes_of_free _ hlatch)
    exact ⟨_, r, (parcelLanding_next hqueue hcapture).trans (congrArg _ hland), hends.dev, hends.stopped, hr, by rw [hrec], by rw [hrec],
      hends.landQueue⟩

end Sys2Proof.Machine
end

section
/-! PROOFS. Ethernet request frames (R209, R210). -/

namespace Sys2Proof.Machine

open Sys2Proof

/-- A dropped frame is counted at its port, and nothing of the Hatch changes. -/
theorem ethDrop_spec (s : State) (p cause : Nat) :
    ((ethDrop s p cause).port p).ethDrops = (s.port p).ethDrops + 1 ∧ (ethDrop s p cause).hatch = s.hatch := by
  unfold ethDrop
  rw [port_modPort, if_pos rfl]
  exact ⟨rfl, rfl⟩

/-- A request that is accepted waits for the ingest area (R210). -/
def requestAccepted (s : State) (p : Nat) (request : List Byte) : State :=
  let s1 := s.modPort p fun q => { q with ethAccept := q.ethAccept + 1 }
  { s1 with hatch := { s1.hatch with requests := s1.hatch.requests ++ [request] } }

theorem requestAccepted_spec (s : State) (p : Nat) (request : List Byte) :
    (requestAccepted s p request).hatch.requests = s.hatch.requests ++ [request] ∧
      ((requestAccepted s p request).port p).ethAccept = (s.port p).ethAccept + 1 ∧ (requestAccepted s p request).hatch.bytes = s.hatch.bytes := by
  have hport : (requestAccepted s p request).port p = (s.modPort p fun q => { q with ethAccept := q.ethAccept + 1 }).port p := rfl
  rw [hport, port_modPort, if_pos rfl]
  exact ⟨rfl, rfl, rfl⟩

theorem ethRequest_accepted {s : State} {p : Nat} {b : List Byte} (hlen : 8 ≤ b.length) (hver : le b 0 1 = 1) (hfits : 8 + le b 2 2 ≤ b.length)
    (hloaded : s.ttLoaded = true) (harea : (s.areaOf 3).isSome = true) (hroom : s.requestBytes + roundUp (8 + le b 2 2) 32 ≤ 1048576) :
    ethRequest s p b = requestAccepted s p (slice b 0 (8 + le b 2 2)) := by
  have hsome : (s.areaOf 3).isNone = false := by simpa using harea
  unfold ethRequest
  dsimp only
  rw [if_neg (by omega), if_neg (by simp only [hloaded, hsome, Bool.not_true, Bool.or_self, Bool.false_or, decide_eq_true_eq]; omega)]
  rfl

section
variable {s : State} {p : Nat} {frame : List Byte} (hp : portExists s.variant p = true) (hingest : isIngest p = true)
  (heth : (s.port p).ethernet = true) (hup : (s.port p).state = .up)
include hp hingest heth hup

/-- A request frame for the port reaches the ingest area's queue. -/
theorem ethFrameReceive_request (hfor : FrameForPort (s.port p) frame) (htype : ofBe (slice frame 12 2) = (s.port p).ethReqType.toNat % 65536) :
    execEthFrameReceive p true frame s = .next (ethRequest s p (frame.drop 14)) := by
  obtain ⟨hlen, hmac0, hmac, htag, htag2⟩ := hfor
  have huntagged : (ofBe (slice frame 12 2) == 0x8100) = false := by simpa using htag
  unfold execEthFrameReceive
  rw [onPort_next _ hp]
  dsimp only
  rw [if_neg (by simp [hingest, heth, hup])]
  simp only [huntagged, Bool.false_eq_true, if_false]
  rw [if_neg (by simp; omega), if_neg (by simpa [hmac] using fun h => absurd h hmac0), if_neg (by simpa using htag2), if_pos htype]

theorem ethFrameReceive_badCheck : execEthFrameReceive p false frame s = .next (ethDrop s p 0) := by
  unfold execEthFrameReceive
  rw [onPort_next _ hp]
  dsimp only
  rw [if_neg (by simp [hingest, heth, hup])]
  rfl

end

/-- Settles O32. -/
theorem ethernetRequestsAreAccepted : Obligations.EthernetRequestsAreAccepted := by
  intro s p frame hp hingest heth hup q body n
  refine ⟨?_, _, ethFrameReceive_badCheck hp hingest heth hup, ethDrop_spec s p 0⟩
  intro hfor htype hlen hver hfits hloaded harea hroom
  have hexec := ethFrameReceive_request hp hingest heth hup hfor htype
  rw [ethRequest_accepted hlen hver hfits hloaded harea hroom] at hexec
  exact ⟨_, hexec, requestAccepted_spec s p _⟩

end Sys2Proof.Machine
end

section
/-! PROOFS. The events of time: sync notes, holdover, IEEE 1588, PPS and the reference clocks (R388 to R399). -/

namespace Sys2Proof.Machine

open Sys2Proof

/-! ### What leaves the time block -/

theorem time_boxEvent (s : State) (kind : Nat) (body : List Byte) : (boxEvent s kind body).time = s.time := by
  obtain ⟨_, _, h⟩ := boxEvent_eq s kind body
  rw [h]

theorem time_raiseAlarm (s : State) (reason source : Nat) (body : List Byte) (fault perFrame : Bool) :
    (raiseAlarm s reason source body fault perFrame).time = s.time := by
  obtain ⟨_, _, _, h, -⟩ := raiseAlarm_eq s reason source body fault perFrame
  rw [h]

theorem time_markHoldover (s : State) : (markHoldover s).time = s.time := by
  unfold markHoldover
  split <;> rfl

theorem time_stopNow (s : State) (reason : Nat) : (stopNow s reason).time = s.time := by
  by_cases hrun : s.runOn = true
  · obtain ⟨_, _, _, _, _, _, _, _, _, _, _, h, -⟩ := endsRun_stopNow reason hrun
    rw [h]
  · unfold stopNow
    rw [if_pos (by simpa using hrun)]

theorem time_record (s : State) (kind frame sub src : Nat) (content : List Byte) (replayed pblk : Bool) :
    (record s kind frame sub src content replayed pblk).time = s.time := by
  unfold record
  dsimp only
  split
  · rfl
  · split <;> rfl

theorem time_timeRecord (s : State) (sub : Nat) (off rate : Int) : (timeRecord s sub off rate).time = s.time := by
  unfold timeRecord recordOrStop
  split
  · exact time_stopNow ..
  · exact time_record ..

/-! ### The layers' states -/

theorem time_setMtState (s : State) (st : TimeState) : (setMtState s st).time = { s.time with mtState := st } := by
  unfold setMtState
  split
  · next h => rw [← h]
  · rw [time_boxEvent]

theorem time_setLtState (s : State) (st : TimeState) : (setLtState s st).time = { s.time with ltState := st } := by
  unfold setLtState
  split
  · next h => rw [← h]
  · rw [time_boxEvent]

/-- Machine time that was locked enters holdover, and that is counted (R395). -/
theorem time_mtHoldover {s : State} (h : s.time.mtState = .locked) :
    (mtHoldover s).time = { s.time with mtState := .holdover, holdovers := s.time.holdovers + 1, holdoverAt := s.now,
                                        holdoverErr := s.time.errBound, goodRun := 0 } := by
  unfold mtHoldover
  rw [if_neg (by simp [h])]
  dsimp only
  rw [time_markHoldover, time_setMtState]

/-- Local time that was locked enters holdover, and that is counted (R395). -/
theorem time_ltHoldover {s : State} (alarm : Nat) (h : s.time.ltState = .locked) :
    (ltHoldover s alarm).time = { s.time with ltState := .holdover, holdovers := s.time.holdovers + 1, ltGoodRun := 0 } := by
  have halarm (m : State) : (if alarm = 0 then m else raiseAlarm m alarm 0).time = m.time := by
    split
    · rfl
    · exact time_raiseAlarm ..
  unfold ltHoldover
  rw [if_neg (by simp [h])]
  dsimp only
  rw [time_timeRecord, halarm, time_markHoldover, time_setLtState]

theorem ltHoldover_unlocked {s : State} (alarm : Nat) (h : s.time.ltState ≠ .locked) : ltHoldover s alarm = s := by
  unfold ltHoldover
  exact if_pos (by simpa using h)

/-- The loss of local time's source leaves the time-transmitters. -/
theorem masters_ltHoldover (s : State) (alarm : Nat) :
    (ltHoldover s alarm).time.master = s.time.master ∧ (ltHoldover s alarm).time.masters = s.time.masters := by
  by_cases h : s.time.ltState = .locked
  · rw [time_ltHoldover alarm h]
    exact ⟨rfl, rfl⟩
  · rw [ltHoldover_unlocked alarm h]
    exact ⟨rfl, rfl⟩

/-! ### Sync notes (R391 to R396) -/

/-- What a measurement says of itself stays, and so do the ports. -/
structure SyncKept (s t : State) : Prop where
  ports : t.ports = s.ports
  syncRx : t.time.syncRx = s.time.syncRx
  depth : t.time.depth = s.time.depth
  lastTheta : t.time.lastTheta = s.time.lastTheta

section
variable {s t : State}

theorem SyncKept.refl (s : State) : SyncKept s s := ⟨rfl, rfl, rfl, rfl⟩

theorem syncKept_raiseAlarm {reason source : Nat} {body : List Byte} {fault perFrame : Bool} (h : SyncKept s t) :
    SyncKept s (raiseAlarm t reason source body fault perFrame) := by
  obtain ⟨_, _, _, he, -⟩ := raiseAlarm_eq t reason source body fault perFrame
  rw [he]
  exact ⟨h.ports, h.syncRx, h.depth, h.lastTheta⟩

theorem syncKept_setMtState {st : TimeState} (h : SyncKept s t) : SyncKept s (setMtState t st) := by
  have hports : (setMtState t st).ports = t.ports := by
    unfold setMtState
    split
    · rfl
    · obtain ⟨_, _, he⟩ := boxEvent_eq { t with time := { t.time with mtState := st } } 8
        (leBytes 1 0 ++ leBytes 1 (timeCode t.time.mtState) ++ leBytes 1 (timeCode st))
      rw [he]
  have htime := time_setMtState t st
  exact ⟨hports.trans h.ports, by rw [htime]; exact h.syncRx, by rw [htime]; exact h.depth, by rw [htime]; exact h.lastTheta⟩

theorem syncKept_mtHoldover (h : SyncKept s t) : SyncKept s (mtHoldover t) := by
  unfold mtHoldover markHoldover
  split
  · exact h
  · obtain ⟨hports, hrx, hdepth, htheta⟩ := syncKept_setMtState (st := .holdover) h
    dsimp only
    split <;> exact ⟨hports, hrx, hdepth, htheta⟩

theorem syncKept_mtLost (h : SyncKept s t) : SyncKept s (mtLost t) := by
  unfold mtLost
  split
  · exact syncKept_raiseAlarm (syncKept_mtHoldover h)
  · exact h

theorem syncKept_mtCorrect {theta : Int} (h : SyncKept s t) : SyncKept s (mtCorrect t theta) := ⟨h.ports, h.syncRx, h.depth, h.lastTheta⟩

/-- A refused jump is counted and alarmed. -/
theorem syncKept_refuse (h : SyncKept s t) :
    SyncKept s (raiseAlarm { t with time := { t.time with jumpsRefused := t.time.jumpsRefused + 1 } } 0x0B01 0) :=
  syncKept_raiseAlarm ⟨h.ports, h.syncRx, h.depth, h.lastTheta⟩

end

/-- A measured offset is kept, whatever it corrects (R390, R393 to R396). -/
theorem syncKept_mtOffset (s : State) (theta : Int) : SyncKept { s with time := { s.time with lastTheta := theta } } (mtOffset s theta) := by
  unfold mtOffset
  extract_lets src s0 small refuse
  have h0 : SyncKept s0 s0 := .refl s0
  split
  · exact h0
  · obtain ⟨hports, hrx, hdepth, htheta⟩ := syncKept_setMtState (s := s0) (t := stepMt s0 (-theta)) (st := .locked) ⟨rfl, rfl, rfl, rfl⟩
    exact ⟨hports, hrx, hdepth, htheta⟩
  · split
    · exact syncKept_mtCorrect h0
    · exact syncKept_refuse (syncKept_mtHoldover h0)
  · have h1 : SyncKept s0 { s0 with time := { s0.time with goodRun := 0 } } := ⟨rfl, rfl, rfl, rfl⟩
    split
    · exact syncKept_refuse h1
    · split
      · exact ⟨rfl, rfl, rfl, rfl⟩
      · exact syncKept_mtCorrect (syncKept_setMtState h1)

/-- A port that has received a sync note. -/
def synced (q : Port) (b : List Byte) (arrival : Nat) : Port :=
  { q with peerSseq := BitVec.ofNat 16 (le b 10 2), peerRxseq := BitVec.ofNat 16 (le b 22 2), peerArrival := arrival }

/-- Whether a note skips a sequence number of its sender, or of this device (R393). -/
def syncSkips (q : Port) (b : List Byte) : Bool :=
  (q.peerSseq.toNat != 0xFFFF && (q.peerSseq + 1).toNat != le b 10 2) || (q.peerRxseq.toNat != 0xFFFF && (q.peerRxseq + 1).toNat != le b 22 2)

/-- The measurement of a sync note (R393). -/
def syncTheta (q : Port) (b : List Byte) (arrival : Nat) : Int :=
  (((arrival : Int) - (le b 0 8 * 65536 + le b 8 2 : Nat)) - ((le b 12 8 * 65536 + le b 20 2 : Nat) - q.sTxTime)
    - ((q.peerPhyTx.toNat : Int) + q.phyRx.toNat - q.phyTx.toNat - q.peerPhyRx.toNat - q.cableAsym.toInt)) / 2

/-- A measurement by a sync note: the depth below its sender, and the offset (R391, R393). -/
def syncMeasured (s : State) (b : List Byte) (theta : Int) : State :=
  mtMeasure { s with time := { s.time with parentErrb := le b 26 2, depth := if le b 24 1 < 0xFF then le b 24 1 + 1 else 0xFF } } theta

theorem syncMeasured_spec (s : State) (b : List Byte) (theta : Int) :
    (syncMeasured s b theta).ports = s.ports ∧ (syncMeasured s b theta).time.syncRx = s.time.syncRx + 1 ∧
      (syncMeasured s b theta).time.depth = (if le b 24 1 < 0xFF then le b 24 1 + 1 else 0xFF) ∧
      (syncMeasured s b theta).time.lastTheta = theta := by
  unfold syncMeasured mtMeasure
  obtain ⟨hports, hrx, hdepth, htheta⟩ := syncKept_mtOffset { s with time := { s.time with
    parentErrb := le b 26 2, depth := if le b 24 1 < 0xFF then le b 24 1 + 1 else 0xFF, syncRx := s.time.syncRx + 1 } } theta
  exact ⟨hports, hrx, hdepth, htheta⟩

/-- What a sync note does (R391 to R396). -/
theorem receiveSync_eq {s : State} {p : Nat} (b : List Byte) (arrival : Nat) (htalks : (s.port p).talks = true) (hup : (s.port p).state = .up) :
    receiveSync s p b arrival =
      let s1 := s.setPort p (synced (s.port p) b arrival)
      if p ≠ s.time.parent || s.time.root then s1
      else if !bit (le b 25 1) 0 then mtLost { s1 with time := { s1.time with parentErrb := le b 26 2 } }
      else if syncSkips (s.port p) b || !(decide (le b 22 2 ≠ 0xFFFF) && le b 22 2 == ((s.port p).ssent - 1).toNat) then
        { s1 with time := { s1.time with parentErrb := le b 26 2 } }
      else syncMeasured s1 b (syncTheta (s.port p) b arrival) := by
  unfold receiveSync
  dsimp only
  rw [if_neg (by simp [htalks, hup])]
  rfl

theorem receiveSync_ports {s : State} {p : Nat} (b : List Byte) (arrival : Nat) (htalks : (s.port p).talks = true) (hup : (s.port p).state = .up) :
    (receiveSync s p b arrival).ports = (s.setPort p (synced (s.port p) b arrival)).ports := by
  rw [receiveSync_eq b arrival htalks hup]
  dsimp only
  split
  · rfl
  · split
    · exact (syncKept_mtLost (.refl _)).ports
    · split
      · rfl
      · exact (syncMeasured_spec ..).1

/-- A note on the parent port that answers the last of this device measures (R393). -/
theorem receiveSync_measures {s : State} {p : Nat} {b : List Byte} (arrival : Nat) (htalks : (s.port p).talks = true)
    (hup : (s.port p).state = .up) (hparent : p = s.time.parent) (hroot : s.time.root = false) (hvalid : bit (le b 25 1) 0 = true)
    (hseq : (s.port p).peerSseq.toNat = 0xFFFF ∨ ((s.port p).peerSseq + 1).toNat = le b 10 2)
    (hrxseq : (s.port p).peerRxseq.toNat = 0xFFFF ∨ ((s.port p).peerRxseq + 1).toNat = le b 22 2) (hsome : le b 22 2 ≠ 0xFFFF)
    (hmine : le b 22 2 = ((s.port p).ssent - 1).toNat) :
    receiveSync s p b arrival = syncMeasured (s.setPort p (synced (s.port p) b arrival)) b (syncTheta (s.port p) b arrival) := by
  have hskips : syncSkips (s.port p) b = false := by
    unfold syncSkips
    rw [Bool.or_eq_false_iff, Bool.and_eq_false_iff, Bool.and_eq_false_iff, bne_eq_false_iff_eq, bne_eq_false_iff_eq, bne_eq_false_iff_eq,
      bne_eq_false_iff_eq]
    exact ⟨hseq, hrxseq⟩
  rw [receiveSync_eq b arrival htalks hup]
  dsimp only
  rw [if_neg (by simp [hparent, hroot]), if_neg (by simp [hvalid]), if_neg]
  rw [hskips, Bool.false_or, decide_eq_true hsome, beq_iff_eq.mpr hmine]
  decide

/-! ### IEEE 1588 (R397) -/

theorem leastBy_eq_none {α : Type} (key : α → Nat) : ∀ l : List α, leastBy key l = none → l = []
  | [], _ => rfl
  | x :: l, h => by
    unfold leastBy at h
    split at h
    · split at h <;> cases h
    · cases h

theorem leastBy_mem {α : Type} (key : α → Nat) {x : α} : ∀ l : List α, leastBy key l = some x → x ∈ l
  | [], h => by cases h
  | y :: l, h => by
    unfold leastBy at h
    split at h
    · next z hz =>
      split at h
      · cases h
        exact List.mem_cons_of_mem _ (leastBy_mem key l hz)
      · cases h
        exact List.mem_cons_self ..
    · cases h
      exact List.mem_cons_self ..

/-- The selected time-transmitter is one that is known, and one is selected while any is known. -/
theorem selectMaster_spec (s : State) :
    (selectMaster s).time.masters = s.time.masters ∧ (s.time.masters ≠ [] → (selectMaster s).time.master.isSome = true) ∧
      ∀ g, (selectMaster s).time.master = some g → ∃ m ∈ s.time.masters, m.1 = g := by
  unfold selectMaster
  split
  · next h => exact ⟨rfl, fun hne => absurd (leastBy_eq_none _ _ h) hne, fun g hg => by cases hg⟩
  · next g prio off ok h => exact ⟨rfl, fun _ => rfl, fun g' hg => ⟨_, leastBy_mem _ _ h, Option.some.inj hg⟩⟩

theorem ptpMessage_next {s : State} {p : Nat} (m : PtpMsg) (hp : portExists s.variant p = true) (hon : s.ptpOn p = true) :
    execPtpMessage p m s = .next (ptpReceive s p m) := by
  unfold execPtpMessage
  rw [onPort_next _ hp]
  exact congrArg _ (if_pos hon)

/-- A new foreign time-transmitter is added while fewer than four are known. -/
theorem ptpReceive_announce {s : State} {p g prio off : Nat} {ok : Bool} (hnew : ∀ m ∈ s.time.masters, m.1 ≠ g)
    (hroom : s.time.masters.length < 4) :
    (ptpReceive s p (.announce g prio off ok)).time.masters = s.time.masters ++ [(g, prio, off, ok)] ∧
      (ptpReceive s p (.announce g prio off ok)).time.master.isSome = true := by
  have hany : (s.time.masters.any fun m => m.1 == g) = false := List.any_eq_false.mpr fun m hm => by simpa using hnew m hm
  have hreceive : ptpReceive s p (.announce g prio off ok) =
      selectMaster { s with time := { s.time with masters := s.time.masters ++ [(g, prio, off, ok)] } } := by
    unfold ptpReceive
    dsimp only
    rw [hany, if_neg Bool.false_ne_true, if_pos hroom]
  obtain ⟨hmasters, hsome, -⟩ := selectMaster_spec { s with time := { s.time with masters := s.time.masters ++ [(g, prio, off, ok)] } }
  rw [hreceive]
  exact ⟨hmasters, hsome (List.append_ne_nil_of_right_ne_nil _ (List.cons_ne_nil _ _))⟩

/-- The selected time-transmitter is forgotten at its timeout. -/
theorem exec_ptpAnnounceTimeout {s : State} {g : Nat} (h : s.time.master = some g) :
    ∃ t, exec .ptpAnnounceTimeout s = .next t ∧ t.time.master ≠ some g ∧ ∀ m ∈ t.time.masters, m.1 ≠ g := by
  obtain ⟨hmasters, -, hselected⟩ :=
    selectMaster_spec { s with time := { s.time with masters := s.time.masters.filter (fun m => m.1 != g) } }
  have hother : ∀ m ∈ s.time.masters.filter (fun m => m.1 != g), m.1 ≠ g := fun m hm => by simpa using (List.mem_filter.mp hm).2
  have hexec : execPtpAnnounceTimeout s = .next
      (if (selectMaster { s with time := { s.time with masters := s.time.masters.filter (fun m => m.1 != g) } }).time.master.isNone then
        ltHoldover (selectMaster { s with time := { s.time with masters := s.time.masters.filter (fun m => m.1 != g) } }) 0x0B02
      else selectMaster { s with time := { s.time with masters := s.time.masters.filter (fun m => m.1 != g) } }) := by
    unfold execPtpAnnounceTimeout
    rw [h]
  generalize selectMaster { s with time := { s.time with masters := s.time.masters.filter (fun m => m.1 != g) } } = t at *
  have ht : t.time.master ≠ some g ∧ ∀ m ∈ t.time.masters, m.1 ≠ g := by
    refine ⟨fun hg => ?_, hmasters ▸ hother⟩
    obtain ⟨m, hm, hmg⟩ := hselected g hg
    exact hother m hm hmg
  refine ⟨_, hexec, ?_⟩
  split
  · obtain ⟨hmaster, hmasters'⟩ := masters_ltHoldover t 0x0B02
    rw [hmaster, hmasters']
    exact ht
  · exact ht

/-- Too long a holdover stops the run (R395). -/
theorem exec_holdoverExpiry {s : State} (hstate : s.time.mtState = .holdover) (hrun : s.runOn = true) :
    ∃ t, exec .holdoverExpiry s = .next t ∧ t.dev = .held ∧ t.frame.stopped = true := by
  have hends := endsRun_stopNow 0x0B03 ((runOn_advanceTo s (s.time.holdoverAt + s.time.holdoverMax * 1000000)).trans hrun)
  have hexec : execHoldoverExpiry s = .next (stopNow (s.advanceTo (s.time.holdoverAt + s.time.holdoverMax * 1000000)) 0x0B03) :=
    congrArg _ (if_pos ⟨hstate, hrun⟩)
  exact ⟨_, hexec, hends.dev, hends.stopped⟩

/-- Settles O33. -/
theorem timeMessagesAreMeasured : Obligations.TimeMessagesAreMeasured := by
  refine ⟨?_, ?_⟩
  · intro s p b arrival hp htalks hup
    refine ⟨⟨_, onPort_next (fun s => receiveSync s p b arrival) hp, ?_⟩, exec_holdoverExpiry⟩
    have hport : (receiveSync s p b arrival).port p = synced (s.port p) b arrival := by
      rw [State.port, receiveSync_ports b arrival htalks hup]
      exact (State.port_setPort ..).trans (if_pos rfl)
    refine ⟨by rw [hport]; rfl, by rw [hport]; rfl, ?_⟩
    intro hparent hroot hvalid hseq hrxseq hsome hmine
    rw [receiveSync_measures arrival htalks hup hparent hroot hvalid hseq hrxseq hsome hmine]
    exact (syncMeasured_spec ..).2
  · intro s p g prio off ok d hp
    exact ⟨fun hon => ⟨ptpMessage_next .other hp hon, ptpMessage_next (.delayResp d) hp hon, fun hnew hroom =>
      ⟨_, ptpMessage_next (.announce g prio off ok) hp hon, ptpReceive_announce hnew hroom⟩⟩, exec_ptpAnnounceTimeout, rfl⟩

/-! ### PPS (R398, R399) -/

/-- A waiting `TIME_SET_UTC` is refused when no edge comes (R398). -/
theorem exec_ppsMissing {s : State} {utc off seq : Nat} (hwait : s.time.ppsWait = some (utc, off, seq)) (hen : s.cmd.en = true)
    (hroom : s.cmd.queue.length < 1024) :
    ∃ t, exec .ppsMissing s = .next t ∧ t.time.ppsWait = none ∧
      t.cmd.queue = s.cmd.queue ++ [{ seq := seq, status := 0x200, reason := 0x0B06, results := [] }] := by
  obtain ⟨x, hadv⟩ := s.advanceTo_eq (s.now + 2000000000)
  have hexec : execPpsMissing s =
      .next (postReply { s with time := { x with ppsWait := none } } seq stRejected 0x0B06 []) := by
    unfold execPpsMissing
    rw [hwait, hadv]
  rw [postReply_queued (s := { s with time := { x with ppsWait := none } }) _ _ _ _ hen hroom] at hexec
  exact ⟨_, hexec, rfl, rfl⟩

theorem exec_ppsOutEdge {s : State} (h : s.time.ppsOutEn = true) : ∃ t, exec .ppsOutEdge s = .next t ∧ t.pins.ppsOut = !s.pins.ppsOut := by
  by_cases hout : s.pins.ppsOut = true
  · have hexec : execPpsOutEdge s = .next { s.advanceTo (s.now + s.time.ppsWidth * 1000) with
        pins := { (s.advanceTo (s.now + s.time.ppsWidth * 1000)).pins with ppsOut := false } } := by
      unfold execPpsOutEdge
      rw [if_neg (by simp [h]), if_pos hout]
    exact ⟨_, hexec, by rw [hout]; rfl⟩
  · unfold exec execPpsOutEdge
    rw [if_neg (by simp [h]), if_neg hout]
    exact ⟨_, rfl, by rw [Bool.eq_false_of_not_eq_true hout]; rfl⟩

/-! ### Reference clocks and registers (R388 to R390, R396) -/

theorem exec_refclkLoss_time {s : State} (href : s.time.refTime = true) (hlocked : s.time.mtState = .locked) :
    ∃ t, exec (.refclkLoss .time) s = .next t ∧ t.time.refTime = false ∧ t.time.mtState = .holdover ∧
      t.time.holdovers = s.time.holdovers + (if s.time.ltState = .locked then 2 else 1) := by
  have hexec : execRefclkLoss .time s =
      .next (raiseAlarm (ltHoldover (mtHoldover { s with time := { s.time with refTime := false } }) 0) 0x0B05 0) := if_neg (by simp [href])
  have hmt := time_mtHoldover (s := { s with time := { s.time with refTime := false } }) hlocked
  refine ⟨_, hexec, ?_⟩
  rw [time_raiseAlarm]
  generalize mtHoldover { s with time := { s.time with refTime := false } } = t at hmt ⊢
  have hlt : t.time.ltState = s.time.ltState := by rw [hmt]
  by_cases h : s.time.ltState = .locked
  · rw [time_ltHoldover 0 (hlt.trans h), hmt, if_pos h]
    exact ⟨rfl, rfl, by ring⟩
  · rw [ltHoldover_unlocked 0 (hlt ▸ h), hmt, if_neg h]
    exact ⟨rfl, rfl, rfl⟩

/-- Other ports stay but for their notes where one goes down, and REFCLK_SYS stays as it was. -/
theorem portGoesDown_others (s : State) (p : Nat) (st : PortState) :
    (portGoesDown s p st).time.refSys = s.time.refSys ∧ ∀ i, i ≠ p → NotesOnly ((portGoesDown s p st).port i) (s.port i) := by
  obtain ⟨hnotes, hsys⟩ := keepsPorts_portGoesDown s p st
  have hset : (setPortState s p st).time = s.time ∧ ∀ i, i ≠ p → (setPortState s p st).port i = s.port i := by
    unfold setPortState
    dsimp only
    split
    · exact ⟨rfl, fun _ _ => rfl⟩
    · refine ⟨by rw [time_boxEvent]; rfl, fun i hi => ?_⟩
      rw [port_boxEvent, port_modPort, if_neg (Ne.symm hi)]
  have hdown (i : Nat) (hi : i ≠ p) : (portDowned s p st).port i = s.port i := by
    unfold portDowned
    rw [port_modPort, if_neg (Ne.symm hi), hset.2 i hi]
  exact ⟨hsys.trans (congrArg Time.refSys hset.1), fun i hi => hdown i hi ▸ hnotes i⟩

/-- A trained Dexdin port goes down without its reference clock (R388). -/
def losesLock (m : State) (p : Nat) : State := if (m.port p).talks then portGoesDown m p .down else m

theorem NotesOnly.state {q q' : Port} (h : NotesOnly q' q) : q'.state = q.state ∧ q'.talks = q.talks := by
  obtain ⟨_, _, _, _, rfl⟩ := h
  exact ⟨rfl, rfl⟩

theorem losesLock_spec (m : State) (p : Nat) :
    (losesLock m p).time.refSys = m.time.refSys ∧ ((m.port p).talks = true → ((losesLock m p).port p).state = .down) ∧
      ∀ i, i ≠ p → NotesOnly ((losesLock m p).port i) (m.port i) := by
  unfold losesLock
  split
  · next h =>
    obtain ⟨hsys, hothers⟩ := portGoesDown_others m p .down
    exact ⟨hsys, fun _ => (portGoesDown_port m p .down).state.1, hothers⟩
  · next h => exact ⟨rfl, fun ht => absurd ht h, fun i _ => .refl _⟩

/-- Every trained port of a list goes down, and the others stay but for their notes. -/
theorem losesLock_list : ∀ (l : List Nat) (m : State), l.Nodup →
    (l.foldl losesLock m).time.refSys = m.time.refSys ∧
      (∀ p ∈ l, (m.port p).talks = true → ((l.foldl losesLock m).port p).state = .down) ∧
      ∀ i, i ∉ l → NotesOnly ((l.foldl losesLock m).port i) (m.port i)
  | [], m, _ => ⟨rfl, fun p hp => absurd hp (List.not_mem_nil), fun i _ => .refl _⟩
  | j :: l, m, hl => by
    obtain ⟨hj, hnodup⟩ := List.nodup_cons.mp hl
    obtain ⟨hsys1, hdown1, hothers1⟩ := losesLock_spec m j
    obtain ⟨hsys, hdown, hothers⟩ := losesLock_list l (losesLock m j) hnodup
    rw [List.foldl_cons]
    refine ⟨hsys.trans hsys1, fun p hp ht => ?_, fun i hi => ?_⟩
    · rcases List.mem_cons.mp hp with rfl | hp
      · exact (hothers p hj).state.1.trans (hdown1 ht)
      · have hne : p ≠ j := fun h => hj (h ▸ hp)
        exact hdown p hp ((hothers1 p hne).state.2.trans ht)
    · obtain ⟨hne, hnot⟩ := not_or.mp fun h => hi (List.mem_cons.mpr h)
      exact (hothers i hnot).trans (hothers1 i hne)

theorem exec_refclkLoss_sys {s : State} (href : s.time.refSys = true) :
    ∃ t, exec (.refclkLoss .sys) s = .next t ∧ t.time.refSys = false ∧ ∀ p ∈ s.portList, (s.port p).talks = true → (t.port p).state = .down := by
  have hexec : execRefclkLoss .sys s =
      .next ((raiseAlarm { s with time := { s.time with refSys := false } } 0x0B05 0).portList.foldl losesLock
        (raiseAlarm { s with time := { s.time with refSys := false } } 0x0B05 0)) := if_neg (by simp [href])
  obtain ⟨_, _, _, hraise, -⟩ := raiseAlarm_eq { s with time := { s.time with refSys := false } } 0x0B05 0 [] false false
  rw [hraise] at hexec
  obtain ⟨hsys, hdown, -⟩ := losesLock_list s.portList _ (List.nodup_range.filter _)
  exact ⟨_, hexec, hsys, fun p hp ht => hdown p hp ht⟩

/-- Machine time that is acquired, which a time root locks at once (R390). -/
theorem mtState_acquireMt (s : State) : (acquireMt s).time.mtState = if s.time.root then .locked else .acquire := by
  have hroot : (setMtState s .acquire).time.root = s.time.root := by rw [time_setMtState]
  unfold acquireMt
  dsimp only
  rw [hroot]
  by_cases h : s.time.root = true
  · rw [if_neg (by simp [h]), if_pos h]
    exact congrArg Time.mtState (time_setMtState _ .locked)
  · rw [if_pos (by simpa using h), if_neg h, time_setMtState]

/-- An alarm is counted (R484). -/
theorem raised_raiseAlarm (s : State) (reason source : Nat) (body : List Byte) (fault perFrame : Bool) :
    (raiseAlarm s reason source body fault perFrame).alarms.raised = s.alarms.raised + 1 := by
  unfold raiseAlarm
  extract_lets a n spill isNew old keyHeld same base upd a1 signal a2 s1
  have ha2 : a2.raised = s.alarms.raised + 1 := by
    unfold a2
    split <;> rfl
  have hsignal : (if signal then pldmEvent s1 0xF0 (alarmBytes upd) else s1).alarms.raised = a2.raised := by
    split
    · obtain ⟨_, _, h⟩ := pldmEvent_eq s1 0xF0 (alarmBytes upd)
      rw [h]
    · rfl
  exact hsignal.trans ha2

theorem exec_timeErrExceeded {s : State} {c : Crate} (hcrate : s.mgmt.crate = some c) (hloaded : s.ttLoaded = true) (herr : c.timeErr < s.errNow) :
    ∃ t, exec .timeErrExceeded s = .next t ∧ t.time.errBound = s.errNow ∧ t.alarms.raised = s.alarms.raised + 1 := by
  have hexec : execTimeErrExceeded s =
      .next (raiseAlarm { s with time := { s.time with errBound := s.errNow } } 0x0B04 0 [] false true) := by
    unfold execTimeErrExceeded
    rw [hcrate]
    exact congrArg _ (if_pos (by simp [hloaded, herr]))
  exact ⟨_, hexec, by rw [time_raiseAlarm], raised_raiseAlarm ..⟩

/-- Settles O34. -/
theorem edgesAndReferenceClocksAct : Obligations.EdgesAndReferenceClocksAct := by
  refine ⟨fun s => ⟨fun hen hwait hdisc => ?_, fun utc off seq => exec_ppsMissing, exec_ppsOutEdge, fun hen => ?_⟩, fun s =>
    ⟨exec_refclkLoss_time, exec_refclkLoss_sys, rfl, rfl, fun hloaded hoff hboot => ?_, fun hloaded => ?_, rfl, fun c => exec_timeErrExceeded⟩⟩
  · change execPpsInEdge s = _
    unfold execPpsInEdge
    dsimp only
    rw [hwait]
    simp only [hen, hdisc, if_true, Bool.and_false, Bool.false_and, Bool.false_eq_true, if_false]
  · have hexec : execPpsOutEdge s = .next { s with pins := { s.pins with ppsOut := false } } := if_pos (by simp [hen])
    exact ⟨_, hexec, rfl⟩
  · have hexec : execReacquire s = .next (acquireMt s) := congrArg _ (if_neg (by simp [hloaded, hoff, hboot]))
    exact ⟨_, hexec, mtState_acquireMt s⟩
  · exact congrArg _ (if_pos (by simp [hloaded]))

end Sys2Proof.Machine
end

section
/-! PROOFS. A scrub window may change what a sector holds (R161, R169 to R171). -/

namespace Sys2Proof.Machine

open Sys2Proof

/-- Errors in three data bytes of a sector, 29 to 31, that differ in one byte, 28, from a code word of the corrector's code (R169): it
takes them for one error of that byte. -/
def threeErrors : BitVec 288 := 7#288 <<< 232 ||| 14#288 <<< 240 ||| 8#288 <<< 248

/-- A package in a run whose controller 0 comes to its first scrub window, of row 0 of bank 16; the first sector of that row holds zeros and has
three errors. -/
def miscorrected : State := { dev := .running, frame := { e := 1000 }, cellar := { errors := [(512, threeErrors)] } }

/-- The window writes the sector back with the byte that the corrector changed. -/
theorem scrubWindow_miscorrected : spGet 0 (scrubWindow miscorrected 0).cellar.bytes (512 * 32 + 28) = 1 := by decide +kernel

/-- Refutes O35: a scrub window writes back what the corrector gives (R171), and of a sector with three errors that the corrector takes for one
these are not the bytes that the sector held. Here it held zeros, and byte 28 becomes 1. -/
theorem not_controllersAct : ¬ Obligations.ControllersAct := by
  intro h
  obtain ⟨hcycling, -⟩ := h.2 miscorrected 0 0 (by decide)
  obtain ⟨-, -, hscrub⟩ := hcycling (by decide)
  obtain ⟨t, hexec, -, -, -, hbytes⟩ := hscrub (by decide) (by decide)
  have hnext : exec (.scrubWindow 0) miscorrected = .next (scrubWindow miscorrected 0) :=
    onCtl_next (k := 0) (s := miscorrected) (fun s => scrubWindow s 0) (by decide)
  have ht : scrubWindow miscorrected 0 = t := Host.Outcome.next.inj (hnext.symm.trans hexec)
  have hbyte := scrubWindow_miscorrected
  rw [ht, hbytes] at hbyte
  exact absurd hbyte (by decide)

end Sys2Proof.Machine
end

section
/-! PROOFS. The host windows of the Hatch and the cellars (R176 to R180). -/

namespace Sys2Proof.Machine

open Sys2Proof

/-! ### The Hatch (R176, R177) -/

/-- A write that lies in the Hatch reaches it while the package is up. -/
theorem hatch_takes {s : State} {off : Nat} {data : List Byte} (hoff : s.dev ≠ .off) (hboot : s.dev ≠ .boot) (hdata : data ≠ [])
    (hin : off + data.length ≤ 0x4000000) :
    ¬(s.dev == .off || s.dev == .boot || decide (hatchSize < off + data.length) || data.isEmpty) = true := by
  have hbounds : ¬hatchSize < off + data.length := Nat.not_lt.mpr hin
  simp [hoff, hboot, hdata, hbounds]

/-- With no timetable loaded a host write is written at once. -/
theorem hostHatchWrite_unloaded {s : State} {off : Nat} {data : List Byte} (hoff : s.dev ≠ .off) (hboot : s.dev ≠ .boot) (hdata : data ≠ [])
    (hin : off + data.length ≤ 0x4000000) (hnone : s.mgmt.loadedImage = none) : hostHatchWrite s off data = hubWrite s off data := by
  unfold hostHatchWrite
  rw [if_neg (hatch_takes hoff hboot hdata hin), if_pos (by simp [hnone])]

/-- In a run with a timetable loaded a write to an input area waits in the journal. -/
theorem hostHatchWrite_journal {s : State} {off : Nat} {data : List Byte} {a : Area} (hoff : s.dev ≠ .off) (hboot : s.dev ≠ .boot)
    (hdata : data ≠ []) (hin : off + data.length ≤ 0x4000000) (hsome : s.mgmt.loadedImage.isSome = true) (harea : s.hatchArea off = some a)
    (hkind : a.kind = 0 ∨ a.kind = 3) (hreplay : s.inv.replay = none) (hrun : s.inRun = true) (hwithheld : s.hatch.withheld = [])
    (hroom : s.hatch.journalBytes + data.length ≤ 1048576) :
    hostHatchWrite s off data =
      { s with hatch := { s.hatch with journal := s.hatch.journal ++ [(off, data)], journalBytes := s.hatch.journalBytes + data.length } } := by
  have hloaded : ¬s.mgmt.loadedImage.isNone = true := by rw [← Option.not_isSome, hsome]; decide
  unfold hostHatchWrite
  rw [if_neg (hatch_takes hoff hboot hdata hin), if_neg hloaded, harea]
  dsimp only
  rw [if_neg (by omega), if_neg (by simp [hreplay]), if_pos (by simp [hrun]), if_neg (by simpa [hwithheld] using hroom)]

theorem hatchSeen_unloaded {s : State} {off : Nat} (hin : off < 0x4000000) (hnone : s.mgmt.loadedImage = none) :
    s.hatchSeen off = spGet 0 s.hatch.bytes off := by
  unfold State.hatchSeen
  rw [if_neg (show ¬hatchSize ≤ off from Nat.not_le.mpr hin), if_pos (by simp [hnone])]

theorem hostHatchRead_unloaded {s : State} {off len : Nat} (hoff : s.dev ≠ .off) (hboot : s.dev ≠ .boot) (hin : off + len ≤ 0x4000000)
    (hnone : s.mgmt.loadedImage = none) :
    hostHatchRead s off len = { s with hatch := { s.hatch with
      lastRead := some ((List.range len).map (fun i => spGet 0 s.hatch.bytes (off + i))) } } := by
  have hseen : (List.range len).map (fun i => s.hatchSeen (off + i)) = (List.range len).map (fun i => spGet 0 s.hatch.bytes (off + i)) := by
    refine List.map_congr_left fun i hi => hatchSeen_unloaded ?_ hnone
    have := List.mem_range.mp hi
    omega
  unfold hostHatchRead
  rw [if_neg (by simp [hoff, hboot]), hseen]

/-! ### Sectors that pass the corrector (R170 to R172) -/

/-- A sector that passes the corrector changes counts, the repair list and alarms, but nothing that a read depends on. -/
def CorrectedFrom (s t : State) : Prop :=
  ∃ ce rows repair ue last banks alarms events alertN, t = { s with
    cellar := { s.cellar with ceCount := ce, rowCe := rows, repair := repair, ueCount := ue, lastUeDa := last, ueBanks := banks },
    alarms := alarms, sec := { s.sec with events := events }, pins := { s.pins with alertN := alertN } }

theorem CorrectedFrom.refl (s : State) : CorrectedFrom s s := ⟨_, _, _, _, _, _, _, _, _, rfl⟩

theorem CorrectedFrom.trans {s t u : State} (h : CorrectedFrom s t) (h' : CorrectedFrom t u) : CorrectedFrom s u := by
  obtain ⟨_, _, _, _, _, _, _, _, _, rfl⟩ := h
  obtain ⟨_, _, _, _, _, _, _, _, _, rfl⟩ := h'
  exact ⟨_, _, _, _, _, _, _, _, _, rfl⟩

/-- A read sees the same data and the same errors. -/
theorem CorrectedFrom.reads {s t : State} (h : CorrectedFrom s t) :
    t.sectorKey = s.sectorKey ∧ t.cellar.errors = s.cellar.errors ∧ t.cellar.bytes = s.cellar.bytes ∧ t.cellarRead = s.cellarRead := by
  obtain ⟨_, _, _, _, _, _, _, _, _, rfl⟩ := h
  exact ⟨rfl, rfl, rfl, rfl⟩

theorem correctedFrom_raiseAlarm (s : State) (reason source : Nat) (body : List Byte) (fault perFrame : Bool) :
    CorrectedFrom s (raiseAlarm s reason source body fault perFrame) := by
  obtain ⟨_, _, _, h, -⟩ := raiseAlarm_eq s reason source body fault perFrame
  rw [h]
  exact ⟨_, _, _, _, _, _, _, _, _, rfl⟩

theorem correctedFrom_listRow (s : State) (k bank row : Nat) (ue : Bool) : CorrectedFrom s (listRow s k bank row ue) := by
  unfold listRow
  split
  · exact ⟨_, _, _, _, _, _, _, _, _, rfl⟩
  · split
    · exact correctedFrom_raiseAlarm ..
    · exact ⟨_, _, _, _, _, _, _, _, _, rfl⟩

theorem correctedFrom_correctSector (s : State) (k a : Nat) : CorrectedFrom s (correctSector s k a).1 := by
  unfold correctSector
  dsimp only
  split
  · split
    · refine .trans ?_ (correctedFrom_listRow ..)
      exact ⟨_, _, _, _, _, _, _, _, _, rfl⟩
    · exact ⟨_, _, _, _, _, _, _, _, _, rfl⟩
  · split
    · refine .trans ?_ (correctedFrom_listRow ..)
      exact ⟨_, _, _, _, _, _, _, _, _, rfl⟩
    · exact .refl s

/-- The corrector gives a sector up only where its class is 2. -/
theorem correctSector_ne_two {s : State} {k a : Nat} (h : sectorClass (spGet 0 s.cellar.errors (k * sectorsPerPc + a)) ≠ 2) :
    (correctSector s k a).2 ≠ 2 := by
  unfold correctSector
  dsimp only
  rw [if_neg h]
  split
  · exact (by decide : (1 : Nat) ≠ 2)
  · exact (by decide : (0 : Nat) ≠ 2)

/-! ### The cellar window (R179, R180) -/

/-- A sector that is not uncorrectable passes the window's read. -/
theorem windowSector_good {s : State} {da : Nat} {bad : Bool} (h : ∀ n, s.sectorKey da = some n → sectorClass (spGet 0 s.cellar.errors n) ≠ 2) :
    ∃ t, windowSector (s, bad) da = (t, bad) ∧ CorrectedFrom s t := by
  unfold windowSector
  dsimp only
  split
  · exact ⟨s, rfl, .refl s⟩
  · next n hn =>
    have hclass := h n hn
    rw [show n = n / sectorsPerPc * sectorsPerPc + n % sectorsPerPc from (Nat.div_add_mod' n sectorsPerPc).symm] at hclass
    exact ⟨_, if_neg (correctSector_ne_two hclass), correctedFrom_correctSector ..⟩

/-- No sector of a line is uncorrectable. -/
theorem firstBad_line {s : State} {l da n : Nat} (hnone : s.firstBad (l * 64) 64 = none) (hda : da = l * 64 ∨ da = l * 64 + 32)
    (hn : s.sectorKey da = some n) : sectorClass (spGet 0 s.cellar.errors n) ≠ 2 := by
  have hmem : da ∈ sectorsOf (l * 64) 64 := by
    have hcount : ceilDiv (l * 64 % 32 + 64) 32 = 2 := by
      rw [show l * 64 % 32 = 0 by omega]
      rfl
    refine List.mem_map.mpr ?_
    rw [hcount]
    rcases hda with rfl | rfl
    · exact ⟨0, by decide, by omega⟩
    · exact ⟨1, by decide, by omega⟩
  have hgood := List.find?_eq_none.mp hnone da hmem
  rw [hn] at hgood
  simpa using hgood

theorem windowRead_allowed {s : State} {off : Nat} (hallowed : s.lineAllowed (off / 64 * 64) false = true)
    (hgood : s.firstBad (off / 64 * 64) 64 = none) :
    (windowRead s off).cellar.lastRead = some (s.cellarRead (off / 64 * 64) 64) ∧ (windowRead s off).cellar.bytes = s.cellar.bytes := by
  obtain ⟨t, htake, hfrom⟩ := windowSector_good (s := s) (da := off / 64 * 64) (bad := false) fun n hn => firstBad_line hgood (.inl rfl) hn
  obtain ⟨hkey, herrors, -, -⟩ := hfrom.reads
  obtain ⟨u, htake', hfrom'⟩ := windowSector_good (s := t) (da := off / 64 * 64 + 32) (bad := false) fun n hn => by
    rw [herrors]
    exact firstBad_line hgood (.inr rfl) (by rwa [hkey] at hn)
  obtain ⟨-, -, hbytes, hread⟩ := (hfrom.trans hfrom').reads
  have heq : windowRead s off = { u with cellar := { u.cellar with lastRead := some (u.cellarRead (off / 64 * 64) 64) } } := by
    unfold windowRead
    dsimp only
    rw [if_neg (by simp [hallowed]), htake, htake']
    rfl
  rw [heq]
  exact ⟨congrArg some (congrFun (congrFun hread _) _), hbytes⟩

/-- A request that the window denies is counted and alarmed (R180). -/
theorem denyWindow_spec (s : State) (off : Nat) :
    (denyWindow s off).cellar = { s.cellar with winDenied := s.cellar.winDenied + 1 } ∧
      (denyWindow s off).alarms.raised = s.alarms.raised + 1 := by
  unfold denyWindow
  refine ⟨?_, raised_raiseAlarm ..⟩
  obtain ⟨_, _, _, h, -⟩ := raiseAlarm_eq { s with cellar := { s.cellar with winDenied := s.cellar.winDenied + 1 } } 0x0A40 0 (leBytes 8 off)
    false true
  rw [h]

theorem windowRead_denied {s : State} {off : Nat} (h : s.lineAllowed (off / 64 * 64) false = false) :
    (windowRead s off).cellar.lastRead = some (List.replicate 64 0xFF) ∧
      (windowRead s off).cellar.winDenied = s.cellar.winDenied + 1 := by
  have heq : windowRead s off = { denyWindow s (off / 64 * 64) with
      cellar := { (denyWindow s (off / 64 * 64)).cellar with lastRead := some (List.replicate 64 0xFF) } } := by
    unfold windowRead
    exact if_pos (by simp [h])
  rw [heq, (denyWindow_spec s (off / 64 * 64)).1]
  exact ⟨rfl, rfl⟩

/-- Settles O36. -/
theorem hostWindowsAct : Obligations.HostWindowsAct := by
  refine ⟨?_, ?_⟩
  · intro s off len data hide hoff hboot
    have hwait {t : State} : (if s.ideWaits then s else t) = t := if_neg (by simp [hide])
    refine ⟨fun hdata hin => ⟨fun hnone => ?_, fun a hsome harea hkind hreplay hrun hwithheld hroom => ?_⟩, fun hin hnone => ?_⟩
    · have hexec : execHostHatchWrite off data s = .next (hubWrite s off data) :=
        congrArg _ (hwait.trans (hostHatchWrite_unloaded hoff hboot hdata hin hnone))
      refine ⟨_, hexec, fun i hi => ?_, fun a ha => spGet_writeBytes_outside _ _ _ ha, rfl⟩
      exact (spGet_writeBytes s.hatch.bytes off data (off + i)).trans ((if_pos (by omega)).trans (by rw [Nat.add_sub_cancel_left]))
    · have hexec : execHostHatchWrite off data s = .next (hostHatchWrite s off data) := congrArg _ hwait
      rw [hostHatchWrite_journal hoff hboot hdata hin hsome harea hkind hreplay hrun hwithheld hroom] at hexec
      exact ⟨_, hexec, rfl, rfl⟩
    · exact congrArg _ (hwait.trans (hostHatchRead_unloaded hoff hboot hin hnone))
  · intro s off data hide l
    have hwait {t : State} : (if s.ideWaits then s else t) = t := if_neg (by simp [hide])
    have hwrite : execCellarWindowWrite off data s = .next (if s.lineAllowed l true then s.cellarWrite l (slice data 0 64) else denyWindow s l) :=
      congrArg _ hwait
    have hread : execCellarWindowRead off s = .next (windowRead s off) := congrArg _ hwait
    refine ⟨fun h => ?_, fun h => ?_, fun h hgood => ⟨_, hread, windowRead_allowed h hgood⟩, fun h => ⟨_, hread, windowRead_denied h⟩⟩
    · exact hwrite.trans (congrArg _ (if_pos h))
    · obtain ⟨hcellar, hraised⟩ := denyWindow_spec s l
      refine ⟨_, hwrite.trans (congrArg _ (if_neg (by simp [h]))), ?_⟩
      rw [hcellar]
      exact ⟨rfl, rfl, hraised⟩

end Sys2Proof.Machine
end

section
/-! PROOFS. What a host command that passes its checks leaves (R415, R416, R417). -/

namespace Sys2Proof.Machine

open Sys2Proof

/-! ### Records (R349) -/

/-- A record changes the inventory alone. -/
theorem record_eq (s : State) (kind frame sub src : Nat) (content : List Byte) (replayed pblk : Bool) :
    ∃ inv, record s kind frame sub src content replayed pblk = { s with inv := inv } := by
  unfold record
  dsimp only
  split
  · exact ⟨_, rfl⟩
  · split <;> exact ⟨_, rfl⟩

/-- Outside a run a record that does not fit stops nothing. -/
theorem recordOrStop_eq {s : State} (kind frame sub src : Nat) (content : List Byte) (replayed : Bool) (h : s.inRun = false) :
    ∃ inv, recordOrStop s kind frame sub src content replayed = { s with inv := inv } := by
  unfold recordOrStop
  rw [if_neg (by simp [h])]
  exact record_eq ..

theorem closeLink_eq (s : State) : ∃ inv, closeLink s = { s with inv := inv } := by
  unfold closeLink
  split <;> exact ⟨_, rfl⟩

/-! ### The package that a command's own rules find -/

/-- The command is counted and recorded; where it needs an authorisation, the counter of its key follows (R416, R349, R432). -/
def IntakeFrom (s s1 : State) : Prop :=
  ∃ n inv counters, s1 = { s with cmd := { s.cmd with commands := n }, inv := inv, sec := { s.sec with foCounters := counters } }

theorem received_eq (s : State) (op : Nat) (k : Packet) :
    ∃ inv, received s op k = { s with cmd := { s.cmd with commands := s.cmd.commands + 1 }, inv := inv } := by
  have hopen (m : State) : ∃ inv, openLink m op = { m with inv := inv } := by
    unfold openLink
    split <;> exact ⟨_, rfl⟩
  unfold received recordCommand
  dsimp only
  split
  · obtain ⟨_, ho⟩ := hopen { s with cmd := { s.cmd with commands := s.cmd.commands + 1 } }
    rw [ho]
    obtain ⟨_, hr⟩ := record_eq { s with cmd := { s.cmd with commands := s.cmd.commands + 1 }, inv := _ } 1 _ 0 (k.srcField op) (k.content op)
      false k.pblk
    rw [hr]
    split <;> exact ⟨_, rfl⟩
  · exact ⟨_, rfl⟩

theorem authorise_eq {s s1 : State} {op : Nat} {k : Packet} (h : authorise s op k = .ok s1) :
    ∃ counters, s1 = { s with sec := { s.sec with foCounters := counters } } := by
  unfold authorise at h
  split at h
  · cases h
  · split at h
    · cases h
    · dsimp only at h
      split at h
      · cases h
      · split at h
        · cases h
        · split at h
          · cases h
          · split at h
            · cases h
            · exact ⟨_, (Except.ok.inj h).symm⟩

/-- The package with one command more counted, and the inventory with its record. -/
def counted (s : State) (inv : Inventory) : State := { s with cmd := { s.cmd with commands := s.cmd.commands + 1 }, inv := inv }

section
variable {s s1 : State} {c : Cmd} {k : Packet} (h : Passes s c k s1)
include h

/-- A command that the host sends is counted and recorded, and nothing else of the package changes. -/
theorem host_of_passes (hown : needsOwner k c = false) :
    ∃ inv, s1 = { s with cmd := { s.cmd with commands := s.cmd.commands + 1 }, inv := inv } := by
  obtain ⟨-, rfl⟩ := h.host hown
  exact received_eq ..

theorem counted_of_passes (hown : needsOwner k c = false) : ∃ inv, s1 = counted s inv := host_of_passes h hown

theorem intake_of_passes : IntakeFrom s s1 := by
  cases hown : needsOwner k c with
  | false =>
    obtain ⟨_, rfl⟩ := host_of_passes h hown
    exact ⟨_, _, _, rfl⟩
  | true =>
    obtain ⟨_, rfl⟩ := authorise_eq (h.owner hown)
    obtain ⟨_, hr⟩ := received_eq s c.opcode k
    rw [hr]
    exact ⟨_, _, _, rfl⟩

end

/-! ### Its reply -/

/-- A final verdict on `m`: the last reply of the queue, and nothing else but of the inventory. -/
def AnswersFrom (m t : State) (k : Packet) (status reason : Nat) (results : List (Nat × Byte)) : Prop :=
  (∃ inv q n, t = { m with inv := inv, cmd := { m.cmd with queue := q, repliesLost := n } }) ∧ Replies m t k status reason results

theorem AnswersFrom.eq {m t : State} {k : Packet} {status reason : Nat} {results : List (Nat × Byte)}
    (h : AnswersFrom m t k status reason results) : ∃ inv q n, t = { m with inv := inv, cmd := { m.cmd with queue := q, repliesLost := n } } := h.1

/-- The queue that the command found is the one that its rules left. -/
theorem AnswersFrom.replies {s m t : State} {k : Packet} {status reason : Nat} {results : List (Nat × Byte)}
    (h : AnswersFrom m t k status reason results) (hen : m.cmd.en = s.cmd.en) (hq : m.cmd.queue = s.cmd.queue) :
    Replies s t k status reason results := by
  obtain ⟨-, hr⟩ := h
  unfold Replies at *
  rwa [hen, hq] at hr

theorem postReply_answers (m : State) (k : Packet) (status reason : Nat) (results : List (Nat × Byte)) :
    Replies m (postReply m k.seq status reason results) k status reason results := by
  intro hen hroom
  rw [postReply_queued _ _ _ _ hen hroom]

section
variable {s s1 : State} {c : Cmd} {k : Packet} (h : Passes s c k s1)
include h

/-- A command with a final verdict other than `NOT_AUTHORISED`. -/
theorem hostCommand_final {m : State} {status reason : Nat} {results : List (Nat × Byte)} (hrun : c.run k s1 = .final m status reason results)
    (hst : status ≠ stNotAuth) : ∃ t, hostCommand c k s = .next t ∧ AnswersFrom m t k status reason results := by
  have hreply := postReply_answers m k status reason results
  obtain ⟨_, _, hpost, -⟩ := postReply_eq m k.seq status reason results
  refine ⟨_, hostCommand_of_passes h, ?_⟩
  rw [hrun, giveVerdict, if_neg hst]
  obtain ⟨_, hclose⟩ := closeLink_eq (postReply m k.seq status reason results)
  refine ⟨?_, fun hen hroom => by rw [closeLink_cmd]; exact hreply hen hroom⟩
  rw [hclose, hpost]
  exact ⟨_, _, _, rfl⟩

/-- A command whose reply waits. -/
theorem hostCommand_silent {m : State} (hrun : c.run k s1 = .silent m) : ∃ inv, hostCommand c k s = .next { m with inv := inv } := by
  obtain ⟨_, hclose⟩ := closeLink_eq m
  have hnext := hostCommand_of_passes h
  rw [hrun, giveVerdict, hclose] at hnext
  exact ⟨_, hnext⟩

/-- The package in which a command that is `ACCEPTED` acts: replied to, and outstanding (R416). -/
def accepted (c : Cmd) (k : Packet) (m : State) : State :=
  { postReply m k.seq stAccepted 0 [] with cmd := { (postReply m k.seq stAccepted 0 []).cmd with
      out := (postReply m k.seq stAccepted 0 []).cmd.out ++ [{ opcode := c.opcode, packet := k, long := c.single }] } }

omit h in
theorem accepted_eq (c : Cmd) (k : Packet) (m : State) :
    (∃ q n, accepted c k m = { m with cmd := { m.cmd with
      out := m.cmd.out ++ [{ opcode := c.opcode, packet := k, long := c.single }], queue := q, repliesLost := n } }) ∧
      Replies m (accepted c k m) k 1 0 [] := by
  obtain ⟨_, _, hpost, -⟩ := postReply_eq m k.seq stAccepted 0 []
  refine ⟨?_, postReply_answers m k stAccepted 0 []⟩
  unfold accepted
  rw [hpost]
  exact ⟨_, _, rfl⟩

/-- A command that is `ACCEPTED`, and then acts. -/
theorem hostCommand_long {m : State} {act : State → State} (hrun : c.run k s1 = .long m act) :
    ∃ inv, hostCommand c k s = .next { act (accepted c k m) with inv := inv } := by
  obtain ⟨_, hclose⟩ := closeLink_eq (act (accepted c k m))
  have hnext := hostCommand_of_passes h
  rw [hrun] at hnext
  exact ⟨_, hnext.trans (congrArg _ hclose)⟩

end

/-! ### Parameters -/

/-- One byte of a run is the byte there, zero beyond the end. -/
theorem slice_one (bs : List Byte) (a : Nat) : slice bs a 1 = [bs[a]?.getD 0] := by
  unfold slice
  by_cases h : a < bs.length
  · rw [List.drop_eq_getElem_cons h, List.getElem?_eq_getElem h]
    rfl
  · rw [List.drop_of_length_le (Nat.not_lt.mp h), List.getElem?_eq_none (Nat.not_lt.mp h)]
    rfl

theorem par_one (k : Packet) (a : Nat) : k.par a 1 = ((k.params.take k.plen)[a - 16]?.getD 0).toNat := by
  rw [Packet.par, Packet.bytes, slice_one]
  exact Nat.add_zero _

/-- Byte `j` of a run from its first byte on. -/
theorem getElem?_slice_zero (bs : List Byte) {n j : Nat} (h : j < n) : (slice bs 0 n)[j]? = some (bs[j]?.getD 0) := by
  unfold slice zeros
  rw [List.drop_zero]
  by_cases hj : j < bs.length
  · rw [List.getElem?_append_left (by rw [List.length_take]; omega), List.getElem?_take, if_pos h, List.getElem?_eq_getElem hj]
    rfl
  · have hnot := Nat.not_lt.mp hj
    rw [List.getElem?_append_right (by rw [List.length_take]; omega), List.getElem?_replicate, if_pos (by rw [List.length_take]; omega),
      List.getElem?_eq_none hnot]
    rfl

/-- A parameter byte that a row fixes. -/
theorem par_withByte (k : Packet) {a : Nat} (b : Byte) (ha : 16 ≤ a) : (k.withByte a b).par a 1 = b.toNat := by
  have hmax := Nat.le_max_right k.plen (a - 15)
  have hlen : ((slice k.params 0 (Nat.max k.params.length (a - 15))).take (a - 16)).length = a - 16 := by
    have := Nat.le_max_right k.params.length (a - 15)
    rw [List.length_take, length_slice]
    change Nat.max _ _ ≥ _ at this
    omega
  rw [par_one, Packet.withByte]
  dsimp only
  rw [List.getElem?_take, if_pos (Nat.lt_of_lt_of_le (by omega) hmax), putAt, List.append_assoc, List.getElem?_append_right (Nat.le_of_eq hlen),
    hlen, Nat.sub_self]
  rfl

/-- The other parameter bytes stay. -/
theorem par_withByte_ne (k : Packet) {a a' : Nat} (b : Byte) (ha : 16 ≤ a) (ha' : 16 ≤ a') (hne : a' ≠ a) (hlen : a' - 16 < k.plen) :
    (k.withByte a b).par a' 1 = k.par a' 1 := by
  have hin : a - 16 < (slice k.params 0 (Nat.max k.params.length (a - 15))).length := by
    rw [length_slice]
    exact Nat.lt_of_lt_of_le (by omega) (Nat.le_max_right ..)
  have hput : putAt (slice k.params 0 (Nat.max k.params.length (a - 15))) (a - 16) [b] =
      (slice k.params 0 (Nat.max k.params.length (a - 15))).set (a - 16) b := by
    rw [List.set_eq_take_append_cons_drop, if_pos hin, putAt, List.append_assoc]
    rfl
  have hbyte : (slice k.params 0 (Nat.max k.params.length (a - 15)))[a' - 16]?.getD 0 = k.params[a' - 16]?.getD 0 := by
    by_cases hj : a' - 16 < Nat.max k.params.length (a - 15)
    · rw [getElem?_slice_zero _ hj]
      rfl
    · have hbeyond := Nat.not_lt.mp hj
      rw [List.getElem?_eq_none (by rwa [length_slice]), List.getElem?_eq_none (Nat.le_trans (Nat.le_max_left ..) hbeyond)]
  rw [par_one, par_one, Packet.withByte]
  dsimp only
  rw [hput, List.getElem?_take, if_pos (Nat.lt_of_lt_of_le hlen (Nat.le_max_left ..)), List.getElem?_set_ne (by omega), hbyte,
    List.getElem?_take, if_pos hlen]

end Sys2Proof.Machine
end

section
/-! PROOFS. The setting commands of the host (R286, R386, R398, R452, R471 to R473). -/

namespace Sys2Proof.Machine

open Sys2Proof

/-! ### NEGOTIATE and SET_MODE -/

theorem negotiate_next {s s1 : State} {k : Packet} (h : Passes s cNegotiate k s1) (hlevels : k.par 16 1 % 4 ≠ 0) :
    let l := if bit (k.par 16 1) 1 then 2 else 1
    ∃ t, exec (.negotiate k) s = .next t ∧ Replies s t k 0 0 (resAt 24 (leBytes 1 l)) ∧
      windowOnly { s with mgmt := { s.mgmt with fpc := l } } t := by
  obtain ⟨_, rfl⟩ := host_of_passes h rfl
  obtain ⟨t, hnext, hanswer⟩ := hostCommand_final h (if_neg hlevels) (by decide)
  obtain ⟨_, _, _, rfl⟩ := hanswer.eq
  exact ⟨_, hnext, hanswer.replies rfl rfl, rfl⟩

/-- A mode that is applied. -/
theorem applyMode_spec (s : State) (m : Mode) (gov : Bool) :
    (applyMode s m gov).clock.mode = m ∧ (applyMode s m gov).clock.staged = none ∧ (applyMode s m gov).cmd = s.cmd := by
  obtain ⟨_, _, h⟩ := boxEvent_eq s 7 (leBytes 1 (modeCode s.clock.mode) ++ leBytes 1 (modeCode m) ++ leBytes 1 (b2n gov))
  refine ⟨rfl, rfl, ?_⟩
  unfold applyMode
  dsimp only
  rw [h]

theorem cSetMode_run {s : State} {k : Packet} (hmode : k.par 16 1 ≤ 2)
    (hceil : ∀ i, s.mgmt.loadedImage = some i → ceilKhz (modeOf (k.par 16 1)) ≤ ceilKhz i.mode) :
    cSetMode.run k s = if s.dev == .idle || (s.dev == .loaded && !s.frame.ranOnce) then okWith (applyMode s (modeOf (k.par 16 1)) false) []
      else .final (stageMode s (modeOf (k.par 16 1)) false) stAccepted 0 [] := by
  unfold cSetMode
  dsimp only
  rw [if_neg (Nat.not_lt.mpr hmode)]
  refine if_neg ?_
  split
  · next i hi => simpa using hceil i hi
  · exact Bool.false_ne_true

theorem setMode_next {s s1 : State} {k : Packet} (h : Passes s cSetMode k s1) (hmode : k.par 16 1 ≤ 2)
    (hceil : ∀ i, s.mgmt.loadedImage = some i → ceilKhz (modeOf (k.par 16 1)) ≤ ceilKhz i.mode) :
    ∃ t, exec (.setMode k) s = .next t ∧
      ((s.dev = .idle ∨ (s.dev = .loaded ∧ s.frame.ranOnce = false)) →
        t.clock.mode = modeOf (k.par 16 1) ∧ t.clock.staged = none ∧ Replies s t k 0 0 []) ∧
      (¬(s.dev = .idle ∨ (s.dev = .loaded ∧ s.frame.ranOnce = false)) →
        t.clock.mode = s.clock.mode ∧ t.clock.staged = some (modeOf (k.par 16 1)) ∧ Replies s t k 1 0 []) := by
  obtain ⟨inv, rfl⟩ := host_of_passes h rfl
  have hrun := cSetMode_run (s := { s with cmd := { s.cmd with commands := s.cmd.commands + 1 }, inv := inv }) hmode hceil
  by_cases hbefore : s.dev = .idle ∨ (s.dev = .loaded ∧ s.frame.ranOnce = false)
  · obtain ⟨t, hnext, hanswer⟩ := hostCommand_final h (hrun.trans (if_pos (by simpa using hbefore))) (by decide)
    obtain ⟨hm, hs, hcmd⟩ := applyMode_spec { s with cmd := { s.cmd with commands := s.cmd.commands + 1 }, inv := inv } (modeOf (k.par 16 1)) false
    have hreply : Replies s t k 0 0 [] := hanswer.replies (by rw [hcmd]) (by rw [hcmd])
    obtain ⟨_, _, _, rfl⟩ := hanswer.eq
    exact ⟨_, hnext, fun _ => ⟨hm, hs, hreply⟩, fun hn => absurd hbefore hn⟩
  · obtain ⟨t, hnext, hanswer⟩ := hostCommand_final h (hrun.trans (if_neg (by simpa using hbefore))) (by decide)
    obtain ⟨_, _, _, rfl⟩ := hanswer.eq
    exact ⟨_, hnext, fun hy => absurd hy hbefore, fun _ => ⟨rfl, rfl, hanswer.replies rfl rfl⟩⟩

/-! ### TIME_SET_UTC (R398) -/

/-- The command window, the UTC offset and the state of local time stay. -/
structure UtcKept (s t : State) : Prop where
  cmd : t.cmd = s.cmd
  utcOffset : t.time.utcOffset = s.time.utcOffset
  utcOffsetValid : t.time.utcOffsetValid = s.time.utcOffsetValid
  ltState : t.time.ltState = s.time.ltState

section
variable {s t : State}

theorem utcKept_raiseAlarm {reason source : Nat} {body : List Byte} {fault perFrame : Bool} (h : UtcKept s t) :
    UtcKept s (raiseAlarm t reason source body fault perFrame) := by
  obtain ⟨_, _, _, he, -⟩ := raiseAlarm_eq t reason source body fault perFrame
  rw [he]
  exact ⟨h.cmd, h.utcOffset, h.utcOffsetValid, h.ltState⟩

theorem utcKept_setMtState {st : TimeState} (h : UtcKept s t) : UtcKept s (setMtState t st) := by
  unfold setMtState
  split
  · exact h
  · obtain ⟨_, _, he⟩ := boxEvent_eq { t with time := { t.time with mtState := st } } 8
      (leBytes 1 0 ++ leBytes 1 (timeCode t.time.mtState) ++ leBytes 1 (timeCode st))
    rw [he]
    exact ⟨h.cmd, h.utcOffset, h.utcOffsetValid, h.ltState⟩

theorem utcKept_mtHoldover (h : UtcKept s t) : UtcKept s (mtHoldover t) := by
  unfold mtHoldover markHoldover
  split
  · exact h
  · obtain ⟨hcmd, hoff, hvalid, hlt⟩ := utcKept_setMtState (st := .holdover) h
    dsimp only
    split <;> exact ⟨hcmd, hoff, hvalid, hlt⟩

theorem utcKept_mtCorrect {theta : Int} (h : UtcKept s t) : UtcKept s (mtCorrect t theta) := ⟨h.cmd, h.utcOffset, h.utcOffsetValid, h.ltState⟩

theorem utcKept_refuse (h : UtcKept s t) :
    UtcKept s (raiseAlarm { t with time := { t.time with jumpsRefused := t.time.jumpsRefused + 1 } } 0x0B01 0) :=
  utcKept_raiseAlarm ⟨h.cmd, h.utcOffset, h.utcOffsetValid, h.ltState⟩

end

theorem utcKept_mtOffset (s : State) (theta : Int) : UtcKept s (mtOffset s theta) := by
  unfold mtOffset
  extract_lets src s0 small refuse
  have h0 : UtcKept s s0 := ⟨rfl, rfl, rfl, rfl⟩
  split
  · exact h0
  · obtain ⟨hcmd, hoff, hvalid, hlt⟩ := utcKept_setMtState (s := s) (t := stepMt s0 (-theta)) (st := .locked)
      ⟨rfl, rfl, rfl, rfl⟩
    exact ⟨hcmd, hoff, hvalid, hlt⟩
  · split
    · exact utcKept_mtCorrect h0
    · exact utcKept_refuse (utcKept_mtHoldover h0)
  · have h1 : UtcKept s { s0 with time := { s0.time with goodRun := 0 } } := ⟨rfl, rfl, rfl, rfl⟩
    split
    · exact utcKept_refuse h1
    · split
      · exact ⟨rfl, rfl, rfl, rfl⟩
      · exact utcKept_mtCorrect (utcKept_setMtState h1)

theorem utcKept_steerRoot (s : State) : UtcKept s (steerRoot s) := by
  unfold steerRoot
  split
  · exact ⟨rfl, rfl, rfl, rfl⟩
  · exact utcKept_mtOffset ..

/-- Outside a run the record of a time setting, and what follows it, leave the setting. -/
theorem utcKept_recorded {s : State} (sub : Nat) (off rate : Int) (hrun : s.inRun = false) : UtcKept s (steerRoot (timeRecord s sub off rate)) := by
  obtain ⟨_, hrec⟩ := recordOrStop_eq (s := s) 6 s.frameOrOnes sub 0
    (leBytes 1 sub ++ zeros 7 ++ leBytes 8 s.now ++ leBytes 8 (wrap 64 off) ++ leBytes 4 (wrap 32 rate) ++ zeros 4) false hrun
  obtain ⟨hcmd, hoff, hvalid, hlt⟩ := utcKept_steerRoot (timeRecord s sub off rate)
  have heq : timeRecord s sub off rate = _ := hrec
  rw [heq] at hcmd hoff hvalid hlt ⊢
  exact ⟨hcmd, hoff, hvalid, hlt⟩

theorem setLtState_eq (s : State) (st : TimeState) :
    ∃ alarms, setLtState s st = { s with time := { s.time with ltState := st }, alarms := alarms } := by
  unfold setLtState
  split
  · next h => exact ⟨s.alarms, by rw [← h]⟩
  · obtain ⟨_, _, he⟩ := boxEvent_eq { s with time := { s.time with ltState := st } } 8
      (leBytes 1 1 ++ leBytes 1 (timeCode s.time.ltState) ++ leBytes 1 (timeCode st))
    exact ⟨_, he⟩

/-- A setting of UTC that is no jump takes effect (R398). -/
theorem applyUtc_accepted {s : State} {utc off : Nat} (hrun : s.inRun = false)
    (hnear : s.ltValid = false ∨ s.ttLoaded = false ∨ (s.localTime - ((utc : Int) + (off * 1000000000 : Nat))).natAbs ≤ s.time.jumpNs) :
    ∃ m, applyUtc s utc off = (m, 0) ∧ m.cmd = s.cmd ∧ m.time.utcOffset = off ∧ m.time.utcOffsetValid = true ∧
      ((s.ltValid = false ∨ s.ttLoaded = false) → m.time.ltState = .locked) := by
  obtain ⟨d, hd⟩ : ∃ d, d = s.localTime - ((utc : Int) + (off * 1000000000 : Nat)) := ⟨_, rfl⟩
  rw [← hd] at hnear
  by_cases hfree : s.ltValid = false ∨ s.ttLoaded = false
  · have happly : applyUtc s utc off = (steerRoot (timeRecord (setLtState { s with time := { s.time with
        ltPending := 0, ltOffset := s.time.ltOffset - d * (2 ^ 32 : Nat), utcOffset := off, utcOffsetValid := true } } .locked) 4 (-d) 0), 0) := by
      rw [hd]
      unfold applyUtc
      exact if_pos (by simpa using hfree)
    obtain ⟨_, hlocked⟩ := setLtState_eq { s with time := { s.time with
      ltPending := 0, ltOffset := s.time.ltOffset - d * (2 ^ 32 : Nat), utcOffset := off, utcOffsetValid := true } } .locked
    rw [hlocked] at happly
    obtain ⟨hcmd, hoff, hvalid, hlt⟩ := utcKept_recorded (s := { s with
      alarms := _, time := { s.time with
        ltPending := 0, ltOffset := s.time.ltOffset - d * (2 ^ 32 : Nat), utcOffset := off, utcOffsetValid := true, ltState := .locked } })
      4 (-d) 0 hrun
    exact ⟨_, happly, hcmd, hoff, hvalid, fun _ => hlt⟩
  · have hclose : d.natAbs ≤ s.time.jumpNs := by
      rcases hnear with h | h | h
      · exact absurd (.inl h) hfree
      · exact absurd (.inr h) hfree
      · exact h
    have happly : applyUtc s utc off = (steerRoot (timeRecord { s with time := { s.time with
        ltPending := s.time.ltPending - d * (2 ^ 32 : Nat), utcOffset := off, utcOffsetValid := true } } 4 (-d) 0), 0) := by
      rw [hd] at hclose ⊢
      unfold applyUtc
      exact (if_neg (by simpa using hfree)).trans (if_pos hclose)
    obtain ⟨hcmd, hoff, hvalid, hlt⟩ := utcKept_recorded (s := { s with time := { s.time with
      ltPending := s.time.ltPending - d * (2 ^ 32 : Nat), utcOffset := off, utcOffsetValid := true } }) 4 (-d) 0 hrun
    exact ⟨_, happly, hcmd, hoff, hvalid, fun h => absurd h hfree⟩

theorem timeSetUtc_next {s s1 : State} {k : Packet} (h : Passes s cTimeSetUtc k s1) (hptp : s.time.ptpEn = false) (hwait : s.time.ppsWait = none) :
    (bit (k.par 26 1) 0 = true → k.par 16 8 % 1000000000 = 0 →
      ∃ t, exec (.timeSetUtc k) s = .next t ∧ t.time.ppsWait = some (k.par 16 8, k.par 24 2, k.seq) ∧ t.cmd.queue = s.cmd.queue) ∧
    (bit (k.par 26 1) 0 = false → s.inRun = false →
      (s.ltValid = false ∨ s.ttLoaded = false ∨
        (s.localTime - ((k.par 16 8 : Int) + (k.par 24 2 * 1000000000 : Nat))).natAbs ≤ s.time.jumpNs) →
      ∃ t, exec (.timeSetUtc k) s = .next t ∧ t.time.utcOffset = k.par 24 2 ∧ t.time.utcOffsetValid = true ∧ Replies s t k 0 0 [] ∧
        ((s.ltValid = false ∨ s.ttLoaded = false) → t.time.ltState = .locked)) := by
  obtain ⟨inv, rfl⟩ := host_of_passes h rfl
  refine ⟨fun hedge hwhole => ?_, fun hnow hrun hnear => ?_⟩
  · have hverdict : cTimeSetUtc.run k { s with cmd := { s.cmd with commands := s.cmd.commands + 1 }, inv := inv } = .silent
        { s with cmd := { s.cmd with commands := s.cmd.commands + 1 }, inv := inv,
                 time := { s.time with ppsWait := some (k.par 16 8, k.par 24 2, k.seq) } } := by
      unfold cTimeSetUtc
      dsimp only
      rw [if_neg (by simp [hptp]), if_neg (by simp [hwait]), if_neg (by simp [hwhole]), if_pos hedge]
    obtain ⟨_, hnext⟩ := hostCommand_silent h hverdict
    exact ⟨_, hnext, rfl, rfl⟩
  · obtain ⟨m, happly, hcmd, hoff, hvalid, hlt⟩ :=
      applyUtc_accepted (s := { s with cmd := { s.cmd with commands := s.cmd.commands + 1 }, inv := inv }) hrun hnear
    have hverdict : cTimeSetUtc.run k { s with cmd := { s.cmd with commands := s.cmd.commands + 1 }, inv := inv } = .final m stOk 0 [] := by
      unfold cTimeSetUtc
      dsimp only
      rw [if_neg (by simp [hptp]), if_neg (by simp [hwait]), if_neg (by simp [hnow]), if_neg (by simp [hnow]), happly]
      rfl
    obtain ⟨t, hnext, hanswer⟩ := hostCommand_final h hverdict (by decide)
    have hreply : Replies s t k 0 0 [] := hanswer.replies (by rw [hcmd]) (by rw [hcmd])
    obtain ⟨_, _, _, rfl⟩ := hanswer.eq
    exact ⟨_, hnext, hoff, hvalid, hreply, hlt⟩

/-! ### STAGE_SETTINGS (R452) -/

/-- Whether an image is well formed depends on the state only through the ranges of the entries. -/
theorem readTlvs_congr {s t : State} (h : entryOk t = entryOk s) (im : List Byte) (last : Nat) :
    ∀ fuel a, readTlvs t im last fuel a = readTlvs s im last fuel a
  | 0, _ => rfl
  | fuel + 1, a => by simp only [readTlvs, h, readTlvs_congr h im last fuel]

theorem readImage_congr {s t : State} (h : entryOk t = entryOk s) (im : List Byte) : readImage t im = readImage s im := by
  simp only [readImage, readTlvs_congr h]

theorem stageSettings_next {s s1 : State} {k : Packet} (h : Passes s cStageSettings k s1) (hlen : k.par 24 4 ≤ 262144) (hrun : s.inRun = false)
    {c : SetCopy} (himage : readImage s (slice k.pulled 0 (k.par 24 4)) = .ok c)
    (hsigned : s.signRequired = true → c.signedBy s.settings.keys = true) :
    ∃ t, exec (.stageSettings k) s = .next t ∧ t.settings = { s.settings with staged := some c } ∧
      Replies s t k 0 0 (resAt 24 (slice c.digest 0 64)) := by
  obtain ⟨inv, rfl⟩ := host_of_passes h rfl
  obtain ⟨inv', hpull⟩ := recordOrStop_eq (s := { s with cmd := { s.cmd with commands := s.cmd.commands + 1 }, inv := inv }) 2
    (State.frameOrOnes { s with cmd := { s.cmd with commands := s.cmd.commands + 1 }, inv := inv })
    (State.freeByte { s with cmd := { s.cmd with commands := s.cmd.commands + 1 }, inv := inv }).toNat (k.par 16 8)
    (slice k.pulled 0 (k.par 24 4)) false hrun
  have hnot {a b : Bool} (h : a = true → b = true) : ¬(a && !b) = true := by
    revert h
    cases a <;> cases b <;> decide
  have himage' : readImage { s with cmd := { s.cmd with commands := s.cmd.commands + 1 }, inv := inv', freeCtr := s.freeCtr + 1 }
      (slice k.pulled 0 (k.par 24 4)) = .ok c := (readImage_congr (by rfl) _).trans himage
  have hverdict : cStageSettings.run k { s with cmd := { s.cmd with commands := s.cmd.commands + 1 }, inv := inv } =
      okWith { s with cmd := { s.cmd with commands := s.cmd.commands + 1 }, inv := inv', freeCtr := s.freeCtr + 1,
                      settings := { s.settings with staged := some c } } (slice c.digest 0 64) := by
    unfold cStageSettings pullOther pullRecord State.useFree
    dsimp only
    rw [if_neg (Nat.not_lt.mpr hlen), hpull]
    dsimp only
    rw [himage']
    exact if_neg (hnot hsigned)
  obtain ⟨t, hnext, hanswer⟩ := hostCommand_final h hverdict (by decide)
  obtain ⟨_, _, _, rfl⟩ := hanswer.eq
  exact ⟨_, hnext, rfl, hanswer.replies rfl rfl⟩

/-! ### DEBUG_UNLOCK (R471 to R473) -/

theorem length_freeBytes (s : State) (n : Nat) : (s.freeBytes n).length = n := by
  unfold State.freeBytes
  rw [List.length_map, List.length_range]

theorem debugUnlockChallenge_next {s s1 : State} {k : Packet} (h : Passes s cDebugUnlock (k.withByte 16 0) s1) :
    ∃ t c, exec (.debugUnlockChallenge k) s = .next t ∧ c.length = 32 ∧ t.sec = { s.sec with challenge := some c, challengeAt := s.now } ∧
      Replies s t k 0 0 (resAt 24 c) := by
  obtain ⟨inv, rfl⟩ := host_of_passes h rfl
  have hverdict : cDebugUnlock.run (k.withByte 16 0) { s with cmd := { s.cmd with commands := s.cmd.commands + 1 }, inv := inv } =
      okWith { s with cmd := { s.cmd with commands := s.cmd.commands + 1 }, inv := inv, freeCtr := s.freeCtr + 32,
                      sec := { s.sec with challenge := some (s.freeBytes 32), challengeAt := s.now } } (s.freeBytes 32) := by
    unfold cDebugUnlock
    dsimp only
    rw [par_withByte k 0 (Nat.le_refl 16)]
    rfl
  obtain ⟨t, hnext, hanswer⟩ := hostCommand_final h hverdict (by decide)
  obtain ⟨_, _, _, rfl⟩ := hanswer.eq
  exact ⟨_, _, hnext, length_freeBytes s 32, rfl, hanswer.replies rfl rfl⟩

/-- A good response opens the debug logic, unless the fuse cannot be programmed (R472, R473). -/
theorem judgeUnlock_good {s : State} {k : Packet} (hgood : unlockGood s k = true)
    (hsig : Config.mldsaVerify (k.bytes 64 1952) (ascii "D1-DEBUG") (k.bytes 16 48) (k.bytes 2016 3309) = true)
    (hfuses : s.sec.unlockFuses < 64) :
    judgeUnlock s k = if Config.freeBool s.freeCtr then
        refuse { s with freeCtr := s.freeCtr + 1, sec := { s.sec with challenge := none } } stRejected 0x0836
      else .final { s with freeCtr := s.freeCtr + 1, sec := { s.sec with
        challenge := none, unlockFuses := s.sec.unlockFuses + 1, unlocked := true } } stOk 0 [] := by
  unfold judgeUnlock
  dsimp only
  rw [if_neg (by simp [hgood]), if_neg (by simp [hsig]), if_neg (Nat.not_le.mpr hfuses)]
  rfl

theorem debugUnlockResponse_next {s s1 : State} {k : Packet} (h : Passes s cDebugUnlock (k.withByte 16 1) s1)
    (hpblk : (k.withByte 16 1).pblk = true) (hplen : (k.withByte 16 1).plen = 5309) (hgood : unlockGood s (k.withByte 16 1) = true)
    (hsig : Config.mldsaVerify ((k.withByte 16 1).bytes 64 1952) (ascii "D1-DEBUG") ((k.withByte 16 1).bytes 16 48)
      ((k.withByte 16 1).bytes 2016 3309) = true) (hfuses : s.sec.unlockFuses < 64) :
    ∃ t, exec (.debugUnlockResponse k) s = .next t ∧ t.sec.challenge = none ∧
      (Config.freeBool s.freeCtr = false → t.sec.unlocked = true ∧ t.sec.unlockFuses = s.sec.unlockFuses + 1 ∧ Replies s t k 0 0 []) := by
  obtain ⟨inv, rfl⟩ := host_of_passes h rfl
  have hrun : cDebugUnlock.run (k.withByte 16 1) { s with cmd := { s.cmd with commands := s.cmd.commands + 1 }, inv := inv } =
      if Config.freeBool s.freeCtr then refuse { s with
        cmd := { s.cmd with commands := s.cmd.commands + 1 }, inv := inv, freeCtr := s.freeCtr + 1, sec := { s.sec with challenge := none } }
        stRejected 0x0836
      else .final { s with
        cmd := { s.cmd with commands := s.cmd.commands + 1 }, inv := inv, freeCtr := s.freeCtr + 1,
        sec := { s.sec with challenge := none, unlockFuses := s.sec.unlockFuses + 1, unlocked := true } } stOk 0 [] := by
    have hphase : cDebugUnlock.run (k.withByte 16 1) { s with cmd := { s.cmd with commands := s.cmd.commands + 1 }, inv := inv } =
        if !(k.withByte 16 1).pblk ∨ (k.withByte 16 1).plen ≠ 5309 then
          refuse { s with cmd := { s.cmd with commands := s.cmd.commands + 1 }, inv := inv } stBadParam 0
        else judgeUnlock { s with cmd := { s.cmd with commands := s.cmd.commands + 1 }, inv := inv } (k.withByte 16 1) := by
      unfold cDebugUnlock
      dsimp only
      rw [par_withByte k 1 (Nat.le_refl 16)]
      rfl
    rw [hphase, hpblk, hplen, if_neg (by decide)]
    exact judgeUnlock_good hgood hsig hfuses
  by_cases hfree : Config.freeBool s.freeCtr = true
  · obtain ⟨t, hnext, hanswer⟩ := hostCommand_final h (hrun.trans (if_pos hfree)) (by decide)
    obtain ⟨_, _, _, rfl⟩ := hanswer.eq
    exact ⟨_, hnext, rfl, fun hf => by rw [hfree] at hf; cases hf⟩
  · obtain ⟨t, hnext, hanswer⟩ := hostCommand_final h (hrun.trans (if_neg hfree)) (by decide)
    obtain ⟨_, _, _, rfl⟩ := hanswer.eq
    exact ⟨_, hnext, rfl, fun _ => ⟨rfl, rfl, hanswer.replies rfl rfl⟩⟩

theorem challengeLapse_next {s : State} (h : s.sec.challenge.isSome = true) :
    ∃ t, exec .challengeLapse s = .next t ∧ t.sec = { s.sec with challenge := none } := by
  obtain ⟨_, hadv⟩ := s.advanceTo_eq (s.sec.challengeAt + 60000000000)
  have hexec : execChallengeLapse s = .next { s.advanceTo (s.sec.challengeAt + 60000000000) with
      sec := { (s.advanceTo (s.sec.challengeAt + 60000000000)).sec with challenge := none } } :=
    if_neg (by rw [← Option.not_isSome, h]; decide)
  refine ⟨_, hexec, ?_⟩
  rw [hadv]

/-- Settles O39. -/
theorem settingCommandsTakeEffect : Obligations.SettingCommandsTakeEffect := fun _ _ _ =>
  ⟨negotiate_next, setMode_next, timeSetUtc_next, fun h hlen hrun _ himage hsigned => stageSettings_next h hlen hrun himage hsigned,
    debugUnlockChallenge_next, debugUnlockResponse_next, challengeLapse_next⟩

end Sys2Proof.Machine
end

section
/-! PROOFS. The run-control and stream commands of the host (R331 to R333, R368, R421, R422, R497). -/

namespace Sys2Proof.Machine

open Sys2Proof

/-! ### START (R421) -/

theorem replay_record (s : State) (kind frame sub src : Nat) (content : List Byte) (replayed pblk : Bool) :
    (record s kind frame sub src content replayed pblk).inv.replay = s.inv.replay ∧
      (record s kind frame sub src content replayed pblk).inv.replayNext = s.inv.replayNext := by
  unfold record
  dsimp only
  split
  · exact ⟨rfl, rfl⟩
  · split <;> exact ⟨rfl, rfl⟩

theorem replay_received (s : State) (op : Nat) (k : Packet) :
    (received s op k).inv.replay = s.inv.replay ∧ (received s op k).inv.replayNext = s.inv.replayNext := by
  have hopen (m : State) : (openLink m op).inv.replay = m.inv.replay ∧ (openLink m op).inv.replayNext = m.inv.replayNext := by
    unfold openLink
    split <;> exact ⟨rfl, rfl⟩
  have hrecord (m : State) : (recordCommand m op k).inv.replay = m.inv.replay ∧ (recordCommand m op k).inv.replayNext = m.inv.replayNext := by
    unfold recordCommand
    dsimp only
    split <;> exact replay_record ..
  unfold received
  dsimp only
  split
  · exact ⟨(hrecord _).1.trans (hopen _).1, (hrecord _).2.trans (hopen _).2⟩
  · exact ⟨rfl, rfl⟩

/-- Nothing but the streams and the bytes of the Hatch differs. -/
def StreamsFrom (s t : State) : Prop := ∃ streams hatch, t = { s with streams := streams, hatch := hatch }

theorem StreamsFrom.refl (s : State) : StreamsFrom s s := ⟨_, _, rfl⟩

theorem StreamsFrom.trans {s t u : State} (h : StreamsFrom s t) (h' : StreamsFrom t u) : StreamsFrom s u := by
  obtain ⟨_, _, rfl⟩ := h
  obtain ⟨_, _, rfl⟩ := h'
  exact ⟨_, _, rfl⟩

theorem streamsFrom_foldl {β : Type} {f : State → β → State} (hf : ∀ m b, StreamsFrom m (f m b)) (l : List β) (s : State) :
    StreamsFrom s (l.foldl f s) := foldl_keeps (P := StreamsFrom s) f (fun m b hm => hm.trans (hf m b)) l (.refl s)

theorem streamsFrom_ingestWrite (s : State) (off : Nat) (bs : List Byte) : StreamsFrom s (ingestWrite s off bs) := by
  unfold ingestWrite
  split
  · exact ⟨_, _, rfl⟩
  · exact .refl s

theorem streamsFrom_markDrain (s : State) (f n : Nat) : StreamsFrom s (markDrain s f n) := by
  unfold markDrain
  split
  · exact ⟨_, _, rfl⟩
  · exact .refl s

theorem streamsFrom_buildStop (f : Nat) (s : State) (r : BatchRec) : StreamsFrom s (buildStop f s r) := by
  unfold buildStop
  dsimp only
  split
  · exact .refl s
  · have hdrain (b : Bool) : StreamsFrom s (if b then markDrain s (f - 1) r.entry else s) := by
      cases b
      · exact .refl s
      · exact streamsFrom_markDrain ..
    exact (hdrain _).trans ⟨_, _, rfl⟩

theorem streamsFrom_buildLeave (f : Nat) (s : State) (x : Nat × Stream) : StreamsFrom s (buildLeave f s x) := by
  unfold buildLeave finishStream
  dsimp only
  split
  · exact ⟨_, _, rfl⟩
  · split
    · exact ⟨_, _, rfl⟩
    · split
      · exact ⟨_, _, rfl⟩
      · exact .refl s

theorem streamsFrom_buildPlace (f : Nat) : ∀ (fuel : Nat) (s : State), StreamsFrom s (buildPlace f fuel s)
  | 0, s => .refl s
  | fuel + 1, s => by
    unfold buildPlace
    split
    · dsimp only
      split
      · exact .refl s
      · exact StreamsFrom.trans ⟨_, _, rfl⟩ (streamsFrom_buildPlace f fuel _)
    · exact .refl s

theorem streamsFrom_buildRecord (f : Nat) (s : State) (l : List BatchRec) (b : Nat) : StreamsFrom s (buildRecord f (s, l) b).1 := by
  unfold buildRecord
  dsimp only
  split
  · exact streamsFrom_ingestWrite ..
  · refine StreamsFrom.trans ?_ ⟨_, _, rfl⟩
    split
    · exact (streamsFrom_ingestWrite ..).trans (streamsFrom_ingestWrite ..)
    · exact streamsFrom_ingestWrite ..

theorem streamsFrom_buildTable (s : State) (f : Nat) : StreamsFrom s (buildTable s f) := by
  have hrecords (l : List Nat) (m : State) : StreamsFrom m (l.foldl (buildRecord f) (m, [])).1 :=
    foldl_keeps (P := fun x : State × List BatchRec => StreamsFrom m x.1) (buildRecord f)
      (fun x b hx => hx.trans (streamsFrom_buildRecord f x.1 x.2 b)) l (.refl m)
  unfold buildTable
  split
  · exact .refl s
  · extract_lets s1 s2 due s3 s4
    have h1 : StreamsFrom s s1 := by
      unfold s1
      split
      · exact .refl s
      · exact streamsFrom_foldl (streamsFrom_buildStop f) _ s
    have h2 : StreamsFrom s s2 := h1.trans (streamsFrom_foldl (streamsFrom_buildLeave f) _ s1)
    have h3 : StreamsFrom s s3 := h2.trans (streamsFrom_foldl (fun _ _ => ⟨_, _, rfl⟩) due s2)
    have h4 : StreamsFrom s s4 := h3.trans (streamsFrom_buildPlace f _ s3)
    exact (h4.trans (hrecords _ s4)).trans ⟨_, _, rfl⟩

/-- The package just accepted for a run, before its first table is built (R421). -/
structure RunBegun (tick f : Nat) (t : State) : Prop where
  dev : t.dev = .running
  nextTick : t.frame.nextTick = tick
  waitStart : t.frame.waitStart = true
  stopped : t.frame.stopped = false
  frameIndex : t.frameIndex = f
  latch : t.alarms.latch = none
  freezes : t.fabric.freezes = 0
  faults : t.stats.faults = 0

theorem RunBegun.streams {tick f : Nat} {t u : State} (h : RunBegun tick f t) (hfrom : StreamsFrom t u) : RunBegun tick f u := by
  obtain ⟨_, _, rfl⟩ := hfrom
  exact ⟨h.dev, h.nextTick, h.waitStart, h.stopped, h.frameIndex, h.latch, h.freezes, h.faults⟩

/-- Without a replay stream `START` applies no command of one. -/
theorem replayAtStart_none {s : State} (h : s.inv.replay = none) : replayAtStart s = s := by
  unfold replayAtStart State.recsBefore State.recsAfter
  rw [h]
  rfl

/-- The counters and the latch cleared, and the run waiting for its first tick. -/
def startCleared (tick : Nat) (s : State) : State :=
  let s1 := clearRunCounters (if s.startFrame = 0 then freshChains s else s)
  { s1 with
    hatch := { s1.hatch with reqDropped := 0 }, alarms := { s1.alarms with latch := none },
    inv := { s1.inv with records := 0, wasHoldover := s1.time.ltState == .holdover, utcStart := 0, utcEnd := 0, ueBase := s1.cellar.ueCount,
                         portCheck := [] },
    fabric := { s1.fabric with frameIndex := BitVec.ofNat 64 s.startFrame },
    frame := { s1.frame with
      nextTick := tick, tickWait := true, waitStart := true, ranOnce := true, firstFrame := s.startFrame, framesRun := 0, lastClean := none,
      stopped := false, completedAt := none, tickTaken := false } }

theorem startFrame_lt (s : State) : s.startFrame < 2 ^ 64 := by
  unfold State.startFrame
  split
  · decide
  · exact s.fabric.frameIndex.isLt

/-- The run once its Hatch is recorded: the replayed commands, the device's state, and the table of frame 0. -/
def startBegun (f : Nat) (s : State) : State :=
  let s4 := setDev (replayAtStart s) (if s.inv.replayNext then .replay else .running)
  if f = 0 then buildTable s4 0 else s4

theorem startBegun_first {f : Nat} {s : State} (hreplay : s.inv.replay = none) (hnext : s.inv.replayNext = false) :
    startBegun f s = if f = 0 then buildTable (setDev s .running) 0 else setDev s .running := by
  unfold startBegun
  rw [replayAtStart_none hreplay, hnext]
  rfl

theorem startRun_begins {s : State} (tick : Nat) (hreplay : s.inv.replay = none) (hnext : s.inv.replayNext = false) :
    RunBegun tick s.startFrame (startRun tick s) := by
  have hrun : startRun tick s =
      startBegun s.startFrame (record (startCleared tick s) 9 s.startFrame 0 0 (startCleared tick s).hatchDigests) := rfl
  have hcleared : (startCleared tick s).inv.replay = none ∧ (startCleared tick s).inv.replayNext = false := by
    unfold startCleared
    dsimp only
    split <;> exact ⟨hreplay, hnext⟩
  obtain ⟨hrep, hrepNext⟩ := replay_record (startCleared tick s) 9 s.startFrame 0 0 (startCleared tick s).hatchDigests false false
  have hbegun : RunBegun tick s.startFrame
      (setDev (record (startCleared tick s) 9 s.startFrame 0 0 (startCleared tick s).hatchDigests) .running) := by
    obtain ⟨_, hr⟩ := record_eq (startCleared tick s) 9 s.startFrame 0 0 (startCleared tick s).hatchDigests false false
    obtain ⟨_, _, _, hdev⟩ := setDev_eq (record (startCleared tick s) 9 s.startFrame 0 0 (startCleared tick s).hatchDigests) .running
    have hindex : (BitVec.ofNat 64 s.startFrame).toNat = s.startFrame := Nat.mod_eq_of_lt (startFrame_lt s)
    rw [hdev, hr]
    exact ⟨rfl, rfl, rfl, rfl, hindex, rfl, rfl, rfl⟩
  rw [hrun, startBegun_first (hrep.trans hcleared.1) (hrepNext.trans hcleared.2)]
  split
  · exact hbegun.streams (streamsFrom_buildTable ..)
  · exact hbegun

theorem cStart_run {s : State} {k : Packet} (htick : s.tickOk (k.par 16 8) = true) (hlock : s.time.mtState = .locked)
    (hnext : s.inv.replayNext = false) : cStart.run k s = .long s (startRun (k.par 16 8)) := by
  unfold cStart
  dsimp only
  rw [if_neg (by simpa using htick), if_neg (by simpa using hlock), if_neg (by simp [hnext])]

theorem start_next {s s1 : State} {k : Packet} (h : Passes s cStart k s1) (htick : s.tickOk (k.par 16 8) = true) (hlock : s.time.mtState = .locked)
    (hnext : s.inv.replayNext = false) (hreplay : s.inv.replay = none) :
    ∃ t, exec (.start k) s = .next t ∧ t.dev = .running ∧ t.frame.nextTick = k.par 16 8 ∧ t.frame.waitStart = true ∧ t.frame.stopped = false ∧
      t.frameIndex = s.startFrame ∧ t.alarms.latch = none ∧ t.fabric.freezes = 0 ∧ t.stats.faults = 0 := by
  obtain ⟨hrep, hrepNext⟩ : s1.inv.replay = none ∧ s1.inv.replayNext = false := by
    obtain ⟨-, rfl⟩ := h.host rfl
    obtain ⟨hrep, hrepNext⟩ := replay_received s cStart.opcode k
    exact ⟨hrep.trans hreplay, hrepNext.trans hnext⟩
  obtain ⟨inv, rfl⟩ := counted_of_passes h rfl
  obtain ⟨_, hexec⟩ := hostCommand_long h (cStart_run htick hlock hrepNext)
  obtain ⟨⟨_, _, hacc⟩, -⟩ := accepted_eq cStart k (counted s inv)
  have hbegun := startRun_begins (s := accepted cStart k (counted s inv)) (k.par 16 8) (by rw [hacc]; exact hrep) (by rw [hacc]; exact hrepNext)
  have hframe : (accepted cStart k (counted s inv)).startFrame = s.startFrame := by
    rw [hacc]
    rfl
  rw [hframe] at hbegun
  exact ⟨_, hexec, hbegun.dev, hbegun.nextTick, hbegun.waitStart, hbegun.stopped, hbegun.frameIndex, hbegun.latch, hbegun.freezes, hbegun.faults⟩

/-- What an accepted command acts on: the package as it was but for the command window and the inventory, with the reply posted. -/
structure AcceptedFrom (s : State) (k : Packet) (m : State) : Prop where
  eq : ∃ cmd inv, m = { s with cmd := cmd, inv := inv }
  replies : Replies s m k 1 0 []

theorem AcceptedFrom.replies_of_cmd {s m t : State} {k : Packet} (h : AcceptedFrom s k m) (hcmd : t.cmd = m.cmd) : Replies s t k 1 0 [] :=
  fun hen hroom => (congrArg CmdWin.queue hcmd).trans (h.replies hen hroom)

theorem AcceptedFrom.frame {s m : State} {k : Packet} (h : AcceptedFrom s k m) : m.frame = s.frame := by
  obtain ⟨_, _, rfl⟩ := h.eq
  rfl

theorem AcceptedFrom.frameIndex {s m : State} {k : Packet} (h : AcceptedFrom s k m) : m.frameIndex = s.frameIndex := by
  obtain ⟨_, _, rfl⟩ := h.eq
  rfl

theorem AcceptedFrom.paused {s m : State} {k : Packet} (h : AcceptedFrom s k m) : m.paused = s.paused := by
  obtain ⟨_, _, rfl⟩ := h.eq
  rfl

theorem AcceptedFrom.now {s m : State} {k : Packet} (h : AcceptedFrom s k m) : m.now = s.now := by
  obtain ⟨_, _, rfl⟩ := h.eq
  rfl

/-- A command that answers `ACCEPTED` first and then acts (R416). -/
theorem hostCommand_accepted {s s1 : State} {c : Cmd} {k : Packet} {act : State → State} (h : Passes s c k s1) (hown : needsOwner k c = false)
    (hrun : ∀ m : State, m.frameIndex = s.frameIndex → m.dev = s.dev → m.time = s.time → c.run k m = .long m act) :
    ∃ m inv, hostCommand c k s = .next { act m with inv := inv } ∧ AcceptedFrom s k m := by
  obtain ⟨inv, rfl⟩ := counted_of_passes h hown
  obtain ⟨inv', hexec⟩ := hostCommand_long h (hrun (counted s inv) rfl rfl rfl)
  obtain ⟨⟨_, _, hacc⟩, hreply⟩ := accepted_eq c k (counted s inv)
  exact ⟨_, inv', hexec, ⟨_, _, hacc⟩, hreply⟩

/-! ### HOLD and RUN_TO_FRAME (R421) -/

/-- The pause and the frame to run to stay, unless the run stops. -/
def PauseKept (s t : State) : Prop := (t.frame.pauseAt = s.frame.pauseAt ∧ t.frame.runTo = s.frame.runTo) ∨ t.frame.stopped = true

theorem pauseKept_checkLate {s t : State} (h : t.frame.pauseAt = s.frame.pauseAt ∧ t.frame.runTo = s.frame.runTo) : PauseKept s (checkLate t) := by
  have hstop (reason : Nat) : PauseKept s (stopNow t reason) := by
    by_cases hrun : t.runOn = true
    · exact .inr (endsRun_stopNow reason hrun).stopped
    · unfold stopNow
      rw [if_pos (by simpa using hrun)]
      exact .inl h
  unfold checkLate
  split
  · exact .inl h
  · split
    · exact .inl h
    · split
      · split
        · exact hstop _
        · exact .inl h
      · exact .inl h

theorem frame_sendNote (s : State) (ntype : Nat) (dest : Option (Nat × Nat × Nat)) (payload : List Byte) :
    (sendNote s ntype dest payload).frame = s.frame := by
  obtain ⟨_, _, _, _, h, -⟩ := sendNote_eq s ntype dest payload
  rw [h]

theorem frame_boxEvent (s : State) (kind : Nat) (body : List Byte) : (boxEvent s kind body).frame = s.frame := by
  obtain ⟨_, _, h⟩ := boxEvent_eq s kind body
  rw [h]

theorem pauseKept_sendReady {s t : State} (h : t.frame.pauseAt = s.frame.pauseAt ∧ t.frame.runTo = s.frame.runTo) : PauseKept s (sendReady t) := by
  unfold sendReady
  split
  · split
    · exact .inl h
    · refine pauseKept_checkLate ?_
      rw [frame_sendNote]
      exact h
  · exact .inl h

theorem pauseKept_sendHold (s : State) (cause : Nat) (pause : Bool) : PauseKept s (sendHold s cause pause) := by
  unfold sendHold
  dsimp only
  split
  · exact .inl ⟨rfl, rfl⟩
  · split
    · split
      · refine .inl ?_
        rw [frame_boxEvent]
        dsimp only
        rw [frame_sendNote]
        exact ⟨rfl, rfl⟩
      · exact .inl ⟨rfl, rfl⟩
    · refine pauseKept_sendReady ?_
      rw [frame_boxEvent]
      dsimp only
      rw [frame_sendNote]
      exact ⟨rfl, rfl⟩

theorem pauseKept_pauseAfter (f : Nat) (s : State) : PauseKept s (pauseAfter f s) := by
  unfold pauseAfter
  split
  · exact pauseKept_sendHold ..
  · exact .inl ⟨rfl, rfl⟩

/-- A pause that is still ahead, or whose frame is not complete, leaves the command window. -/
theorem pauseAfter_quiet {f : Nat} {s : State} (h : f ≠ s.frameIndex ∨ s.frame.completedAt = none) :
    (pauseAfter f s).cmd = s.cmd ∧ (pauseAfter f s).frame.pauseAt = s.frame.pauseAt ∧ (pauseAfter f s).frame.runTo = s.frame.runTo := by
  unfold pauseAfter
  split
  · next hf =>
    obtain ⟨_, _, _, _, _, _, _, _, _, _, hhold⟩ := holdFrom_sendHold 4 true (h.resolve_left fun hne => hne hf)
    rw [hhold]
    exact ⟨rfl, rfl, rfl⟩
  · exact ⟨rfl, rfl, rfl⟩

/-- The frame to pause after is recorded, and asked for where it is the present one. -/
def pauseAsked (f : Nat) (m : State) : State := pauseAfter f { m with frame := { m.frame with pauseAt := some f } }

theorem pauseAsked_keeps (f : Nat) (m : State) : (pauseAsked f m).frame.pauseAt = some f ∨ (pauseAsked f m).frame.stopped = true :=
  (pauseKept_pauseAfter f _).imp (fun hk => hk.1) id

theorem pauseAsked_quiet {f : Nat} {m : State} (h : f ≠ m.frameIndex ∨ m.frame.completedAt = none) :
    (pauseAsked f m).cmd = m.cmd ∧ (pauseAsked f m).frame.pauseAt = some f := by
  obtain ⟨hcmd, hpause, -⟩ := pauseAfter_quiet (s := { m with frame := { m.frame with pauseAt := some f } }) h
  exact ⟨hcmd, hpause⟩

/-- The frame that a `HOLD` names. -/
def holdFrameOf (s : State) (k : Packet) : Nat := if k.par 16 8 = ones64 then s.frameIndex else k.par 16 8

theorem cHold_run {s : State} {k : Packet} (hf : s.frameIndex ≤ holdFrameOf s k) : cHold.run k s = .long s (pauseAsked (holdFrameOf s k)) := by
  unfold cHold
  exact if_neg (Nat.not_lt.mpr hf)

theorem hold_next {s s1 : State} {k : Packet} (h : Passes s cHold k s1) (hf : s.frameIndex ≤ holdFrameOf s k) :
    ∃ t, exec (.hold k) s = .next t ∧ (t.frame.pauseAt = some (holdFrameOf s k) ∨ t.frame.stopped = true) ∧
      (holdFrameOf s k ≠ s.frameIndex ∨ s.frame.completedAt = none → t.frame.pauseAt = some (holdFrameOf s k) ∧ Replies s t k 1 0 []) := by
  have hrun (m : State) (hm : m.frameIndex = s.frameIndex) (_ : m.dev = s.dev) (_ : m.time = s.time) :
      cHold.run k m = .long m (pauseAsked (holdFrameOf s k)) := by
    have hsame : holdFrameOf m k = holdFrameOf s k := by
      unfold holdFrameOf
      rw [hm]
    rw [← hsame]
    exact cHold_run (by rwa [hsame, hm])
  obtain ⟨m, inv, hexec, hm⟩ := hostCommand_accepted h rfl hrun
  refine ⟨_, hexec, pauseAsked_keeps _ m, fun hquiet => ?_⟩
  rw [← hm.frameIndex, ← hm.frame] at hquiet
  obtain ⟨hcmd, hpause⟩ := pauseAsked_quiet hquiet
  exact ⟨hpause, hm.replies_of_cmd hcmd⟩

/-- The frame to run to is recorded, and asked for where a frame is in progress. -/
def runToAsked (f : Nat) (m : State) : State :=
  let m1 := { m with frame := { m.frame with runTo := some f } }
  if m1.inFrame then pauseAfter f m1 else m1

theorem runToAsked_keeps (f : Nat) (m : State) : (runToAsked f m).frame.runTo = some f ∨ (runToAsked f m).frame.stopped = true := by
  unfold runToAsked
  dsimp only
  split
  · exact (pauseKept_pauseAfter f _).imp (fun hk => hk.2) id
  · exact .inl rfl

theorem runToAsked_quiet {f : Nat} {m : State} (h : f ≠ m.frameIndex ∨ m.frame.completedAt = none) :
    (runToAsked f m).cmd = m.cmd ∧ (runToAsked f m).frame.runTo = some f := by
  unfold runToAsked
  dsimp only
  split
  · obtain ⟨hcmd, -, hto⟩ := pauseAfter_quiet (s := { m with frame := { m.frame with runTo := some f } }) h
    exact ⟨hcmd, hto⟩
  · exact ⟨rfl, rfl⟩

theorem cRunToFrame_run {s : State} {k : Packet} (hf : s.frameIndex ≤ k.par 16 8) : cRunToFrame.run k s = .long s (runToAsked (k.par 16 8)) := by
  unfold cRunToFrame
  exact if_neg (Nat.not_lt.mpr hf)

theorem runToFrame_next {s s1 : State} {k : Packet} (h : Passes s cRunToFrame k s1) (hf : s.frameIndex ≤ k.par 16 8) :
    ∃ t, exec (.runToFrame k) s = .next t ∧ (t.frame.runTo = some (k.par 16 8) ∨ t.frame.stopped = true) ∧
      (k.par 16 8 ≠ s.frameIndex ∨ s.frame.completedAt = none → t.frame.runTo = some (k.par 16 8) ∧ Replies s t k 1 0 []) := by
  obtain ⟨m, inv, hexec, hm⟩ := hostCommand_accepted h rfl fun m hm _ _ => cRunToFrame_run (hm ▸ hf)
  refine ⟨_, hexec, runToAsked_keeps _ m, fun hquiet => ?_⟩
  rw [← hm.frameIndex, ← hm.frame] at hquiet
  obtain ⟨hcmd, hto⟩ := runToAsked_quiet hquiet
  exact ⟨hto, hm.replies_of_cmd hcmd⟩

/-! ### RESUME (R421, R43) -/

theorem le_of_latestReady : ∀ (l : List HoldRec) {t r : Nat}, latestReady l t = some r → t ≤ r
  | [], t, r, h => Nat.le_of_eq (Option.some.inj h)
  | x :: l, t, r, h => by
    unfold latestReady at h
    split at h
    · exact Nat.le_trans (Nat.le_max_left ..) (le_of_latestReady l h)
    · cases h

/-- In a pause a tick that this device proposes and that is still to come is not too late. -/
theorem checkLate_of_ahead {s : State} {tick : Nat} (hpaused : s.paused = true) (hready : s.frame.ownReady = some tick) (hahead : s.now ≤ tick) :
    checkLate s = s := by
  unfold checkLate
  split
  · rfl
  · split
    · rfl
    · split
      · next t ht =>
        refine if_neg (Nat.not_lt.mpr (Nat.le_trans hahead ?_))
        unfold State.agreedTick at ht
        rw [if_pos hpaused, hready] at ht
        exact le_of_latestReady _ ht
      · rfl

/-- The ready note of a `RESUME`, and what follows it. -/
def resumed (tick : Nat) (m : State) : State :=
  checkLate (sendNote { m with frame := { m.frame with ownReady := some tick } } 0x11 none (leBytes 8 m.holdFrame ++ leBytes 8 tick))

theorem resumed_spec {m : State} {tick : Nat} (hpaused : m.paused = true) (hahead : m.now ≤ tick) :
    (resumed tick m).frame.ownReady = some tick ∧ (resumed tick m).cmd = m.cmd := by
  obtain ⟨_, _, _, _, hnote, -⟩ := sendNote_eq { m with frame := { m.frame with ownReady := some tick } } 0x11 none
    (leBytes 8 m.holdFrame ++ leBytes 8 tick)
  unfold resumed
  rw [checkLate_of_ahead, hnote]
  · exact ⟨rfl, rfl⟩
  · rw [hnote]
    exact hpaused
  · rw [hnote]
  · rw [hnote]
    exact hahead

theorem cResume_run {s : State} {k : Packet} (htick : s.tickOk (k.par 16 8) = true) (hlock : s.time.mtState = .locked) :
    cResume.run k s = .long s (resumed (k.par 16 8)) := by
  unfold cResume
  dsimp only
  rw [if_neg (by simpa using htick), if_neg (by simpa using hlock)]
  rfl

/-- `RESUME` passes its checks in a pause alone (R418, R421). -/
theorem paused_of_resume {s s1 : State} {k : Packet} (h : Passes s cResume k s1) : s.paused = true := by
  have hstate := h.state
  obtain ⟨_, hrec⟩ := received_eq s cResume.opcode k
  rw [hrec] at hstate
  unfold stateAllows cResume at hstate
  simp only [Bool.and_eq_true] at hstate
  obtain ⟨⟨hdev, hstop⟩, -⟩ := hstate
  have hheld : s.dev = .held := by simpa using hdev
  unfold State.paused
  simpa [hheld] using hstop

theorem resume_next {s s1 : State} {k : Packet} (h : Passes s cResume k s1) (htick : s.tickOk (k.par 16 8) = true)
    (hlock : s.time.mtState = .locked) :
    ∃ t, exec (.resume k) s = .next t ∧ t.frame.ownReady = some (k.par 16 8) ∧ Replies s t k 1 0 [] := by
  have hpaused := paused_of_resume h
  have hahead : s.now ≤ k.par 16 8 := by
    have hnow : s.now + 80 * 1024 ≤ k.par 16 8 := by simpa using (Bool.and_eq_true_iff.mp htick).2
    omega
  have hrun (m : State) (_ : m.frameIndex = s.frameIndex) (_ : m.dev = s.dev) (hm : m.time = s.time) :
      cResume.run k m = .long m (resumed (k.par 16 8)) := by
    refine cResume_run ?_ ?_
    · unfold State.tickOk State.now at htick ⊢
      rwa [hm]
    · rwa [hm]
  obtain ⟨m, inv, hexec, hm⟩ := hostCommand_accepted h rfl hrun
  obtain ⟨hready, hcmd⟩ := resumed_spec (hm.paused.trans hpaused) (hm.now.le.trans hahead)
  exact ⟨_, hexec, hready, hm.replies_of_cmd hcmd⟩

/-! ### ABORT (R422, R497) -/

theorem abortFrame_spec (unload : Bool) (s : State) :
    (abortFrame unload s).frame.abortAt = some s.frameIndex ∧ (abortFrame unload s).frame.abortUnload = unload ∧
      (abortFrame unload s).cmd = s.cmd := by
  obtain ⟨_, _, _, hlatch, -⟩ := latchFault_eq s (s.deviceRec 0x0A10 0) 0
  obtain ⟨_, _, _, _, _, _, hstop, -⟩ := sendStop_eq (latchFault s (s.deviceRec 0x0A10 0) 0) 0x0A10
  unfold abortFrame
  rw [hstop, hlatch]
  exact ⟨rfl, rfl, rfl⟩

theorem cAbort_running {s : State} {k : Packet} (hdev : s.dev = .running) : cAbort.run k s = .long s (abortFrame (bit (k.par 16 1) 0)) := by
  unfold cAbort
  dsimp only
  rw [hdev]

theorem abort_running {s s1 : State} {k : Packet} (h : Passes s cAbort k s1) (hdev : s.dev = .running) :
    ∃ t, exec (.abort k) s = .next t ∧ t.frame.abortAt = some s.frameIndex ∧ t.frame.abortUnload = bit (k.par 16 1) 0 ∧ Replies s t k 1 0 [] := by
  obtain ⟨m, inv, hexec, hm⟩ := hostCommand_accepted h rfl fun m _ hm _ => cAbort_running (hm.trans hdev)
  obtain ⟨habort, hunload, hcmd⟩ := abortFrame_spec (bit (k.par 16 1) 0) m
  exact ⟨_, hexec, habort.trans (congrArg some hm.frameIndex), hunload, hm.replies_of_cmd hcmd⟩

/-- The run of a package that executes no frame, ended: a stopped run keeps its certificate. -/
def heldEnded (s : State) : State := if s.frame.stopped then s else closeRun s 2

/-- A run that executes no frame ends at once: `LOADED`, with `STOPPED` clear. -/
theorem abortHeld_spec (s : State) : (abortHeld s).dev = .loaded ∧ (abortHeld s).frame.stopped = false := by
  have hset (m : State) : ∃ events drops due, setDev { m with frame := { m.frame with stopped := false } } .loaded =
      { m with frame := { m.frame with stopped := false }, dev := .loaded, sec := { m.sec with events := events },
               alarms := { m.alarms with eventDrops := drops, partialDue := due } } := setDev_eq _ _
  obtain ⟨_, _, _, hdev⟩ := hset (heldEnded s)
  obtain ⟨_, _, _, hr⟩ := (repliesFrom_finishCommand (setDev { heldEnded s with frame := { (heldEnded s).frame with stopped := false } } .loaded)
    0x30 stFaulted 0x0A10 (resFrame s.frame.lastClean)).trans (repliesFrom_failRunControl _ 0x0A10 false)
  have habort : abortHeld s = _ := hr
  rw [habort, hdev]
  exact ⟨rfl, rfl⟩

/-! ### UNLOAD (R422) -/

/-- What the cellars' repair leaves alone; a placement that does not stand stays so. -/
structure RepairKept (s t : State) : Prop where
  dev : t.dev = s.dev
  cmd : t.cmd = s.cmd
  resets : t.resets = s.resets
  image : t.mgmt.loadedImage = s.mgmt.loadedImage
  placed : s.mgmt.placed = none → t.mgmt.placed = none

section
variable {s t : State}

theorem RepairKept.refl (s : State) : RepairKept s s := ⟨rfl, rfl, rfl, rfl, id⟩

theorem repairKept_foldl {β : Type} {f : State → β → State} (l : List β) (hf : ∀ m b, RepairKept s m → RepairKept s (f m b))
    (h : RepairKept s t) : RepairKept s (l.foldl f t) := foldl_keeps (P := RepairKept s) f hf l h

theorem repairKept_raiseAlarm {reason source : Nat} {body : List Byte} {fault perFrame : Bool} (h : RepairKept s t) :
    RepairKept s (raiseAlarm t reason source body fault perFrame) := by
  obtain ⟨_, _, _, he, -⟩ := raiseAlarm_eq t reason source body fault perFrame
  rw [he]
  exact ⟨h.dev, h.cmd, h.resets, h.image, h.placed⟩

theorem repairKept_scrubOut {k a : Nat} (h : RepairKept s t) : RepairKept s (scrubOut k t a) := by
  unfold scrubOut
  dsimp only
  split
  · exact repairKept_raiseAlarm ⟨h.dev, h.cmd, h.resets, h.image, h.placed⟩
  · exact ⟨h.dev, h.cmd, h.resets, h.image, h.placed⟩

theorem repairKept_computeZones (h : RepairKept s t) : RepairKept s (computeZones t) := by
  unfold computeZones
  split
  · exact ⟨h.dev, h.cmd, h.resets, h.image, h.placed⟩
  · split
    · exact ⟨h.dev, h.cmd, h.resets, h.image, h.placed⟩
    · exact repairKept_raiseAlarm ⟨h.dev, h.cmd, h.resets, h.image, h.placed⟩

theorem repairKept_deviceCommit (h : RepairKept s t) : RepairKept s (deviceCommit t) := ⟨h.dev, h.cmd, h.resets, h.image, h.placed⟩

/-- A change of the cellars after which the placement does not stand. -/
theorem RepairKept.unplaced {cellar : Cellar} (h : RepairKept s t) :
    RepairKept s { t with cellar := cellar, mgmt := { t.mgmt with placed := none } } := ⟨h.dev, h.cmd, h.resets, h.image, fun _ => rfl⟩

theorem repairKept_retirePc {k : Nat} (h : RepairKept s t) : RepairKept s (retirePc t k) := by
  unfold retirePc
  split
  · exact h
  · exact repairKept_deviceCommit (repairKept_computeZones h.unplaced)

/-- The sectors of a page corrected, then copied to a spare one. -/
def pageMoved (s : State) (k page spare : Nat) : State :=
  (List.range 128).foldl (copySector k (page * 128) (spare * 128)) ((List.range 128).foldl (fun m i => scrubOut k m (page * 128 + i)) s)

theorem repairKept_pageMoved (k page spare : Nat) (h : RepairKept s t) : RepairKept s (pageMoved t k page spare) :=
  repairKept_foldl _ (fun _ _ hm => ⟨hm.dev, hm.cmd, hm.resets, hm.image, hm.placed⟩) (repairKept_foldl _ (fun _ _ => repairKept_scrubOut) h)

theorem repairKept_retirePage {k page : Nat} (h : RepairKept s t) : RepairKept s (retirePage t k page) := by
  unfold retirePage
  extract_lets used spare t1 t2
  have hmoved : RepairKept s t2 := repairKept_pageMoved k page spare h
  split
  · exact h
  · split
    · exact repairKept_retirePc h
    · exact repairKept_deviceCommit hmoved.unplaced

theorem repairKept_repairRow {r : RepairEntry} (h : RepairKept s t) : RepairKept s (repairRow t r) := by
  unfold repairRow
  dsimp only
  split
  · exact h
  · split
    · exact repairKept_foldl _ (fun _ _ => repairKept_scrubOut) ⟨h.dev, h.cmd, h.resets, h.image, h.placed⟩
    · exact repairKept_retirePage h

theorem repairKept_repairCellars (h : RepairKept s t) : RepairKept s (repairCellars t) := by
  unfold repairCellars
  exact repairKept_foldl _ (fun _ _ => repairKept_retirePc)
    (repairKept_foldl _ (fun _ _ => repairKept_repairRow) ⟨h.dev, h.cmd, h.resets, h.image, h.placed⟩)

theorem repairKept_stored (h : RepairKept s t) : RepairKept s (storeCounters (storeWear t)) := by
  have hwear : RepairKept s (storeWear t) := by
    unfold storeWear
    split
    · exact h
    · exact repairKept_deviceCommit h
  unfold storeCounters
  split
  · exact hwear
  · exact repairKept_deviceCommit hwear

end

/-- The device is idle, and beside the repair of the cellars nothing happens. -/
theorem enterIdle_kept (s : State) : RepairKept { s with dev := .idle } (enterIdle s) := by
  obtain ⟨_, _, _, hset⟩ := setDev_eq { s with cellar := { s.cellar with windowOpen := true } } .idle
  unfold enterIdle
  dsimp only
  rw [hset]
  exact repairKept_repairCellars (repairKept_stored ⟨rfl, rfl, rfl, rfl, id⟩)

/-- The device is idle, and no timetable and no placement stand. -/
structure Unloaded (s : State) : Prop where
  dev : s.dev = .idle
  image : s.mgmt.loadedImage = none
  placed : s.mgmt.placed = none

theorem unloaded_enterIdle {m : State} (himage : m.mgmt.loadedImage = none) (hplaced : m.mgmt.placed = none) : Unloaded (enterIdle m) := by
  obtain ⟨hdev, -, -, himg, hpl⟩ := enterIdle_kept m
  exact ⟨hdev, himg.trans himage, hpl hplaced⟩

theorem unloadJob_unloads (s : State) : Unloaded (unloadJob s) := by
  have hcleared : (clearJob s).mgmt.loadedImage = none := rfl
  have hunplaced (m : State) (hm : m.mgmt.loadedImage = none) : Unloaded (enterIdle { m with mgmt := { m.mgmt with placed := none } }) :=
    unloaded_enterIdle hm rfl
  exact hunplaced (clearJob s) hcleared

theorem cAbort_held {s : State} {k : Packet} (hdev : s.dev = .held) (hkeep : bit (k.par 16 1) 0 = false) :
    cAbort.run k s = .final (abortHeld s) stOk 0 (resFrame s.frame.lastClean) := by
  have hkept (m : State) : unloadIf false m = m := rfl
  unfold cAbort
  dsimp only
  rw [hdev, hkeep, hkept]

/-- With `UNLOAD` an `ABORT` outside frames unloads, whatever it answers. -/
theorem cAbort_unloads {s : State} {k : Packet} (hunload : bit (k.par 16 1) 0 = true) (hdev : s.dev = .held ∨ s.dev = .loaded ∨ s.dev = .faulted) :
    ∃ m st, cAbort.run k s = .final (unloadJob m) st 0 (resFrame s.frame.lastClean) ∧ st ≠ stNotAuth := by
  unfold cAbort
  dsimp only
  rw [hunload]
  rcases hdev with hdev | hdev | hdev <;> rw [hdev]
  · exact ⟨_, _, rfl, by decide⟩
  · dsimp only
    split
    · exact ⟨_, _, rfl, by decide⟩
    · exact ⟨_, _, rfl, by decide⟩
  · exact ⟨_, _, rfl, by decide⟩

theorem abort_held {s s1 : State} {k : Packet} (h : Passes s cAbort k s1) (hdev : s.dev = .held) (hkeep : bit (k.par 16 1) 0 = false) :
    ∃ t, exec (.abort k) s = .next t ∧ t.dev = .loaded ∧ t.frame.stopped = false := by
  obtain ⟨inv, rfl⟩ := counted_of_passes h rfl
  obtain ⟨t, hexec, hanswer⟩ := hostCommand_final h (cAbort_held hdev hkeep) (by decide)
  obtain ⟨hloaded, hstop⟩ := abortHeld_spec (counted s inv)
  obtain ⟨_, _, _, heq⟩ := hanswer.eq
  refine ⟨t, hexec, ?_, ?_⟩
  · rw [heq]
    exact hloaded
  · rw [heq]
    exact hstop

theorem abort_unloads {s s1 : State} {k : Packet} (h : Passes s cAbort k s1) (hunload : bit (k.par 16 1) 0 = true)
    (hdev : s.dev = .held ∨ s.dev = .loaded ∨ s.dev = .faulted) :
    ∃ t, exec (.abort k) s = .next t ∧ t.dev = .idle ∧ t.mgmt.loadedImage = none ∧ t.mgmt.placed = none := by
  obtain ⟨inv, rfl⟩ := counted_of_passes h rfl
  obtain ⟨m, st, hrun, hst⟩ := cAbort_unloads (s := counted s inv) hunload hdev
  obtain ⟨t, hexec, hanswer⟩ := hostCommand_final h hrun hst
  obtain ⟨hidle, himage, hplaced⟩ := unloadJob_unloads m
  obtain ⟨_, _, _, heq⟩ := hanswer.eq
  refine ⟨t, hexec, ?_, ?_, ?_⟩
  · rw [heq]
    exact hidle
  · rw [heq]
    exact himage
  · rw [heq]
    exact hplaced

/-! ### Streams (R331 to R333) -/

theorem cAdmit_run {s : State} {k : Packet} (hruns : s.runsStreams = true) (hok : admitOk s k = true) {f : Nat}
    (hframe : s.takenFrame (k.par 24 8) = some f) (hfree : (s.stream (k.par 16 4)).state = .free)
    (hsid : ∀ e ∈ s.streams.entries, e.2.state = .free ∨ e.2.sid ≠ k.par 20 4) :
    cAdmit.run k s = .final (s.setStream (k.par 16 4) (Packet.toStream k f)) stAccepted 0 [] := by
  have hnone : (s.streams.entries.any fun e => e.2.state != .free && e.2.sid == k.par 20 4) = false :=
    List.any_eq_false.mpr fun e he => by simpa [imp_iff_not_or] using hsid e he
  unfold cAdmit
  dsimp only
  rw [if_neg (by simp [hruns]), if_neg (by simp [hok]), hframe]
  exact if_neg (by simp [hnone, hfree])

theorem admitStream_next {s s1 : State} {k : Packet} (h : Passes s cAdmit k s1) (hruns : s.runsStreams = true) (hok : admitOk s k = true) {f : Nat}
    (hframe : s.takenFrame (k.par 24 8) = some f) (hfree : (s.stream (k.par 16 4)).state = .free)
    (hsid : ∀ e ∈ s.streams.entries, e.2.state = .free ∨ e.2.sid ≠ k.par 20 4) :
    ∃ t, exec (.admitStream k) s = .next t ∧ t.stream (k.par 16 4) = Packet.toStream k f ∧ (∀ m, m ≠ k.par 16 4 → t.stream m = s.stream m) ∧
      Replies s t k 1 0 [] := by
  obtain ⟨inv, rfl⟩ := counted_of_passes h rfl
  obtain ⟨t, hexec, hanswer⟩ := hostCommand_final h (cAdmit_run (s := counted s inv) hruns hok hframe hfree hsid) (by decide)
  have hreply : Replies s t k 1 0 [] := hanswer.replies rfl rfl
  obtain ⟨_, _, _, rfl⟩ := hanswer.eq
  refine ⟨_, hexec, ?_, fun m hm => ?_, hreply⟩
  · exact (State.stream_setStream s _ _ _).trans (if_pos rfl)
  · exact (State.stream_setStream s _ _ _).trans (if_neg (Ne.symm hm))

theorem cRetire_run {s : State} {k : Packet} (hruns : s.runsStreams = true) (hn : k.par 16 4 < 16384) {f : Nat}
    (hframe : s.takenFrame (k.par 24 8) = some f) (hused : (s.stream (k.par 16 4)).state ≠ .free) :
    cRetire.run k s =
      if (s.stream (k.par 16 4)).state = .done then
        .final (s.setStream (k.par 16 4) {}) stComplete 0 (resAt 24 (leBytes 8 (s.stream (k.par 16 4)).endFrame))
      else .final (s.setStream (k.par 16 4) { s.stream (k.par 16 4) with retireAt := some f }) stAccepted 0 [] := by
  unfold cRetire
  dsimp only
  rw [if_neg (by simp [hruns]), if_neg (not_or.mpr ⟨Nat.not_le.mpr hn, hused⟩), hframe]

theorem retireStream_next {s s1 : State} {k : Packet} (h : Passes s cRetire k s1) (hruns : s.runsStreams = true) (hn : k.par 16 4 < 16384) {f : Nat}
    (hframe : s.takenFrame (k.par 24 8) = some f) :
    ((s.stream (k.par 16 4)).state = .done → ∃ t, exec (.retireStream k) s = .next t ∧ t.stream (k.par 16 4) = {} ∧
      Replies s t k 0x105 0 (resAt 24 (leBytes 8 (s.stream (k.par 16 4)).endFrame))) ∧
    ((s.stream (k.par 16 4)).state ≠ .done → (s.stream (k.par 16 4)).state ≠ .free → ∃ t, exec (.retireStream k) s = .next t ∧
      t.stream (k.par 16 4) = { s.stream (k.par 16 4) with retireAt := some f } ∧ Replies s t k 1 0 []) := by
  obtain ⟨inv, rfl⟩ := counted_of_passes h rfl
  refine ⟨fun hdone => ?_, fun hnot hused => ?_⟩
  · obtain ⟨t, hexec, hanswer⟩ := hostCommand_final h
      ((cRetire_run (s := counted s inv) hruns hn hframe (hdone ▸ by decide)).trans (if_pos hdone)) (by decide)
    have hreply := hanswer.replies (s := s) rfl rfl
    obtain ⟨_, _, _, rfl⟩ := hanswer.eq
    exact ⟨_, hexec, (State.stream_setStream s _ _ _).trans (if_pos rfl), hreply⟩
  · obtain ⟨t, hexec, hanswer⟩ := hostCommand_final h ((cRetire_run (s := counted s inv) hruns hn hframe hused).trans (if_neg hnot)) (by decide)
    have hreply := hanswer.replies (s := s) rfl rfl
    obtain ⟨_, _, _, rfl⟩ := hanswer.eq
    exact ⟨_, hexec, (State.stream_setStream s _ _ _).trans (if_pos rfl), hreply⟩

/-- Settles O41. -/
theorem runControlCommandsAct : Obligations.RunControlCommandsAct := fun _ _ _ =>
  ⟨start_next, hold_next, runToFrame_next, resume_next, fun h => ⟨abort_running h, abort_held h, abort_unloads h⟩,
    fun h hruns hok _ hframe => admitStream_next h hruns hok hframe, fun h hruns hn _ hframe => retireStream_next h hruns hn hframe⟩

end Sys2Proof.Machine
end

section
/-! PROOFS. The commands of the fabric owner, and RESET (R203, R424 to R428, R433, R435). -/

namespace Sys2Proof.Machine

open Sys2Proof

/-! ### What a judged command leaves of the package -/

section
variable {s s1 : State} (h : IntakeFrom s s1)
include h

theorem IntakeFrom.port (p : Nat) : s1.port p = s.port p := by
  obtain ⟨_, _, _, rfl⟩ := h
  rfl

theorem IntakeFrom.variant : s1.variant = s.variant := by
  obtain ⟨_, _, _, rfl⟩ := h
  rfl

theorem IntakeFrom.runOn : s1.runOn = s.runOn := by
  obtain ⟨_, _, _, rfl⟩ := h
  rfl

theorem IntakeFrom.epochUses (p : Nat) : s1.epochUses p = s.epochUses p := by
  obtain ⟨_, _, _, rfl⟩ := h
  rfl

theorem IntakeFrom.cmd : s1.cmd.en = s.cmd.en ∧ s1.cmd.queue = s.cmd.queue := by
  obtain ⟨_, _, _, rfl⟩ := h
  exact ⟨rfl, rfl⟩

theorem IntakeFrom.resets : s1.resets = s.resets := by
  obtain ⟨_, _, _, rfl⟩ := h
  rfl

theorem IntakeFrom.memory : s1.hatch = s.hatch ∧ s1.cellar = s.cellar := by
  obtain ⟨_, _, _, rfl⟩ := h
  exact ⟨rfl, rfl⟩

end

/-- A command that is answered `OK`: its rules' package with the reply. -/
theorem hostCommand_ok {s s1 m : State} {c : Cmd} {k : Packet} (h : Passes s c k s1) (hrun : c.run k s1 = okWith m []) (hcmd : m.cmd = s1.cmd) :
    ∃ t inv cmd, hostCommand c k s = .next t ∧ t = { m with inv := inv, cmd := cmd } ∧ Replies s t k 0 0 [] := by
  obtain ⟨hen, hqueue⟩ := (intake_of_passes h).cmd
  obtain ⟨t, hexec, hanswer⟩ := hostCommand_final h hrun (by decide)
  obtain ⟨_, _, _, heq⟩ := hanswer.eq
  exact ⟨t, _, _, hexec, heq, hanswer.replies (by rw [hcmd, hen]) (by rw [hcmd, hqueue])⟩

/-! ### SET_SLICE (R424) -/

theorem applyPermits_eq (s : State) (k : Packet) (a : Nat) : ∃ ports, applyPermits s k a = { s with ports := ports } := by
  refine foldl_keeps (P := fun m => ∃ ports, m = { s with ports := ports }) _ ?_ _ ⟨s.ports, rfl⟩
  rintro _ p ⟨_, rfl⟩
  exact ⟨_, rfl⟩

theorem setMtState_eq (s : State) (st : TimeState) :
    ∃ q n, setMtState s st = { s with time := { s.time with mtState := st }, alarms := { s.alarms with boxQueue := q, lostEvent := n } } := by
  unfold setMtState
  split
  · next h => exact ⟨_, _, by rw [← h]⟩
  · exact boxEvent_eq ..

/-- The sync tree's configuration stands, and nothing but the time block and the box room's queue differs. -/
structure SyncSet (v : Nat) (s t : State) : Prop where
  eq : ∃ time q n, t = { s with time := time, alarms := { s.alarms with boxQueue := q, lostEvent := n } }
  parent : t.time.parent = bits v 4 0
  root : t.time.root = bit v 8

theorem SyncSet.setMtState {v : Nat} {s t : State} (h : SyncSet v s t) (st : TimeState) : SyncSet v s (setMtState t st) := by
  obtain ⟨⟨_, _, _, rfl⟩, hparent, hroot⟩ := h
  obtain ⟨_, _, hset⟩ := setMtState_eq _ st
  rw [hset]
  exact ⟨⟨_, _, _, rfl⟩, hparent, hroot⟩

theorem SyncSet.time {v : Nat} {s t : State} (h : SyncSet v s t) {time : Time} (hparent : time.parent = t.time.parent)
    (hroot : time.root = t.time.root) : SyncSet v s { t with time := time } := by
  obtain ⟨⟨_, _, _, rfl⟩, hp, hr⟩ := h
  exact ⟨⟨_, _, _, rfl⟩, hparent.trans hp, hroot.trans hr⟩

theorem syncSet_acquireMt {v : Nat} {s t : State} (h : SyncSet v s t) : SyncSet v s (acquireMt t) := by
  have hacq := h.setMtState .acquire
  unfold acquireMt
  dsimp only
  split
  · exact hacq
  · refine SyncSet.time (SyncSet.setMtState ?_ .locked) rfl rfl
    split
    · exact hacq.time rfl rfl
    · exact hacq

theorem syncSet_applySyncCfg (s : State) (v : Nat) : SyncSet v s (applySyncCfg s v) := by
  unfold applySyncCfg
  extract_lets src s1
  have h1 : SyncSet v s s1 := ⟨⟨_, _, _, rfl⟩, rfl, rfl⟩
  split
  · exact syncSet_acquireMt h1
  · exact h1

/-- The FABRIC block with the slice of the parameters (R424). -/
def slicedFabric (f : Fabric) (k : Packet) : Fabric :=
  if k.par 16 1 = 0 then { f with slice := 0 } else
    { f with
      slice := k.par 16 1, sizeX := k.par 21 1, sizeY := k.par 22 1, sizeZ := k.par 23 1, x0 := k.par 18 1, y0 := k.par 19 1, z0 := k.par 20 1,
      wrapX := bit (k.par 17 1) 0, wrapY := bit (k.par 17 1) 1, wrapZ := bit (k.par 17 1) 2, holdLead := k.par 27 1,
      flowBase := k.par 28 4, flowCount := k.par 32 4 }

/-- What `SET_SLICE` leaves (R424, R241). -/
structure SliceSet (f : Fabric) (k : Packet) (t : State) : Prop where
  fabric : t.fabric = slicedFabric f k
  noteSeqs : t.noteSeqs = []
  noteSrcs : t.noteSrcs = []
  parent : t.time.parent = bits (k.par 36 4) 4 0
  root : t.time.root = bit (k.par 36 4) 8

theorem applySlice_spec (s : State) (k : Packet) : SliceSet s.fabric k (applySlice s k) := by
  have hslice : applySlice s k =
      restartNotes (applySyncCfg (applyPermits { s with fabric := slicedFabric s.fabric k } k 48) (k.par 36 4)) := rfl
  obtain ⟨_, hpermits⟩ := applyPermits_eq { s with fabric := slicedFabric s.fabric k } k 48
  obtain ⟨⟨_, _, _, hsync⟩, hparent, hroot⟩ := syncSet_applySyncCfg (applyPermits { s with fabric := slicedFabric s.fabric k } k 48) (k.par 36 4)
  refine ⟨?_, rfl, rfl, hparent, hroot⟩
  rw [hslice, restartNotes, hsync, hpermits]

theorem cSetSlice_run {s : State} {k : Packet} (hlen : 4080 ≤ k.plen)
    (hparent : bits (k.par 36 4) 4 0 = 31 ∨ portExists s.variant (bits (k.par 36 4) 4 0) = true)
    (hslice : k.par 16 1 = 0 ∨ (sliceRanges s k = true ∧ sliceShapeOk s k = true)) : cSetSlice.run k s = okWith (applySlice s k) [] := by
  have hnot (b : Bool) (h : k.par 16 1 = 0 ∨ b = true) : ¬ (k.par 16 1 ≠ 0 ∧ (!b) = true) := by
    rintro ⟨hid, hb⟩
    simp [h.resolve_left hid] at hb
  unfold cSetSlice
  dsimp only
  rw [if_neg, if_neg (hnot _ (hslice.imp_right And.left)), if_neg (hnot _ (hslice.imp_right And.right))]
  rintro (h | h)
  · omega
  · rcases hparent with hp | hp <;> simp [hp] at h

theorem setSlice_next {s s1 : State} {k : Packet} (h : Passes s cSetSlice k s1) (hlen : 4080 ≤ k.plen)
    (hparent : bits (k.par 36 4) 4 0 = 31 ∨ portExists s.variant (bits (k.par 36 4) 4 0) = true)
    (hslice : k.par 16 1 = 0 ∨ (sliceRanges s k = true ∧ sliceShapeOk s k = true)) :
    ∃ t, exec (.setSlice k) s = .next t ∧ SliceSet s.fabric k t := by
  obtain ⟨hfabric, hrun⟩ : s1.fabric = s.fabric ∧ cSetSlice.run k s1 = okWith (applySlice s1 k) [] := by
    obtain ⟨_, _, _, rfl⟩ := intake_of_passes h
    exact ⟨rfl, cSetSlice_run hlen hparent hslice⟩
  obtain ⟨t, hexec, hanswer⟩ := hostCommand_final h hrun (by decide)
  obtain ⟨_, _, _, heq⟩ := hanswer.eq
  obtain ⟨hf, hseqs, hsrcs, hpar, hroot⟩ := applySlice_spec s1 k
  refine ⟨t, hexec, ?_⟩
  rw [heq]
  exact ⟨hf.trans (by rw [hfabric]), hseqs, hsrcs, hpar, hroot⟩

theorem setSlice_acts {s s1 : State} {k : Packet} (h : Passes s cSetSlice k s1) (hlen : 4080 ≤ k.plen)
    (hparent : bits (k.par 36 4) 4 0 = 31 ∨ portExists s.variant (bits (k.par 36 4) 4 0) = true)
    (hslice : k.par 16 1 = 0 ∨ (sliceRanges s k = true ∧ sliceShapeOk s k = true)) :
    ∃ t, exec (.setSlice k) s = .next t ∧ t.fabric.slice = k.par 16 1 ∧ t.noteSeqs = [] ∧ t.noteSrcs = [] ∧
      t.time.parent = bits (k.par 36 4) 4 0 ∧ t.time.root = bit (k.par 36 4) 8 ∧
      (k.par 16 1 ≠ 0 → t.fabric.sizeX = k.par 21 1 ∧ t.fabric.sizeY = k.par 22 1 ∧ t.fabric.sizeZ = k.par 23 1 ∧ t.fabric.x0 = k.par 18 1 ∧
        t.fabric.y0 = k.par 19 1 ∧ t.fabric.z0 = k.par 20 1 ∧ t.fabric.holdLead = k.par 27 1 ∧ t.fabric.flowBase = k.par 28 4 ∧
        t.fabric.flowCount = k.par 32 4) := by
  obtain ⟨t, hexec, hfabric, hseqs, hsrcs, hpar, hroot⟩ := setSlice_next h hlen hparent hslice
  refine ⟨t, hexec, ?_, hseqs, hsrcs, hpar, hroot, fun hid => ?_⟩
  · rw [hfabric, slicedFabric]
    split
    · next h0 => exact h0.symm
    · rfl
  · rw [hfabric, slicedFabric, if_neg hid]
    exact ⟨rfl, rfl, rfl, rfl, rfl, rfl, rfl, rfl, rfl⟩

/-! ### LOAD_TRANSIT (R425) -/

/-- The entry counts per port of a transit plan. -/
def transitCounts (k : Packet) : List Nat := (List.range 22).map (fun p => k.par (24 + 4 * p) 4)

theorem cLoadTransit_run {s : State} {k : Packet} {tx : List TEntry} {xb : List XEntry} (hform : k.par 16 1 = 1) (hver : k.par 17 1 ≤ 1)
    (hlen : k.plen = 800 + 8 * ((transitCounts k).sum + k.par 20 4) + 3344) (htx : allSome (transitTx k (transitCounts k) 0 816) = some tx)
    (hxb : allSome ((List.range (k.par 20 4)).map (fun i => decodeX (k.par (816 + 8 * ((transitCounts k).sum + i)) 8))) = some xb)
    (hreason : transitReason s (k.par 17 1 == 1) tx xb = 0) :
    cLoadTransit.run k s = okWith (applyPermits { s with transit := some (k.par 17 1 == 1, tx, xb) } k 112) [] := by
  unfold transitCounts at *
  unfold cLoadTransit
  dsimp only
  rw [if_neg (by rw [hform, hlen]; omega), htx, hxb]
  exact if_neg (by simpa using hreason)

theorem loadTransit_next {s s1 : State} {k : Packet} (h : Passes s cLoadTransit k s1) (tx : List TEntry) (xb : List XEntry) (hform : k.par 16 1 = 1)
    (hver : k.par 17 1 ≤ 1) (hlen : k.plen = 800 + 8 * ((transitCounts k).sum + k.par 20 4) + 3344)
    (htx : allSome (transitTx k (transitCounts k) 0 816) = some tx)
    (hxb : allSome ((List.range (k.par 20 4)).map (fun i => decodeX (k.par (816 + 8 * ((transitCounts k).sum + i)) 8))) = some xb)
    (hreason : transitReason s (k.par 17 1 == 1) tx xb = 0) :
    ∃ t, exec (.loadTransit k) s = .next t ∧ t.transit = some (k.par 17 1 == 1, tx, xb) ∧ t.verA = s.verA ∧ t.verB = s.verB ∧
      Replies s t k 0 0 [] := by
  obtain ⟨hsame, hverA, hverB⟩ : transitReason s1 (k.par 17 1 == 1) tx xb = transitReason s (k.par 17 1 == 1) tx xb ∧
      s1.verA = s.verA ∧ s1.verB = s.verB := by
    obtain ⟨_, _, _, rfl⟩ := intake_of_passes h
    exact ⟨rfl, rfl, rfl⟩
  obtain ⟨_, hpermits⟩ := applyPermits_eq { s1 with transit := some (k.par 17 1 == 1, tx, xb) } k 112
  obtain ⟨t, _, _, hexec, heq, hreply⟩ := hostCommand_ok h (cLoadTransit_run hform hver hlen htx hxb (hsame.trans hreason)) (by rw [hpermits])
  refine ⟨t, hexec, ?_, ?_, ?_, hreply⟩
  · rw [heq, hpermits]
  · rw [heq, hpermits]
    exact hverA
  · rw [heq, hpermits]
    exact hverB

/-! ### DISCOVER (R427) -/

/-- A port sends its identity again, and forgets what it has of the partner's. -/
def identityAgain (m : State) (p : Nat) : State :=
  sendIdentity (m.modPort p fun q => { q with signed := false, planMatch := false, keyPieces := [], sigPieces := [] }) p true

/-- Every port in discovery or later sends its identity again. -/
def identitiesAgain (m : State) : State := (m.portList.filter (fun p => (m.port p).talks)).foldl identityAgain m

theorem identitiesAgain_eq (m : State) : ∃ ports ctr, identitiesAgain m = { m with ports := ports, freeCtr := ctr } := by
  refine foldl_keeps (P := fun t => ∃ ports ctr, t = { m with ports := ports, freeCtr := ctr }) _ ?_ _ ⟨m.ports, m.freeCtr, rfl⟩
  rintro _ p ⟨_, _, rfl⟩
  unfold identityAgain sendIdentity pushLocal State.useFree State.modPort State.setPort
  exact ⟨_, _, rfl⟩

theorem cDiscover_run {s : State} {k : Packet} (hform : k.par 16 1 = 1) (hcount : k.par 17 1 ≤ 22) (hlen : k.plen = 32 + 64 * k.par 17 1 + 3344)
    (hserial : (planOf k).serial = s.serial.toNat) (hok : (planOf k).ok = true) (hx : (planOf k).x % 2 = s.boardPos.toNat % 2)
    (hy : (planOf k).y % 2 = s.boardPos.toNat / 2) : cDiscover.run k s = okWith (identitiesAgain { s with plan := some (planOf k) }) [] := by
  unfold cDiscover
  dsimp only
  rw [if_neg (by simp only [hform, hserial, hok, hlen]; simpa using hcount), if_neg (by simp [hx, hy])]
  rfl

theorem discover_next {s s1 : State} {k : Packet} (h : Passes s cDiscover k s1) (hform : k.par 16 1 = 1) (hcount : k.par 17 1 ≤ 22)
    (hlen : k.plen = 32 + 64 * k.par 17 1 + 3344) (hserial : (planOf k).serial = s.serial.toNat) (hok : (planOf k).ok = true)
    (hx : (planOf k).x % 2 = s.boardPos.toNat % 2) (hy : (planOf k).y % 2 = s.boardPos.toNat / 2) :
    ∃ t, exec (.discover k) s = .next t ∧ t.plan = some (planOf k) ∧ Replies s t k 0 0 [] := by
  obtain ⟨hser, hboard⟩ : s1.serial = s.serial ∧ s1.boardPos = s.boardPos := by
    obtain ⟨_, _, _, rfl⟩ := intake_of_passes h
    exact ⟨rfl, rfl⟩
  have hrun := cDiscover_run (s := s1) hform hcount hlen (by rw [hser]; exact hserial) hok (by rw [hboard]; exact hx)
    (by rw [hboard]; exact hy)
  obtain ⟨_, _, hagain⟩ := identitiesAgain_eq { s1 with plan := some (planOf k) }
  obtain ⟨t, _, _, hexec, heq, hreply⟩ := hostCommand_ok h hrun (by rw [hagain])
  exact ⟨t, hexec, by rw [heq, hagain], hreply⟩

/-! ### PORT_CONTROL (R426) -/

theorem mtHoldover_eq (s : State) : ∃ time q n inv,
    mtHoldover s = { s with time := time, alarms := { s.alarms with boxQueue := q, lostEvent := n }, inv := inv } := by
  obtain ⟨_, _, hset⟩ := setMtState_eq s .holdover
  unfold mtHoldover markHoldover
  split
  · exact ⟨_, _, _, _, rfl⟩
  · dsimp only
    rw [hset]
    split <;> exact ⟨_, _, _, _, rfl⟩

/-- The loss of the time parent touches the time block, the alarms, the events and the certificate's note of a holdover. -/
theorem mtLost_eq (s : State) : ∃ time alarms events alertN inv, mtLost s =
    { s with time := time, alarms := alarms, sec := { s.sec with events := events }, pins := { s.pins with alertN := alertN }, inv := inv } := by
  obtain ⟨_, _, _, _, hhold⟩ := mtHoldover_eq s
  obtain ⟨_, _, _, halarm, -⟩ := raiseAlarm_eq (mtHoldover s) 0x0B02 0 [] false false
  unfold mtLost
  split
  · rw [halarm, hhold]
    exact ⟨_, _, _, _, _, rfl⟩
  · exact ⟨_, _, _, _, _, rfl⟩

/-- A port's state touches the ports and the box room's queue. -/
theorem setPortState_eq (s : State) (p : Nat) (st : PortState) : ∃ ports q n, setPortState s p st =
    { s with ports := ports, alarms := { s.alarms with boxQueue := q, lostEvent := n } } := by
  unfold setPortState
  dsimp only
  split
  · exact ⟨_, _, _, rfl⟩
  · obtain ⟨_, _, hbox⟩ := boxEvent_eq (s.modPort p fun q => { q with state := st }) 5
      (leBytes 1 p ++ leBytes 1 (portCode (s.port p).state) ++ leBytes 1 (portCode st))
    rw [hbox]
    exact ⟨_, _, _, rfl⟩

/-- A port off its link: in its state, with its stores empty. -/
def unlinked (q : Port) (st : PortState) : Port :=
  { q with state := st, departure := [], retry := [], resends := [], naks := [], localNotes := [], outNotes := [], store := [],
           width := 0, tries := 0 }

/-- A port that leaves its link empties its stores; the command window and the reset block stay. -/
theorem closePort_spec (s : State) (p : Nat) (st : PortState) :
    (closePort s p st).port p = unlinked (s.port p) st ∧ (closePort s p st).cmd = s.cmd ∧ (closePort s p st).resets = s.resets := by
  have hport : ((setPortState s p st).modPort p fun q => { q with
      departure := [], retry := [], resends := [], naks := [], localNotes := [], outNotes := [], store := [], width := 0, tries := 0 }).port p =
        unlinked (s.port p) st := by
    rw [port_modPort, if_pos rfl, port_setPortState]
    rfl
  obtain ⟨_, _, _, hset⟩ := setPortState_eq s p st
  have hcmd : (setPortState s p st).cmd = s.cmd ∧ (setPortState s p st).resets = s.resets := by
    rw [hset]
    exact ⟨rfl, rfl⟩
  unfold closePort
  extract_lets s1
  have h1 : s1.port p = unlinked (s.port p) st ∧ s1.cmd = s.cmd ∧ s1.resets = s.resets := ⟨hport, hcmd⟩
  split
  · obtain ⟨_, _, _, _, _, hlost⟩ := mtLost_eq s1
    rw [hlost]
    exact h1
  · exact h1

section
variable {s s1 : State} {k : Packet}

theorem cPortControl_run {m : State} {k : Packet} (hport : portExists m.variant (k.par 16 1) = true) (haction : k.par 17 1 ≤ 2) :
    cPortControl.run k m = portAction m (k.par 16 1) (k.par 17 1) (bit (k.par 18 1) 0) := by
  unfold cPortControl
  dsimp only
  exact if_neg (by simpa [hport] using haction)

/-- The row of an action runs it on its port, with the `FORCE` bit of the packet. -/
theorem portControl_run {b : Byte} (h : Passes s cPortControl (k.withByte 17 b) s1) (hport : portExists s.variant (k.par 16 1) = true)
    (hlen : 3 ≤ k.plen) (hb : b.toNat ≤ 2) :
    cPortControl.run (k.withByte 17 b) s1 = portAction s1 (k.par 16 1) b.toNat (bit (k.par 18 1) 0) := by
  have h16 : (k.withByte 17 b).par 16 1 = k.par 16 1 := par_withByte_ne k b (by decide) (by decide) (by decide) (by omega)
  have h18 : (k.withByte 17 b).par 18 1 = k.par 18 1 := par_withByte_ne k b (by decide) (by decide) (by decide) (by omega)
  have h17 : (k.withByte 17 b).par 17 1 = b.toNat := par_withByte k b (by decide)
  rw [cPortControl_run (by rw [h16, (intake_of_passes h).variant]; exact hport) (by rw [h17]; exact hb), h16, h17, h18]

theorem portDisable_next (h : Passes s cPortControl (k.withByte 17 0) s1) (hport : portExists s.variant (k.par 16 1) = true) (hlen : 3 ≤ k.plen)
    (huse : (s.runOn && s.epochUses (k.par 16 1)) = false ∨ bit (k.par 18 1) 0 = true) :
    ∃ t, exec (.portDisable k) s = .next t ∧ Replies s t k 0 0 [] ∧ (s.runOn = true → (t.port (k.par 16 1)).disableAtTick = true) ∧
      (s.runOn = false → (t.port (k.par 16 1)).state = .disabled ∧ (t.port (k.par 16 1)).departure = []) := by
  have hrow := portControl_run h hport hlen (by decide)
  have hin := intake_of_passes h
  have hallowed : ¬ (s1.runOn && s1.epochUses (k.par 16 1) && !bit (k.par 18 1) 0) = true := by
    rw [hin.runOn, hin.epochUses]
    rcases huse with h0 | h0 <;> simp [h0]
  have haction : portAction s1 (k.par 16 1) 0 (bit (k.par 18 1) 0) =
      if s1.runOn then okWith (s1.modPort (k.par 16 1) fun q => { q with disableAtTick := true }) []
      else okWith (disablePort s1 (k.par 16 1)) [] := by
    unfold portAction
    dsimp only
    rw [if_pos rfl, if_neg hallowed]
  cases hrun : s.runOn with
  | true =>
    obtain ⟨t, _, _, hexec, heq, hreply⟩ := hostCommand_ok h (hrow.trans (haction.trans (if_pos (hin.runOn.trans hrun)))) rfl
    refine ⟨t, hexec, hreply, fun _ => ?_, fun hno => by cases hno⟩
    rw [heq]
    have hset : ((s1.modPort (k.par 16 1) fun q => { q with disableAtTick := true }).port (k.par 16 1)).disableAtTick = true := by
      rw [port_modPort, if_pos rfl]
    exact hset
  | false =>
    have hoff : s1.runOn = false := hin.runOn.trans hrun
    have hclose : disablePort s1 (k.par 16 1) =
        closePort (s1.modPort (k.par 16 1) fun q => { q with disableAtTick := false }) (k.par 16 1) .disabled := by
      unfold disablePort
      dsimp only
      exact if_neg (by change ¬ (s1.runOn && _) = true; simp [hoff])
    obtain ⟨hoffLink, hcmd, -⟩ := closePort_spec (s1.modPort (k.par 16 1) fun q => { q with disableAtTick := false }) (k.par 16 1) .disabled
    rw [← hclose] at hoffLink hcmd
    obtain ⟨t, _, _, hexec, heq, hreply⟩ := hostCommand_ok h (hrow.trans (haction.trans (if_neg (by simp [hoff])))) hcmd
    refine ⟨t, hexec, hreply, (fun hno => by cases hno), fun _ => ?_⟩
    rw [heq]
    exact ⟨congrArg Port.state hoffLink, congrArg Port.departure hoffLink⟩

/-- An enabled port drops a disable that waits; one that was off its link trains. -/
def enabledPort (m : State) (p : Nat) : State :=
  if (m.port p).state = .disabled ∨ (m.port p).state = .off ∨ !(m.port p).enable then
    setPortState (m.modPort p fun q => { q with enable := true, disableAtTick := false }) p .training
  else m.modPort p fun q => { q with disableAtTick := false }

theorem portAction_enable (m : State) (p : Nat) (force : Bool) : portAction m p 1 force = okWith (enabledPort m p) [] := by
  unfold portAction enabledPort
  dsimp only
  rw [if_neg (by decide), if_pos rfl]
  split <;> rfl

theorem enabledPort_spec (m : State) (p : Nat) :
    (enabledPort m p).cmd = m.cmd ∧ ((enabledPort m p).port p).disableAtTick = false ∧
      ((m.port p).state = .disabled → ((enabledPort m p).port p).state = .training ∧ ((enabledPort m p).port p).enable = true) := by
  have hset (u : State) : (setPortState u p .training).cmd = u.cmd := by
    obtain ⟨_, _, _, hu⟩ := setPortState_eq u p .training
    rw [hu]
  unfold enabledPort
  split
  · refine ⟨hset _, ?_, fun _ => ?_⟩
    · rw [port_setPortState, port_modPort, if_pos rfl]
    · rw [port_setPortState, port_modPort, if_pos rfl]
      exact ⟨rfl, rfl⟩
  · next hon =>
    refine ⟨rfl, ?_, fun hdis => absurd (.inl hdis) hon⟩
    rw [port_modPort, if_pos rfl]

theorem portEnable_next (h : Passes s cPortControl (k.withByte 17 1) s1) (hport : portExists s.variant (k.par 16 1) = true) (hlen : 3 ≤ k.plen) :
    ∃ t, exec (.portEnable k) s = .next t ∧ Replies s t k 0 0 [] ∧ (t.port (k.par 16 1)).disableAtTick = false ∧
      ((s.port (k.par 16 1)).state = .disabled → (t.port (k.par 16 1)).state = .training ∧ (t.port (k.par 16 1)).enable = true) := by
  have hrow := (portControl_run h hport hlen (by decide)).trans (portAction_enable ..)
  obtain ⟨hcmd, hdis, hup⟩ := enabledPort_spec s1 (k.par 16 1)
  rw [(intake_of_passes h).port] at hup
  obtain ⟨t, _, _, hexec, heq, hreply⟩ := hostCommand_ok h hrow hcmd
  refine ⟨t, hexec, hreply, ?_, ?_⟩
  · rw [heq]
    exact hdis
  · rw [heq]
    exact hup

theorem portAction_retrain {m : State} {p : Nat} {force : Bool} (hallowed : ¬ (m.runOn && m.epochUses p && !force) = true) :
    portAction m p 2 force = if m.runOn && m.epochUses p then okWith (portGoesDown m p .down) [] else okWith (closePort m p .training) [] := by
  unfold portAction
  dsimp only
  rw [if_neg (by decide), if_neg (by decide), if_neg hallowed]

theorem portRetrain_unused (h : Passes s cPortControl (k.withByte 17 2) s1) (hport : portExists s.variant (k.par 16 1) = true) (hlen : 3 ≤ k.plen)
    (huse : (s.runOn && s.epochUses (k.par 16 1)) = false) :
    ∃ t, exec (.portRetrain k) s = .next t ∧ Replies s t k 0 0 [] ∧ (t.port (k.par 16 1)).state = .training := by
  have hin := intake_of_passes h
  have huse1 : (s1.runOn && s1.epochUses (k.par 16 1)) = false := by rw [hin.runOn, hin.epochUses, huse]
  have hrow := (portControl_run h hport hlen (by decide)).trans
    ((portAction_retrain (by simp [huse1])).trans (if_neg (by simp [huse1])))
  obtain ⟨hlink, hcmd, -⟩ := closePort_spec s1 (k.par 16 1) .training
  obtain ⟨t, _, _, hexec, heq, hreply⟩ := hostCommand_ok h hrow hcmd
  refine ⟨t, hexec, hreply, ?_⟩
  rw [heq]
  exact congrArg Port.state hlink

theorem portRetrain_used (h : Passes s cPortControl (k.withByte 17 2) s1) (hport : portExists s.variant (k.par 16 1) = true) (hlen : 3 ≤ k.plen)
    (huse : (s.runOn && s.epochUses (k.par 16 1)) = true) (hforce : bit (k.par 18 1) 0 = true) :
    ∃ t, exec (.portRetrain k) s = .next t ∧ (t.port (k.par 16 1)).state = .down := by
  have hin := intake_of_passes h
  have huse1 : (s1.runOn && s1.epochUses (k.par 16 1)) = true := by rw [hin.runOn, hin.epochUses, huse]
  have hrow := (portControl_run h hport hlen (by decide)).trans
    ((portAction_retrain (by simp [hforce])).trans (if_pos huse1))
  obtain ⟨t, hexec, hanswer⟩ := hostCommand_final h hrow (by decide)
  obtain ⟨_, _, _, heq⟩ := hanswer.eq
  refine ⟨t, hexec, ?_⟩
  rw [heq]
  exact (portGoesDown_port s1 (k.par 16 1) .down).state.1

end

/-! ### RESET (R428, R433, R435) -/

/-- A stop keeps the reset block and the memories' bytes. -/
theorem stopNow_kept (s : State) (reason : Nat) :
    (stopNow s reason).resets = s.resets ∧ (stopNow s reason).hatch.bytes = s.hatch.bytes ∧ (stopNow s reason).cellar = s.cellar := by
  by_cases hrun : s.runOn = true
  · obtain ⟨_, _, _, _, _, _, _, _, _, _, _, hstop, -⟩ := endsRun_stopNow reason hrun
    rw [hstop]
    exact ⟨rfl, rfl, rfl⟩
  · unfold stopNow
    rw [if_pos (by simpa using hrun)]
    exact ⟨rfl, rfl, rfl⟩

theorem systemCleared_spec (s : State) : (systemCleared s).dev = .boot ∧ (systemCleared s).resets.cause = s.resets.cause := by
  unfold systemCleared loseMemory
  exact ⟨rfl, rfl⟩

/-- The source as it is recorded, with the level in force (R437, R445). -/
def resetRecorded (source level : Nat) (s : State) (wider : Bool) : State :=
  let r := s.resets
  let first := r.first.getD source
  { s with resets := { r with
    cause := r.cause ||| BitVec.ofNat 12 (2 ^ source), asserted := insertNat source r.asserted, first := some first,
    firstSrc := first, level := if wider then some level else r.level, firstLevel := if wider then level else r.firstLevel,
    pendingReset := if level ≤ 1 then none else r.pendingReset } }

theorem assertReset_free {source level : Nat} {s : State} (h : s.resets.level = none) :
    assertReset source level s = beginLevel level source (resetRecorded source level s true) := by
  unfold assertReset resetRecorded
  dsimp only
  rw [h]
  rfl

theorem resetRecorded_cause (source level : Nat) (s : State) (wider : Bool) :
    (resetRecorded source level s wider).resets.cause = s.resets.cause ||| BitVec.ofNat 12 (2 ^ source) := rfl

/-- A cause once recorded is set. -/
theorem bit_cause (v : BitVec 12) {i : Nat} (hi : i < 12) : bit (v ||| BitVec.ofNat 12 (2 ^ i)).toNat i = true := by
  have hlt : 2 ^ i < 2 ^ 12 := Nat.pow_lt_pow_right (by decide) hi
  rw [bit, ← Nat.testBit_eq_decide_div_mod_eq, BitVec.toNat_or, BitVec.toNat_ofNat, Nat.mod_eq_of_lt hlt, Nat.testBit_or,
    Nat.testBit_two_pow_self, Bool.or_true]

theorem beginSystem_spec (source : Nat) (s : State) :
    (beginLevel 1 source s).dev = .boot ∧ (beginLevel 1 source s).resets.cause = s.resets.cause := by
  have hstop : (stopForHost source s).resets = s.resets := by
    unfold stopForHost
    split
    · exact (stopNow_kept s 0x0C01).1
    · rfl
  obtain ⟨hdev, hcause⟩ := systemCleared_spec (stopForHost source s)
  exact ⟨hdev, hcause.trans (congrArg Resets.cause hstop)⟩

/-- What a core reset leaves of a package that it clears (R435, R442). -/
structure CoreReset (s t : State) : Prop where
  cores : t.cores = []
  contexts : t.contexts = []
  suspended : t.cmd.suspended = true
  image : t.mgmt.loadedImage = none
  cause : t.resets = s.resets
  hatch : t.hatch.bytes = s.hatch.bytes
  cellar : t.cellar.bytes = s.cellar.bytes

theorem coreCleared_reset (s : State) :
    CoreReset s { coreCleared s with cmd := { (coreCleared s).cmd with suspended := true } } := ⟨rfl, rfl, rfl, rfl, rfl, rfl, rfl⟩

theorem beginCore_spec (s : State) : CoreReset s (beginCore s) := by
  obtain ⟨_, _, _, hfail⟩ := repliesFrom_failAll (stopNow s 0x0C01) 0x0C01 0x80
  obtain ⟨hresets, hhatch, hcellar⟩ := stopNow_kept s 0x0C01
  obtain ⟨hcores, hcontexts, hsus, himage, hcause, hh, hc⟩ := coreCleared_reset (failAll (stopNow s 0x0C01) 0x0C01 0x80)
  rw [hfail] at hcause hh hc
  refine ⟨hcores, hcontexts, hsus, himage, ?_, ?_, ?_⟩
  · unfold beginCore
    dsimp only
    rw [hfail]
    exact hcause.trans hresets
  · unfold beginCore
    dsimp only
    rw [hfail]
    exact hh.trans hhatch
  · unfold beginCore
    dsimp only
    rw [hfail]
    exact hc.trans (congrArg Cellar.bytes hcellar)

section
variable {s s1 : State} {k : Packet}

theorem cReset_system {m : State} (hseq : k.seq ≠ 0) :
    cReset.run (k.withByte 16 1) m = .silent (resetAfterReply 7 (postReply m k.seq stOk 0 [])) := by
  unfold cReset
  dsimp only
  rw [par_withByte k 1 (by decide)]
  exact if_neg hseq

theorem cReset_core {m : State} (hseq : k.seq ≠ 0) : cReset.run (k.withByte 16 2) m = .long m (assertReset 8 2) := by
  have hsource : (if k.seq = 0 then 9 else 8) = 8 := if_neg hseq
  unfold cReset
  dsimp only
  rw [par_withByte k 2 (by decide)]
  change Verdict.long m (assertReset (if k.seq = 0 then 9 else 8) 2) = _
  rw [hsource]

theorem resetSystem_waits (h : Passes s cReset (k.withByte 16 1) s1) (hseq : k.seq ≠ 0) (hen : s.cmd.en = true)
    (hroom : s.cmd.queue.length < 1024) :
    ∃ t, exec (.resetSystem k) s = .next t ∧ t.dev = s.dev ∧ t.resets.pendingReset = some (7, s.cmd.queue.length + 1) ∧ Replies s t k 0 0 [] := by
  obtain ⟨_, hexec⟩ := hostCommand_silent h (cReset_system hseq)
  obtain ⟨hen1, hqueue⟩ := (intake_of_passes h).cmd
  have hdev : s1.dev = s.dev := by
    obtain ⟨_, _, _, rfl⟩ := intake_of_passes h
    rfl
  have hpost := postReply_queued (s := s1) k.seq stOk 0 [] (hen1.trans hen) (by rw [hqueue]; exact hroom)
  have hwait : resetAfterReply 7 (postReply s1 k.seq stOk 0 []) =
      { postReply s1 k.seq stOk 0 [] with
        resets := { (postReply s1 k.seq stOk 0 []).resets with pendingReset := some (7, (postReply s1 k.seq stOk 0 []).cmd.queue.length) } } := by
    unfold resetAfterReply
    refine if_neg ?_
    rw [hpost]
    simp [hen1, hen]
  rw [hwait, hpost] at hexec
  refine ⟨_, hexec, hdev, ?_, fun _ _ => ?_⟩
  · change some (7, (s1.cmd.queue ++ _).length) = _
    rw [List.length_append, hqueue]
    rfl
  · change s1.cmd.queue ++ _ = _
    rw [hqueue]
    rfl

theorem resetSystem_begins (h : Passes s cReset (k.withByte 16 1) s1) (hseq : k.seq ≠ 0) (hen : s.cmd.en = false)
    (hlevel : s.resets.level = none) : ∃ t, exec (.resetSystem k) s = .next t ∧ t.dev = .boot ∧ bit t.resets.cause.toNat 7 = true := by
  obtain ⟨_, hexec⟩ := hostCommand_silent h (cReset_system hseq)
  obtain ⟨hen1, -⟩ := (intake_of_passes h).cmd
  have hresets := (intake_of_passes h).resets
  obtain ⟨_, _, hpost, -⟩ := postReply_eq s1 k.seq stOk 0 []
  have hbegin (m : State) (hoff : m.cmd.en = false) (hfree : m.resets.level = none) :
      (resetAfterReply 7 m).dev = .boot ∧ bit (resetAfterReply 7 m).resets.cause.toNat 7 = true := by
    have hfree' : (m.advanceTo (m.now + 10000)).resets.level = none := by
      obtain ⟨_, hadv⟩ := State.advanceTo_eq m (m.now + 10000)
      rw [hadv]
      exact hfree
    obtain ⟨hdev, hcause⟩ := beginSystem_spec 7 (resetRecorded 7 1 (m.advanceTo (m.now + 10000)) true)
    unfold resetAfterReply
    rw [if_pos (by simp [hoff]), assertReset_free hfree']
    refine ⟨hdev, ?_⟩
    rw [hcause, resetRecorded_cause]
    exact bit_cause _ (by decide)
  obtain ⟨hdev, hbit⟩ := hbegin (postReply s1 k.seq stOk 0 []) (by rw [hpost]; exact hen1.trans hen) (by rw [hpost]; exact hresets ▸ hlevel)
  exact ⟨_, hexec, hdev, hbit⟩

theorem resetCore_next (h : Passes s cReset (k.withByte 16 2) s1) (hseq : k.seq ≠ 0) (hlevel : s.resets.level = none) :
    ∃ t, exec (.resetCore k) s = .next t ∧ t.cores = [] ∧ t.contexts = [] ∧ t.cmd.suspended = true ∧ t.mgmt.loadedImage = none ∧
      bit t.resets.cause.toNat 8 = true ∧ t.hatch.bytes = s.hatch.bytes ∧ t.cellar.bytes = s.cellar.bytes := by
  obtain ⟨_, hexec⟩ := hostCommand_long h (cReset_core hseq)
  have hresets := (intake_of_passes h).resets
  obtain ⟨hhatch, hcellar⟩ := (intake_of_passes h).memory
  obtain ⟨⟨_, _, hacc⟩, -⟩ := accepted_eq cReset (k.withByte 16 2) s1
  have hfree : (accepted cReset (k.withByte 16 2) s1).resets.level = none := by
    rw [hacc]
    exact hresets ▸ hlevel
  have hh : (accepted cReset (k.withByte 16 2) s1).hatch.bytes = s.hatch.bytes := by
    rw [hacc]
    exact congrArg Hatch.bytes hhatch
  have hc : (accepted cReset (k.withByte 16 2) s1).cellar.bytes = s.cellar.bytes := by
    rw [hacc]
    exact congrArg Cellar.bytes hcellar
  rw [assertReset_free hfree] at hexec
  obtain ⟨hcores, hcontexts, hsus, himage, hcause, hhb, hcb⟩ := beginCore_spec (resetRecorded 8 2 (accepted cReset (k.withByte 16 2) s1) true)
  refine ⟨_, hexec, hcores, hcontexts, hsus, himage, ?_, hhb.trans hh, hcb.trans hc⟩
  have hbit : bit (beginCore (resetRecorded 8 2 (accepted cReset (k.withByte 16 2) s1) true)).resets.cause.toNat 8 = true := by
    rw [hcause, resetRecorded_cause]
    exact bit_cause _ (by decide)
  exact hbit

end

/-- Settles O42. -/
theorem ownerCommandsAndResetAct : Obligations.OwnerCommandsAndResetAct := fun _ _ _ =>
  ⟨setSlice_acts, loadTransit_next, discover_next,
    fun hport hlen => ⟨fun h huse => portDisable_next h hport hlen huse, fun h => portEnable_next h hport hlen,
      fun h => ⟨portRetrain_unused h hport hlen, portRetrain_used h hport hlen⟩⟩,
    fun h hseq => ⟨resetSystem_waits h hseq, resetSystem_begins h hseq⟩, resetCore_next⟩

end Sys2Proof.Machine
end

section
/-! PROOFS. Register writes of the host, and block resets (R245, R409, R412, R444, R445, R480, R484, R490). -/

namespace Sys2Proof.Machine

open Sys2Proof

/-! ### CMD_CFG (R409) -/

/-- The fields of `CMD_CFG` beside `EN`, with `EN` replaced. -/
theorem cmdCfg_fields (v : Nat) {b : Nat} (hb : b < 2) :
    bit (v / 2 * 2 + b) 0 = decide (b = 1) ∧ bit (v / 2 * 2 + b) 1 = bit v 1 ∧ bits (v / 2 * 2 + b) 15 12 = bits v 15 12 := by
  refine ⟨?_, ?_, ?_⟩
  · rw [bit, decide_eq_decide]
    omega
  · rw [bit, bit, decide_eq_decide]
    omega
  · change (v / 2 * 2 + b) / 4096 % 16 = v / 4096 % 16
    omega

theorem writeCmdCfg_enable (v : Nat) (s : State) : writeCmdCfg (v / 2 * 2 + 1) s = { s with cmd :=
    if s.cmd.en then { s.cmd with irqEn := bit v 1 }
    else { s.cmd with en := true, irqEn := bit v 1, log2Slots := inRange 6 10 s.cmd.log2Slots (bits v 15 12),
                      nextSeq := 1, rplWritten := 0, rplConsumed := 0 } } := by
  obtain ⟨hen, hirq, hslots⟩ := cmdCfg_fields v (b := 1) (by decide)
  unfold writeCmdCfg
  dsimp only
  rw [hen, hirq, hslots]
  cases hs : s.cmd.en with
  | true =>
    have hon : { s.cmd with log2Slots := s.cmd.log2Slots, irqEn := bit v 1, en := true } = { s.cmd with irqEn := bit v 1 } := by rw [← hs]
    simp only [decide_true, Bool.not_true, Bool.and_false, Bool.false_eq_true, if_false, if_true, hon]
  | false => rfl

theorem writeCmdCfg_disable (v : Nat) (s : State) : writeCmdCfg (v / 2 * 2) s = { s with cmd := { s.cmd with
    en := false, irqEn := bit v 1, log2Slots := if s.cmd.en then s.cmd.log2Slots else inRange 6 10 s.cmd.log2Slots (bits v 15 12) } } := by
  obtain ⟨hen, hirq, hslots⟩ := cmdCfg_fields v (b := 0) (by decide)
  rw [Nat.add_zero] at hen hirq hslots
  unfold writeCmdCfg
  dsimp only
  rw [hen, hirq, hslots]
  rfl

/-! ### Alarms and the box room's configuration (R480, R484, R490) -/

theorem ackAlarm_spec (s : State) (n : Nat) :
    (spGet {} (ackAlarm n s).alarms.slots n).pending = false ∧
      (∀ m, m ≠ n → spGet {} (ackAlarm n s).alarms.slots m = spGet {} s.alarms.slots m) ∧ (ackAlarm n s).alarms.raised = s.alarms.raised ∧
      (ackAlarm n s).alarms.latch = s.alarms.latch ∧
      (ackAlarm n s).pins.alertN = (s.alarms.alertOn && !(ackAlarm n s).alarms.slots.any (fun e => e.2.pending)) := by
  have hslots : (ackAlarm n s).alarms.slots = spModify {} s.alarms.slots n fun a => { a with pending := false } := rfl
  refine ⟨?_, fun m hm => ?_, rfl, rfl, rfl⟩
  · rw [hslots, spGet_spModify, if_pos rfl]
  · rw [hslots, spGet_spModify, if_neg (Ne.symm hm)]

theorem writeBrCfg_spec (v : Nat) (s : State) :
    (writeBrCfg v s).alarms.evmask = BitVec.ofNat 10 (bits v 10 1) ∧
      (s.dev = .idle → bits v 26 21 ≤ 32 → (writeBrCfg v s).alarms.ovfGib = bits v 26 21 ∧
        (bits v 26 21 ≠ s.alarms.ovfGib → (writeBrCfg v s).mgmt.images = [] ∧ (writeBrCfg v s).mgmt.verified = false)) ∧
      (s.dev ≠ .idle → (writeBrCfg v s).alarms.ovfGib = s.alarms.ovfGib) := by
  unfold writeBrCfg writeOvfGib
  dsimp only
  split
  · next hidle =>
    split
    · next hkeep => exact ⟨rfl, fun _ hle => ⟨(hkeep.resolve_left (Nat.not_lt.mpr hle)).symm,
        fun hne => absurd (hkeep.resolve_left (Nat.not_lt.mpr hle)) hne⟩, fun hno => absurd hidle hno⟩
    · exact ⟨rfl, fun _ _ => ⟨rfl, fun _ => ⟨rfl, rfl⟩⟩, fun hno => absurd hidle hno⟩
  · next hno => exact ⟨rfl, fun hidle => absurd hidle hno, fun _ => rfl⟩

/-! ### The map of BAR0 (R406) -/

theorem writeRegister_backup {n : Nat} (v : Nat) (s : State) (h : n < 8) : writeRegister (0x020040 + 8 * n) v s = writeBackup n v s := by
  have hindex : (0x020040 + 8 * n - 0x020040) / 8 = n := by omega
  unfold writeRegister
  rw [if_pos (by omega), hindex]

theorem writeRegister_beyond {a : Nat} (v : Nat) (s : State) (h : 0x200004 ≤ a) : writeRegister a v s = s := by
  unfold writeRegister
  rw [if_neg (by omega), if_neg (by omega)]
  unfold blockRegister
  split
  rotate_left 27
  · rfl
  all_goals exact absurd h (by decide)

/-! ### The writes of the host (R446) -/

theorem hostRegister_next {s : State} (hoff : s.dev ≠ .off) (hboot : s.dev ≠ .boot) (f : State → State) : hostRegister f s = .next (f s) :=
  congrArg _ (if_neg (not_or.mpr ⟨hoff, hboot⟩))

theorem exec_alarmAck {s : State} {n : Nat} (hoff : s.dev ≠ .off) (hboot : s.dev ≠ .boot) (hn : n < 512) :
    exec (.alarmAck n) s = .next (ackAlarm n s) := by
  have hslot : n % 512 = n := Nat.mod_eq_of_lt hn
  have hexec := hostRegister_next hoff hboot (ackAlarm (n % 512))
  rw [hslot] at hexec
  change hostRegister (ackAlarm (n % 512)) s = _
  rwa [hslot]

theorem exec_sampleCfgWrite {s : State} {p : Nat} (v : Word) (hoff : s.dev ≠ .off) (hboot : s.dev ≠ .boot) (hp : portExists s.variant p = true) :
    exec (.sampleCfgWrite p v) s = .next (s.setPort p { s.port p with sampleNext := some v, sampleRx := 0, sampleTx := 0 }) := by
  have hv : BitVec.ofNat 32 v.toNat = v := BitVec.ofNat_toNat ..
  change (if portExists s.variant p then hostRegister (writeSampleCfg p v.toNat) s else _) = _
  rw [if_pos hp, hostRegister_next hoff hboot, writeSampleCfg, State.modPort, hv]

/-- Settles O44. -/
theorem registerWritesTakeTheirValues : Obligations.RegisterWritesTakeTheirValues := by
  intro s v d n p a hoff hboot
  have hnext := hostRegister_next hoff hboot
  have hv : BitVec.ofNat 32 v.toNat = v := BitVec.ofNat_toNat ..
  have hd : BitVec.ofNat 64 d.toNat = d := BitVec.ofNat_toNat ..
  refine ⟨(hnext _).trans (congrArg _ (writeCmdCfg_enable v.toNat s)), (hnext _).trans (congrArg _ (writeCmdCfg_disable v.toNat s)),
    (hnext _).trans ?_, fun hn => ⟨_, exec_alarmAck hoff hboot hn, ackAlarm_spec s n⟩, hnext _, hnext _, exec_sampleCfgWrite v hoff hboot,
    ⟨_, hnext _, writeBrCfg_spec v.toNat s⟩, hnext _, fun hn => (hnext _).trans ?_, fun ha => (hnext _).trans ?_⟩
  · rw [writeRplConsumed, hv]
  · rw [writeRegister_backup _ _ hn, writeBackup, hd]
  · rw [writeRegister_beyond _ _ ha]

/-! ### Block resets (R444, R445) -/

/-- The fields of `BLOCK_CTRL` as a block reset of a port writes them. -/
theorem blockCtrl_fields {p : Nat} (h : p < 22) :
    bits (2 ^ 31 + 0 % 4 * 65536 + p % 65536) 17 16 = 0 ∧ bits (2 ^ 31 + 0 % 4 * 65536 + p % 65536) 15 0 = p ∧
      bit (2 ^ 31 + 0 % 4 * 65536 + p % 65536) 31 = true := by
  have hp : p % 65536 = p := Nat.mod_eq_of_lt (by omega)
  rw [hp]
  refine ⟨?_, ?_, ?_⟩
  · change (2 ^ 31 + 0 + p) / 65536 % 4 = 0
    omega
  · change (2 ^ 31 + 0 + p) / 1 % 65536 = p
    omega
  · rw [bit, decide_eq_true_iff]
    omega

theorem writeBlockCtrl_port {s : State} {p : Nat} (h : p < 22) (hbusy : s.resets.blockBusy = false) :
    writeBlockCtrl (2 ^ 31 + 0 % 4 * 65536 + p % 65536) s =
      requestBlock 0 p { s with resets := { s.resets with blockKind := 0, blockIndex := p } } := by
  obtain ⟨hkind, hindex, hgo⟩ := blockCtrl_fields h
  unfold writeBlockCtrl
  rw [if_neg (by simp [hbusy]), hkind, hindex, hgo]
  rfl

theorem requestBlock_allowed {s : State} {p : Nat} (hbusy : s.resets.blockBusy = false) (hp : portExists s.variant p = true)
    (huse : s.epochUses p = false) : requestBlock 0 p s =
      { s with resets := { s.resets with blockBusy := true, blockRefused := false, blockTimedOut := false, blockDone := false } } := by
  have hallowed : blockAllowed s 0 p = true := by
    unfold blockAllowed
    rw [if_pos rfl, hp, huse]
    rfl
  unfold requestBlock
  rw [if_neg (by simp [hbusy]), if_neg (by simp [hallowed])]

theorem requestBlock_used {s : State} {p : Nat} (hbusy : s.resets.blockBusy = false) (huse : s.epochUses p = true) :
    requestBlock 0 p s = { s with resets := { s.resets with blockRefused := true } } := by
  have hrefused : blockAllowed s 0 p = false := by
    unfold blockAllowed
    rw [if_pos rfl, huse, Bool.not_true, Bool.and_false]
  unfold requestBlock
  rw [if_neg (by simp [hbusy]), if_pos (by simp [hrefused])]

theorem blockReset_taken {s : State} {p : Nat} (hoff : s.dev ≠ .off) (hboot : s.dev ≠ .boot) (h : p < 22) (hbusy : s.resets.blockBusy = false)
    (hp : portExists s.variant p = true) (huse : s.epochUses p = false) :
    ∃ t, exec (.blockReset 0 p) s = .next t ∧ t.resets.blockBusy = true ∧ t.resets.blockKind = 0 ∧ t.resets.blockIndex = p ∧
      t.resets.blockRefused = false ∧ t.ports = s.ports :=
  ⟨_, (hostRegister_next hoff hboot _).trans (congrArg _ ((writeBlockCtrl_port h hbusy).trans (requestBlock_allowed hbusy hp huse))),
    rfl, rfl, rfl, rfl, rfl⟩

theorem blockReset_refused {s : State} {p : Nat} (hoff : s.dev ≠ .off) (hboot : s.dev ≠ .boot) (h : p < 22) (hbusy : s.resets.blockBusy = false)
    (huse : s.epochUses p = true) :
    ∃ t, exec (.blockReset 0 p) s = .next t ∧ t.resets.blockBusy = false ∧ t.resets.blockRefused = true ∧ t.ports = s.ports :=
  ⟨_, (hostRegister_next hoff hboot _).trans (congrArg _ ((writeBlockCtrl_port h hbusy).trans (requestBlock_used hbusy huse))), hbusy, rfl, rfl⟩

theorem blockQuiesceTimeout_next {s : State} (hbusy : s.resets.blockBusy = true) (hout : s.resets.blockTimedOut = false) :
    ∃ t, exec .blockQuiesceTimeout s = .next t ∧ t.resets.blockTimedOut = true ∧ t.alarms.raised = s.alarms.raised + 1 := by
  have hexec : exec .blockQuiesceTimeout s =
      .next (raiseAlarm { s with resets := { s.resets with blockTimedOut := true } } 0x0C15 s.resets.blockIndex) :=
    if_neg (by simp [hbusy, hout])
  refine ⟨_, hexec, ?_, raised_raiseAlarm ..⟩
  obtain ⟨_, _, _, halarm, -⟩ := raiseAlarm_eq { s with resets := { s.resets with blockTimedOut := true } } 0x0C15 s.resets.blockIndex [] false false
  rw [halarm]

theorem blockResetDone_next {s : State} {us : Nat} (ok : Bool) (hbusy : s.resets.blockBusy = true) (hkind : s.resets.blockKind = 0)
    (hout : s.resets.blockTimedOut = false) (hwait : us ≤ 10 * s.resets.quiesce10us) (hus : us < 65536) :
    ∃ t, exec (.blockResetDone us ok) s = .next t ∧ t.resets.blockBusy = false ∧ t.resets.blockDone = true ∧ t.resets.blockUs = us ∧
      t.port s.resets.blockIndex = unlinked (s.port s.resets.blockIndex) .training := by
  have htime : (if s.resets.blockTimedOut then 10 * s.resets.quiesce10us else Nat.min us (10 * s.resets.quiesce10us)) % 65536 = us := by
    rw [hout]
    exact (congrArg (· % 65536) (Nat.min_eq_left hwait)).trans (Nat.mod_eq_of_lt hus)
  have hexec : exec (.blockResetDone us ok) s =
      .next (closePort { s with resets := { s.resets with blockBusy := false, blockDone := true, blockUs := us } }
        s.resets.blockIndex .training) := by
    change execBlockResetDone us ok s = _
    unfold execBlockResetDone
    dsimp only
    rw [if_neg (by simp [hbusy]), htime, resetBlock, if_pos hkind]
  obtain ⟨hport, -, hresets⟩ :=
    closePort_spec { s with resets := { s.resets with blockBusy := false, blockDone := true, blockUs := us } } s.resets.blockIndex .training
  refine ⟨_, hexec, ?_, ?_, ?_, hport⟩
  · rw [hresets]
  · rw [hresets]
  · rw [hresets]

/-- Settles O45. -/
theorem blockResetsRun : Obligations.BlockResetsRun := by
  intro s p us ok hoff hboot hp
  refine ⟨blockReset_taken hoff hboot hp, blockReset_refused hoff hboot hp, blockQuiesceTimeout_next, ?_⟩
  rintro hbusy hkind rfl hout hwait hus
  obtain ⟨t, hexec, hfree, hdone, htime, hport⟩ := blockResetDone_next ok hbusy hkind hout hwait hus
  exact ⟨t, hexec, hfree, hdone, htime, congrArg Port.state hport, congrArg Port.departure hport, congrArg Port.retry hport⟩

end Sys2Proof.Machine
end

section
/-! PROOFS. The writers of stored records: the inventory ring, the box room and the event queue (R354, R355, R478 to R481, R488). -/

namespace Sys2Proof.Machine

open Sys2Proof

/-! ### The ring (R354) -/

/-- The bytes that a write leaves in the cellars do not depend on the inventory. -/
theorem cellarWrite_inv (bs : List Byte) (s : State) (inv : Inventory) (da : Nat) :
    ({ s with inv := inv } : State).cellarWrite da bs = { s.cellarWrite da bs with inv := inv } := by
  induction bs generalizing s da with
  | nil => rfl
  | cons b t ih =>
    have hkey : ({ s with inv := inv } : State).sectorKey da = s.sectorKey da := rfl
    rw [State.cellarWrite, State.cellarWrite, hkey]
    split
    · exact ih s (da + 1)
    · next n _ =>
      exact ih { s with cellar := { s.cellar with bytes := spSet 0 s.cellar.bytes (n * 32 + da % 32) b, errors := spSet 0 s.cellar.errors n 0 } }
        (da + 1)

/-- The inventory with a record at the head of its ring. -/
def Inventory.appended (i : Inventory) (r : InvRec) (size : Nat) : Inventory :=
  { i with ring := i.ring ++ [r], ringBytes := i.ringBytes + r.recLen, head := (i.head + r.recLen) % size }

theorem ringAppend_eq (s : State) (r : InvRec) :
    ringAppend s r = { s.cellarWrite s.inv.head r.bytes with inv := s.inv.appended r s.ringSize } := by
  obtain ⟨_, _, hw, -⟩ := State.cellarWrite_eq r.bytes s s.inv.head
  unfold ringAppend State.ringSize Inventory.appended
  dsimp only
  rw [hw]

/-- A record that fits before the end of the ring is written at its head. -/
theorem ringRecord_fits {s : State} {r : InvRec} (rest : List InvRec) (hend : s.inv.head + r.recLen ≤ s.ringSize)
    (hroom : s.inv.ringBytes + r.recLen ≤ s.ringSize) :
    ringRecord s r rest = ringAppend { s with inv := { s.inv with buffer := rest, bufBytes := s.inv.bufBytes - r.recLen } } r := by
  have hneed : ringNeed s r = r.recLen := if_neg (Nat.not_lt.mpr hend)
  unfold ringRecord
  rw [if_neg (by rw [hneed]; omega)]
  dsimp only
  exact congrArg (ringAppend · r) (if_neg (Nat.not_lt.mpr hend))

theorem ringWrite_next {s : State} {r : InvRec} {rest : List InvRec} (hopen : s.ringInterval = true) (hbuffer : s.inv.buffer = r :: rest)
    (hend : s.inv.head + r.recLen ≤ s.ringSize) (hroom : s.inv.ringBytes + r.recLen ≤ s.ringSize) :
    ∃ t, exec .ringWrite s = .next t ∧ t.inv.buffer = rest ∧ t.inv.ring = s.inv.ring ++ [r] ∧ t.inv.ringBytes = s.inv.ringBytes + r.recLen ∧
      t.inv.head = (s.inv.head + r.recLen) % s.ringSize ∧ t.cellar.bytes = (s.cellarWrite s.inv.head r.bytes).cellar.bytes := by
  have hexec : exec .ringWrite s = .next (ringRecord s r rest) := by
    change execRingWrite s = _
    unfold execRingWrite
    rw [if_neg (by simp [hopen]), hbuffer]
  refine ⟨_, hexec, ?_⟩
  rw [ringRecord_fits rest hend hroom, ringAppend_eq, cellarWrite_inv]
  exact ⟨rfl, rfl, rfl, rfl, rfl⟩

/-! ### The box room (R478, R481) -/

theorem headOf_setHead (a : Alarms) (p n : Nat) : (a.setHead p n).headOf p = n % 2 ^ 64 := by
  match p with
  | 0 => exact BitVec.toNat_ofNat n 64
  | 1 => exact BitVec.toNat_ofNat n 64
  | p + 2 => exact BitVec.toNat_ofNat n 64

/-- What a record leaves of the box room: its partition's head passes it, and no other place changes. -/
structure BoxWritten (a : Alarms) (part : Nat) (b : Alarms) : Prop where
  queue : b.boxQueue = a.boxQueue
  head : b.headOf part = (a.headOf part + (partition part).len) % 2 ^ 64
  others : ∀ n, n ≠ (partition part).base + a.headOf part % (partition part).size → spGet [] b.box n = spGet [] a.box n

theorem writeBox_free {a : Alarms} {r : BoxRec} (h : a.placeHeld r.part = false) : BoxWritten a r.part (a.writeBox r) := by
  have hset (m : Alarms) (p n : Nat) (box : List (Nat × List Byte)) : ({ m.setHead p n with box := box } : Alarms).boxQueue = m.boxQueue ∧
      ({ m.setHead p n with box := box } : Alarms).headOf p = n % 2 ^ 64 := by
    refine ⟨?_, (?_ : _ = (m.setHead p n).headOf p).trans (headOf_setHead m p n)⟩
    · match p with
      | 0 => rfl
      | 1 => rfl
      | p + 2 => rfl
    · match p with
      | 0 => rfl
      | 1 => rfl
      | p + 2 => rfl
  unfold Alarms.writeBox
  dsimp only
  rw [h]
  obtain ⟨hqueue, hhead⟩ := hset a r.part (a.headOf r.part + (partition r.part).len) _
  exact ⟨hqueue, hhead, fun n hn => spGet_spSet_ne _ _ _ (Ne.symm hn)⟩

theorem boxRoomWrite_next {s : State} {b : BoxRec} {l : List BoxRec} (hnext : nextBox s.alarms.boxQueue = some (b, l))
    (hfree : s.alarms.placeHeld b.part = false) :
    ∃ t, exec .boxRoomWrite s = .next t ∧ t.alarms.boxQueue = l ∧
      t.alarms.headOf b.part = (s.alarms.headOf b.part + (partition b.part).len) % 2 ^ 64 ∧
      (∀ n, n ≠ (partition b.part).base + s.alarms.headOf b.part % (partition b.part).size → spGet [] t.alarms.box n = spGet [] s.alarms.box n) := by
  have hexec : exec .boxRoomWrite s = .next { s with alarms := { s.alarms with boxQueue := l }.writeBox b } := by
    change execBoxRoomWrite s = _
    unfold execBoxRoomWrite
    rw [hnext]
  have hqueue (p : Nat) : ({ s.alarms with boxQueue := l } : Alarms).headOf p = s.alarms.headOf p ∧
      ({ s.alarms with boxQueue := l } : Alarms).placeHeld p = s.alarms.placeHeld p := by
    match p with
    | 0 => exact ⟨rfl, rfl⟩
    | 1 => exact ⟨rfl, rfl⟩
    | p + 2 => exact ⟨rfl, rfl⟩
  obtain ⟨hq, hhead, hothers⟩ := writeBox_free (a := { s.alarms with boxQueue := l }) (r := b) ((hqueue b.part).2.trans hfree)
  rw [(hqueue b.part).1] at hhead hothers
  exact ⟨_, hexec, hq, hhead, hothers⟩

/-! ### Events (R488) -/

theorem pldmEventSend_next {s : State} {e : Byte} {c : Nat} {m : List Byte} {es : List (Nat × List Byte)}
    (hreceiver : s.sec.eventReceiver = some e) (hevents : s.sec.events = (c, m) :: es) :
    exec .pldmEventSend s = .next { s with sec := { s.sec with events := es, lastResponse := leBytes 1 c ++ m } } := by
  change execPldmEventSend s = _
  unfold execPldmEventSend
  rw [hreceiver, hevents]

/-- Settles O46. -/
theorem storedRecordsAreWritten : Obligations.StoredRecordsAreWritten := fun _ _ _ _ _ _ _ _ _ =>
  ⟨ringWrite_next, boxRoomWrite_next, pldmEventSend_next⟩

end Sys2Proof.Machine
end

section
/-! PROOFS. Margins, stretches and crossings (R69, R379 to R382); the power governor, the throttles and AVSBus (R384 to R386, R515 to R519). -/

namespace Sys2Proof.Machine

open Sys2Proof

/-! ### Margins (R380) -/

theorem foldl_min_le : ∀ (l : List Int) (a : Int), l.foldl Min.min a ≤ a ∧ ∀ y ∈ l, l.foldl Min.min a ≤ y
  | [], a => ⟨Int.le_refl a, fun _ h => absurd h List.not_mem_nil⟩
  | b :: l, a => by
    obtain ⟨hle, hmem⟩ := foldl_min_le l (Min.min a b)
    refine ⟨hle.trans (Int.min_le_left a b), fun y hy => ?_⟩
    rcases List.mem_cons.mp hy with rfl | hy
    · exact hle.trans (Int.min_le_right a y)
    · exact hmem y hy

theorem le_foldl_min {c : Int} : ∀ (l : List Int) (a : Int), c ≤ a → (∀ y ∈ l, c ≤ y) → c ≤ l.foldl Min.min a
  | [], _, ha, _ => ha
  | b :: l, _, ha, hl => le_foldl_min l _ (Int.le_min.mpr ⟨ha, hl b List.mem_cons_self⟩) fun y hy => hl y (List.mem_cons_of_mem b hy)

/-- The smallest margin of a region after a reading. -/
def State.lowMargin (s : State) (j : Nat) (m : Int) : Nat :=
  Nat.min m.toNat (match s.clock.minMargin.find? (fun e => e.1 == j) with | some e => e.2 | none => 255)

/-- A margin is kept for its region. -/
def marginKept (s : State) (j : Nat) (m : Int) : State :=
  { s with clock := { s.clock with minMargin := (s.clock.minMargin.filter (fun e => e.1 != j)) ++ [(j, s.lowMargin j m)] } }

/-- A margin that a stretch has not mended is alarmed. -/
def marginWarned (s : State) (j : Nat) (m : Int) : State :=
  if decide (m < 6) && s.cycling && spGet 0 s.clock.stretchDue j == s.cycleNow + 1 then
    raiseAlarm { marginKept s j m with clock := { (marginKept s j m).clock with
      marginWarns := (marginKept s j m).clock.marginWarns + 1, warned := spSet false (marginKept s j m).clock.warned j true } }
      0x0C20 j [] false true
  else marginKept s j m

/-- A margin below 12 asks for a stretch. -/
def marginDetected (s : State) (j : Nat) (m : Int) : State :=
  if m < 12 ∧ s.cycling then detectStretch (marginWarned s j m) j s.cycleNow else marginWarned s j m

theorem exec_marginCheck {s : State} {j : Nat} (x : Int) (xs : List Int) (hj : j < 64) : exec (.marginCheck j (x :: xs)) s =
    .next (if xs.foldl Min.min x ≤ 0 then marginFail (marginDetected s j (xs.foldl Min.min x)) j
           else marginDetected s j (xs.foldl Min.min x)) := by
  change execMarginCheck j (x :: xs) s = _
  unfold execMarginCheck
  rw [if_neg (Nat.not_le.mpr hj)]
  rfl

theorem marginDetected_wide {s : State} {j : Nat} {m : Int} (h : 12 ≤ m) : marginDetected s j m = marginKept s j m := by
  have hwarn : ¬ (decide (m < 6) && s.cycling && spGet 0 s.clock.stretchDue j == s.cycleNow + 1) = true := by
    rw [decide_eq_false (by omega), Bool.false_and, Bool.false_and]
    exact Bool.false_ne_true
  unfold marginDetected
  rw [if_neg (fun hm => absurd hm.1 (Int.not_lt.mpr h))]
  exact if_neg hwarn

theorem marginCheck_wide {s : State} {j : Nat} {x : Int} {xs : List Int} (hj : j < 64) (h : ∀ y ∈ x :: xs, 12 ≤ y) :
    ∃ t v, exec (.marginCheck j (x :: xs)) s = .next t ∧ t = { s with clock := { s.clock with minMargin := t.clock.minMargin } } ∧
      (j, v) ∈ t.clock.minMargin ∧ ∀ y ∈ x :: xs, (v : Int) ≤ y := by
  have hm : 12 ≤ xs.foldl Min.min x := le_foldl_min xs x (h x List.mem_cons_self) fun y hy => h y (List.mem_cons_of_mem x hy)
  have hexec := exec_marginCheck (s := s) x xs hj
  rw [if_neg (by omega), marginDetected_wide hm] at hexec
  refine ⟨_, s.lowMargin j (xs.foldl Min.min x), hexec, rfl, List.mem_append_right _ (List.mem_singleton_self _), fun y hy => ?_⟩
  obtain ⟨hx, hxs⟩ := foldl_min_le xs x
  have hlow : s.lowMargin j (xs.foldl Min.min x) ≤ (xs.foldl Min.min x).toNat := Nat.min_le_left ..
  have hy' : xs.foldl Min.min x ≤ y := by
    rcases List.mem_cons.mp hy with rfl | hy
    · exact hx
    · exact hxs y hy
  omega

/-- The run and its latch stay. -/
structure RunKept (s t : State) : Prop where
  dev : t.dev = s.dev
  frame : t.frame = s.frame
  latch : t.alarms.latch = s.alarms.latch

theorem RunKept.runOn {s t : State} (h : RunKept s t) : t.runOn = s.runOn := by
  unfold State.runOn State.inRun
  rw [h.dev, h.frame]

theorem runKept_detectStretch {s t : State} (j cycle : Nat) (h : RunKept s t) : RunKept s (detectStretch t j cycle) := by
  have hposted {c : Clock} : RunKept s { t with clock := c } := ⟨h.dev, h.frame, h.latch⟩
  have hstretch (m : State) (hm : RunKept s m) : RunKept s (stretchRegion (m.useFree 1) j (cycle + 1)) := ⟨hm.dev, hm.frame, hm.latch⟩
  unfold detectStretch
  split
  · exact h
  · refine hstretch _ ?_
    split
    · split
      · exact h
      · exact hposted
    · exact hposted

theorem runKept_marginDetected (s : State) (j : Nat) (m : Int) : RunKept s (marginDetected s j m) := by
  have hkept : RunKept s (marginKept s j m) := ⟨rfl, rfl, rfl⟩
  have hwarned : RunKept s (marginWarned s j m) := by
    unfold marginWarned
    split
    · obtain ⟨_, _, _, halarm, hlatch⟩ := raiseAlarm_eq { marginKept s j m with clock := { (marginKept s j m).clock with
        marginWarns := (marginKept s j m).clock.marginWarns + 1, warned := spSet false (marginKept s j m).clock.warned j true } }
        0x0C20 j [] false true
      rw [halarm]
      exact ⟨rfl, rfl, hlatch⟩
    · exact hkept
  unfold marginDetected
  split
  · exact runKept_detectStretch _ _ hwarned
  · exact hwarned

theorem marginCheck_fails {s : State} {j : Nat} {x : Int} {xs : List Int} (hj : j < 64) (h : ∃ y ∈ x :: xs, y ≤ 0) (hrun : s.runOn = true)
    (hlatch : s.alarms.latch = none) : ∃ t l, exec (.marginCheck j (x :: xs)) s = .next t ∧ t.dev = .faulted ∧ t.alarms.latch = some l ∧
      l.record.reason = 0x0C21 ∧ l.record.detail = j := by
  have hm : xs.foldl Min.min x ≤ 0 := by
    obtain ⟨hx, hxs⟩ := foldl_min_le xs x
    obtain ⟨y, hy, hy0⟩ := h
    rcases List.mem_cons.mp hy with rfl | hy
    · exact hx.trans hy0
    · exact (hxs y hy).trans hy0
  have hexec := exec_marginCheck (s := s) x xs hj
  have hkept := runKept_marginDetected s j (xs.foldl Min.min x)
  have hrun' := hkept.runOn.trans hrun
  rw [if_pos hm, marginFail, if_pos hrun'] at hexec
  obtain ⟨hends, hfault⟩ := endsRun_deviceFault 0x0C21 j hrun'
  obtain ⟨l, hl, hrecord⟩ := hfault (hkept.latch.trans hlatch)
  refine ⟨_, l, hexec, hends.dev, hl, ?_, ?_⟩
  · rw [hrecord]
    rfl
  · rw [hrecord]
    rfl

/-! ### Stretches and crossings (R381, R382) -/

theorem stretchEventApply_next {s : State} {j : Nat} (hj : j < 64) (hcycling : s.cycling = true) (hevent : (s.nextEvent j).isSome = true) :
    exec (.stretchEventApply j) s = .next { s with clock := { s.clock with
      lastStretch := spSet 0 s.clock.lastStretch j (Nat.max s.cycleNow (spGet 0 s.clock.lastStretch j) + 16),
      stretchDue := spSet 0 s.clock.stretchDue j (Nat.max s.cycleNow (spGet 0 s.clock.lastStretch j) + 1),
      applied := spSet 0 s.clock.applied j (spGet 0 s.clock.applied j + 1) } } := by
  change execStretchEventApply j s = _
  unfold execStretchEventApply
  rw [if_neg (Nat.not_le.mpr hj), if_pos (by rw [hcycling, hevent]; rfl)]
  rfl

theorem beatCapture_near {s : State} {j : Nat} {x : Int} (hj : j < 64) (hx : x.natAbs ≤ 8) : exec (.beatCapture j x) s = .next s := by
  change execBeatCapture j x s = _
  unfold execBeatCapture
  rw [if_neg (Nat.not_le.mpr hj), if_pos hx]

theorem beatCapture_far {s : State} {j g : Nat} {x : Int} (hj : j < 64) (hx : 8 < x.natAbs) (hcycling : s.cycling = true)
    (hregion : s.logicalRegion j = some g) : ∃ t r, exec (.beatCapture j x) s = .next t ∧ t.freeze.raised = s.freeze.raised ++ [r] ∧
      r.reason = 0x0108 ∧ r.lcore = g * 1280 ∧ r.cycle = s.cycleNow := by
  have hexec : exec (.beatCapture j x) s = .next (raiseCore s (g * 1280) 6 0xFFFF s.cycleNow { reason := 0x0108 }) := by
    change execBeatCapture j x s = _
    unfold execBeatCapture
    rw [if_neg (Nat.not_le.mpr hj), if_neg (Nat.not_le.mpr hx), hregion]
    exact congrArg _ (if_pos hcycling)
  exact ⟨_, s.coreRec (g * 1280) 6 0xFFFF s.cycleNow { reason := 0x0108 }, hexec, rfl, rfl, rfl, rfl⟩

/-- Settles O47. -/
theorem marginsAndStretchesAct : Obligations.MarginsAndStretchesAct := fun _ _ _ _ hj =>
  ⟨marginCheck_wide hj, marginCheck_fails hj, stretchEventApply_next hj, beatCapture_near hj,
    fun hx hcycling _ hregion => beatCapture_far hj hx hcycling hregion⟩

/-! ### The governor (R384) -/

/-- The clock of a package over its cap, under 95 % of it, or between (R384). -/
def governed (s : State) (power : Nat) : State :=
  let c := s.clock
  let cap := powerCap s.variant c.mode
  let step := nominalKhz c.mode / 100
  let low := minKhz c.mode
  if cap < power then
    retarget { s with clock := { c with
      govKhz := Nat.max low (c.govKhz - step), govSteps := c.govSteps + 1,
      overRounds := if c.targetKhz = low then c.overRounds + 64 else 0 } }
  else if 100 * power ≤ 95 * cap ∧ s.stats.tstate < 2 then
    retarget { s with clock := { c with govKhz := Nat.min (nominalKhz c.mode) (c.govKhz + step), overRounds := 0 } }
  else { s with clock := { c with overRounds := 0 } }

theorem exec_governorStep (s : State) (power : Nat) : exec (.governorStep power) s = .next (governed (measurePower s power) power) := by
  change execGovernorStep power s = _
  unfold execGovernorStep governed
  dsimp only
  split
  · next hcap => exact congrArg _ (if_pos hcap).symm
  · next hcap =>
    split
    · next hlow => exact congrArg _ ((if_neg hcap).trans (if_pos hlow)).symm
    · next hlow => exact congrArg _ ((if_neg hcap).trans (if_neg hlow)).symm

/-- What a step of the governor leaves (R384). -/
structure GovernedFrom (s : State) (power : Nat) (t : State) : Prop where
  measured : t.clock.power = s.clock.power
  mode : t.clock.mode = s.clock.mode
  target : t.clock.targetKhz = s.clock.targetKhz
  above : powerCap s.variant s.clock.mode < power →
    t.clock.govKhz = Nat.max (minKhz s.clock.mode) (s.clock.govKhz - nominalKhz s.clock.mode / 100) ∧ t.clock.govSteps = s.clock.govSteps + 1
  below : 100 * power ≤ 95 * powerCap s.variant s.clock.mode → s.stats.tstate < 2 →
    t.clock.govKhz = Nat.min (nominalKhz s.clock.mode) (s.clock.govKhz + nominalKhz s.clock.mode / 100)
  between : 95 * powerCap s.variant s.clock.mode < 100 * power → power ≤ powerCap s.variant s.clock.mode → t.clock.govKhz = s.clock.govKhz

theorem governed_spec (s : State) (power : Nat) : GovernedFrom s power (governed s power) := by
  unfold governed
  dsimp only
  split
  · next hcap => exact ⟨rfl, rfl, rfl, fun _ => ⟨rfl, rfl⟩, fun h _ => by omega, fun _ h => by omega⟩
  · next hcap =>
    split
    · next hlow => exact ⟨rfl, rfl, rfl, fun h => absurd h hcap, fun _ _ => rfl, fun h _ => by omega⟩
    · next hlow => exact ⟨rfl, rfl, rfl, fun h => absurd h hcap, fun h ht => absurd ⟨h, ht⟩ hlow, fun _ _ => rfl⟩

theorem governorStep_next (s : State) (power : Nat) :
    ∃ t, exec (.governorStep power) s = .next t ∧ t.clock.power = power % 65536 ∧ t.clock.mode = s.clock.mode ∧
      t.clock.targetKhz = s.clock.targetKhz ∧
      (powerCap s.variant s.clock.mode < power →
        t.clock.govKhz = Nat.max (minKhz s.clock.mode) (s.clock.govKhz - nominalKhz s.clock.mode / 100) ∧ t.clock.govSteps = s.clock.govSteps + 1) ∧
      (100 * power ≤ 95 * powerCap s.variant s.clock.mode → s.stats.tstate < 2 →
        t.clock.govKhz = Nat.min (nominalKhz s.clock.mode) (s.clock.govKhz + nominalKhz s.clock.mode / 100)) ∧
      (95 * powerCap s.variant s.clock.mode < 100 * power → power ≤ powerCap s.variant s.clock.mode → t.clock.govKhz = s.clock.govKhz) := by
  obtain ⟨hpower, hmode, htarget, hover, hunder, hbetween⟩ := governed_spec (measurePower s power) power
  exact ⟨_, exec_governorStep s power, hpower, hmode, htarget, hover, hunder, hbetween⟩

/-! ### The throttles, the target and AVSBus (R385, R515 to R519) -/

theorem clock_raiseAlarm (s : State) (reason source : Nat) : (raiseAlarm s reason source).clock = s.clock := by
  obtain ⟨_, _, _, halarm, -⟩ := raiseAlarm_eq s reason source [] false false
  rw [halarm]

theorem autoThrottle_next {s : State} (hmode : s.clock.mode ≠ .cool) (hrounds : 1024 ≤ s.clock.overRounds) :
    ∃ t, exec .autoThrottle s = .next t ∧ t.clock.staged = some (slowerMode s.clock.mode) ∧
      t.clock.autoThrottles = s.clock.autoThrottles + 1 ∧ t.clock.overRounds = 0 ∧ t.clock.mode = s.clock.mode := by
  have hexec : exec .autoThrottle s = .next (raiseAlarm { stageMode s (slowerMode s.clock.mode) true with
      clock := { (stageMode s (slowerMode s.clock.mode) true).clock with autoThrottles := s.clock.autoThrottles + 1, overRounds := 0 } } 0x0C22 0) :=
    if_neg (not_or.mpr ⟨hmode, Nat.not_lt.mpr hrounds⟩)
  refine ⟨_, hexec, ?_⟩
  rw [clock_raiseAlarm]
  exact ⟨rfl, rfl, rfl, rfl⟩

theorem thermalThrottle_next {s : State} (hmode : s.clock.mode ≠ .cool) (hrounds : 1024 ≤ s.clock.throttleRounds) :
    ∃ t, exec .thermalThrottle s = .next t ∧ t.clock.staged = some (slowerMode s.clock.mode) ∧
      t.clock.autoThrottles = s.clock.autoThrottles + 1 ∧ t.clock.throttleRounds = 0 ∧ t.clock.mode = s.clock.mode := by
  have hexec : exec .thermalThrottle s = .next (raiseAlarm { stageMode s (slowerMode s.clock.mode) true with
      clock := { (stageMode s (slowerMode s.clock.mode) true).clock with autoThrottles := s.clock.autoThrottles + 1, throttleRounds := 0 } }
        0x0C24 0) :=
    if_neg (not_or.mpr ⟨hmode, Nat.not_lt.mpr hrounds⟩)
  refine ⟨_, hexec, ?_⟩
  rw [clock_raiseAlarm]
  exact ⟨rfl, rfl, rfl, rfl⟩

theorem targetApply_next {s : State} (k : Nat) (h : s.clock.nextTargetKhz = some k) :
    exec .targetApply s = .next { s with clock := { s.clock with targetKhz := k, nextTargetKhz := none } } := by
  change execTargetApply s = _
  unfold execTargetApply
  rw [h]

/-- Settles O48. -/
theorem powerAndModesAreGoverned : Obligations.PowerAndModesAreGoverned := fun s power =>
  ⟨governorStep_next s power, fun hmode => ⟨autoThrottle_next hmode, thermalThrottle_next hmode⟩,
    fun hcool => ⟨if_pos (.inl hcool), if_pos (.inl hcool)⟩, targetApply_next, rfl,
    ⟨_, rfl, clock_raiseAlarm .., raised_raiseAlarm ..⟩⟩

end Sys2Proof.Machine
end

section
/-! PROOFS. The sources of a reset and their levels (R435 to R438, R442, R445, R473, R506). -/

namespace Sys2Proof.Machine

open Sys2Proof

/-! ### Causes -/

theorem mem_insertNat (n m : Nat) : ∀ l : List Nat, m ∈ insertNat n l ↔ m = n ∨ m ∈ l
  | [] => by simp [insertNat]
  | x :: l => by
    unfold insertNat
    split
    · exact List.mem_cons
    · split
      · next h =>
        rw [h, List.mem_cons, ← or_assoc, or_self]
      · rw [List.mem_cons, mem_insertNat n m l, List.mem_cons, or_left_comm]

theorem bit_eq_testBit (v i : Nat) : bit v i = v.testBit i := Nat.testBit_eq_decide_div_mod_eq.symm

/-- A cause that is recorded stays. -/
theorem bit_cause_kept {v : BitVec 12} {i : Nat} (w : BitVec 12) (h : bit v.toNat i = true) : bit (v ||| w).toNat i = true := by
  rw [bit_eq_testBit] at h ⊢
  rw [BitVec.toNat_or, Nat.testBit_or, h, Bool.true_or]

theorem bit_foldl_cause {i : Nat} (hi : i < 12) : ∀ (l : List Nat) (v : BitVec 12), bit v.toNat i = true ∨ i ∈ l →
    bit (l.foldl (fun v i => v ||| BitVec.ofNat 12 (2 ^ i)) v).toNat i = true
  | [], _, h => h.resolve_right List.not_mem_nil
  | j :: l, v, h => by
    refine bit_foldl_cause hi l _ ?_
    rcases h with h | h
    · exact .inl (bit_cause_kept _ h)
    · rcases List.mem_cons.mp h with rfl | h
      · exact .inl (bit_cause v hi)
      · exact .inr h

/-! ### What begins with a level -/

theorem powerCleared_spec (s : State) : (powerCleared s).dev = .off ∧ (powerCleared s).ports = [] ∧
    (powerCleared s).resets.level = s.resets.level ∧ (powerCleared s).resets.asserted = s.resets.asserted ∧
    (powerCleared s).serial = s.serial ∧ (powerCleared s).variant = s.variant ∧ (powerCleared s).settings.copyA = s.settings.copyA := by
  unfold powerCleared loseMemory
  exact ⟨rfl, rfl, rfl, rfl, rfl, rfl, rfl⟩

/-- A power-on reset begins (R435, R445). -/
structure PowerReset (s t : State) : Prop where
  dev : t.dev = .off
  ports : t.ports = []
  level : t.resets.level = s.resets.level
  cause : t.resets.cause = causeBits s.resets.asserted
  serial : t.serial = s.serial
  variant : t.variant = s.variant
  copyA : t.settings.copyA = s.settings.copyA

theorem beginPower_spec (source : Nat) (s : State) : PowerReset s (beginLevel 0 source s) := by
  obtain ⟨hdev, hports, hlevel, hasserted, hserial, hvariant, hcopy⟩ := powerCleared_spec s
  exact ⟨hdev, hports, hlevel, congrArg causeBits hasserted, hserial, hvariant, hcopy⟩

/-- What a system reset leaves of a package (R435). -/
structure SystemReset (s t : State) : Prop where
  dev : t.dev = .boot
  level : t.resets.level = s.resets.level
  cause : t.resets.cause = s.resets.cause
  en : t.cmd.en = false
  cores : t.cores = []
  unlocked : t.sec.unlocked = s.sec.unlocked
  larder : t.inv.larder = s.inv.larder
  headSeal : t.alarms.headSeal = s.alarms.headSeal

theorem systemCleared_reset (s : State) : SystemReset s (systemCleared s) := by
  unfold systemCleared loseMemory
  exact ⟨rfl, rfl, rfl, rfl, rfl, rfl, rfl, rfl⟩

/-- A source that is not the host's begins a system reset at once. -/
theorem beginSystem_reset {source : Nat} (s : State) (h : ¬ (source = 7 ∨ source = 11)) : SystemReset s (beginLevel 1 source s) := by
  have hstop : stopForHost source s = s := if_neg h
  have hbegin : beginLevel 1 source s = systemCleared (stopForHost source s) := rfl
  rw [hbegin, hstop]
  exact systemCleared_reset s

/-- Whether a level is wider than the one in force. -/
def Resets.takes (r : Resets) (level : Nat) : Bool :=
  match r.level with
  | some l => decide (level < l)
  | none => true

/-- What a source does that is wider than the level in force, or is not. -/
def assertedAt (source level : Nat) (s : State) (wider : Bool) : State :=
  if wider then beginLevel level source (resetRecorded source level s wider) else resetRecorded source level s wider

theorem assertReset_eq (source level : Nat) (s : State) : assertReset source level s = assertedAt source level s (s.resets.takes level) := rfl

/-- A wider level than the one in force begins at once (R437). -/
theorem assertReset_wider {source level : Nat} {s : State} (h : ∀ l, s.resets.level = some l → level < l) :
    assertReset source level s = beginLevel level source (resetRecorded source level s true) := by
  have hwider : s.resets.takes level = true := by
    unfold Resets.takes
    split
    · next l hl => exact decide_eq_true (h l hl)
    · rfl
  rw [assertReset_eq, hwider]
  rfl

/-- A source of a level that is not wider than the one in force is recorded, and nothing begins (R437). -/
theorem assertReset_narrower {source level l : Nat} {s : State} (hl : s.resets.level = some l) (h : l ≤ level) :
    assertReset source level s = resetRecorded source level s false := by
  have hwider : s.resets.takes level = false := by
    unfold Resets.takes
    rw [hl]
    exact decide_eq_false (Nat.not_lt.mpr h)
  rw [assertReset_eq, hwider]
  rfl

/-! ### The sources -/

section
variable {s : State}

theorem porst_next (h : s.resets.level ≠ some 0) : ∃ t, exec (.porst true) s = .next t ∧ t.dev = .off ∧ t.resets.level = some 0 ∧ t.ports = [] ∧
    bit t.resets.cause.toNat 1 = true ∧ t.serial = s.serial ∧ t.variant = s.variant ∧ t.settings.copyA = s.settings.copyA := by
  have hwider (l : Nat) (hl : s.resets.level = some l) : 0 < l := Nat.pos_of_ne_zero fun h0 => h (hl.trans (congrArg some h0))
  have hexec : exec (.porst true) s = .next (beginLevel 0 1 (resetRecorded 1 0 s true)) := congrArg _ (assertReset_wider hwider)
  obtain ⟨hdev, hports, hlevel, hcause, hserial, hvariant, hcopy⟩ := beginPower_spec 1 (resetRecorded 1 0 s true)
  refine ⟨_, hexec, hdev, hlevel, hports, ?_, hserial, hvariant, hcopy⟩
  rw [hcause]
  exact bit_foldl_cause (by decide) _ _ (.inr ((mem_insertNat 1 1 _).mpr (.inl rfl)))

/-- A source other than the host's asserts system reset where no level is in force. -/
theorem assertSystem (h : s.resets.level = none) {source : Nat} (hs : ¬ (source = 7 ∨ source = 11)) (hi : source < 12) :
    SystemReset (resetRecorded source 1 s true) (assertReset source 1 s) ∧ (assertReset source 1 s).resets.level = some 1 ∧
      bit (assertReset source 1 s).resets.cause.toNat source = true := by
  rw [assertReset_free h]
  have hreset := beginSystem_reset (resetRecorded source 1 s true) hs
  refine ⟨hreset, hreset.level, ?_⟩
  rw [hreset.cause, resetRecorded_cause]
  exact bit_cause _ hi

/-- A source asserts core reset where no level is in force. -/
theorem assertCore (h : s.resets.level = none) {source : Nat} (hi : source < 12) :
    CoreReset (resetRecorded source 2 s true) (assertReset source 2 s) ∧ (assertReset source 2 s).resets.level = some 2 ∧
      bit (assertReset source 2 s).resets.cause.toNat source = true := by
  rw [assertReset_free h]
  have hreset : CoreReset (resetRecorded source 2 s true) (beginLevel 2 source (resetRecorded source 2 s true)) := beginCore_spec _
  refine ⟨hreset, ?_, ?_⟩
  · rw [hreset.cause]
    rfl
  · rw [hreset.cause, resetRecorded_cause]
    exact bit_cause _ hi

theorem sysrst_next (h : s.resets.level = none) : ∃ t, exec (.sysrst true) s = .next t ∧ t.dev = .boot ∧ t.resets.level = some 1 ∧
    bit t.resets.cause.toNat 2 = true ∧ t.cmd.en = false ∧ t.cores = [] ∧ t.sec.unlocked = s.sec.unlocked ∧ t.inv.larder = s.inv.larder ∧
    t.alarms.headSeal = s.alarms.headSeal := by
  obtain ⟨hreset, hlevel, hcause⟩ := assertSystem h (source := 2) (by decide) (by decide)
  exact ⟨_, rfl, hreset.dev, hlevel, hcause, hreset.en, hreset.cores, hreset.unlocked, hreset.larder, hreset.headSeal⟩

theorem wdog_next (pc sp : DWord) (h : s.resets.level = none) (hruns : s.firmwareRuns = true) :
    ∃ t, exec (.wdog pc sp) s = .next t ∧ t.dev = .boot ∧ bit t.resets.cause.toNat 3 = true := by
  have hexec : exec (.wdog pc sp) s =
      .next (assertReset 3 1 (logCrash s (Config.layout 0x438 [pc.toNat, sp.toNat, s.resets.bootStep, s.frameIndex, s.now]))) :=
    if_neg (by simp [hruns])
  obtain ⟨hreset, -, hcause⟩ := assertSystem
    (s := logCrash s (Config.layout 0x438 [pc.toNat, sp.toNat, s.resets.bootStep, s.frameIndex, s.now])) h (source := 3) (by decide) (by decide)
  exact ⟨_, hexec, hreset.dev, hcause⟩

theorem debugReset_next (h : s.resets.level = none) (hopen : s.sec.unlocked = true) :
    ∃ t, exec (.debugReset true) s = .next t ∧ t.resets.level = some 2 ∧ t.cores = [] ∧ t.cmd.suspended = true := by
  have hexec : exec (.debugReset true) s = .next (assertReset 10 2 s) := congrArg _ (if_pos (by rw [hopen]; rfl))
  obtain ⟨hreset, hlevel, -⟩ := assertCore h (source := 10) (by decide)
  exact ⟨_, hexec, hlevel, hreset.cores, hreset.suspended⟩

theorem debugReset_locked (h : s.sec.unlocked = false) : exec (.debugReset true) s = .next s :=
  congrArg _ (if_neg (by rw [h]; exact Bool.false_ne_true))

/-- A reset of the host's link asserts the level that its bit chooses (R436, R445). -/
theorem assertLink (h : s.resets.level = none) {source : Nat} (hs : ¬ (source = 7 ∨ source = 11)) (hi : source < 12) (core : Bool) :
    (assertReset source (if core then 2 else 1) s).resets.level = some (if core then 2 else 1) ∧
      bit (assertReset source (if core then 2 else 1) s).resets.cause.toNat source = true := by
  cases core with
  | true => exact (assertCore h hi).2
  | false => exact (assertSystem h hs hi).2

theorem cxlHot_next (h : s.resets.level = none) (hoff : s.dev ≠ .off) (hboot : s.dev ≠ .boot) :
    ∃ t, exec .cxlHot s = .next t ∧ t.resets.level = some (if s.resets.hotCore then 2 else 1) ∧ bit t.resets.cause.toNat 5 = true :=
  ⟨_, if_neg (not_or.mpr ⟨hoff, hboot⟩), assertLink h (by decide) (by decide) s.resets.hotCore⟩

theorem cxlLdn_next (h : s.resets.level = none) (hoff : s.dev ≠ .off) (hboot : s.dev ≠ .boot) (hlink : s.resets.bootFail ≠ 8) :
    ∃ t, exec .cxlLdn s = .next t ∧ t.resets.level = some (if s.resets.ldnCore then 2 else 1) ∧ bit t.resets.cause.toNat 6 = true :=
  ⟨_, if_neg (not_or.mpr ⟨hoff, not_or.mpr ⟨hboot, hlink⟩⟩), assertLink h (by decide) (by decide) s.resets.ldnCore⟩

theorem sysrst_narrower (h : s.resets.level = some 0) :
    ∃ t, exec (.sysrst true) s = .next t ∧ t.dev = s.dev ∧ t.resets.level = some 0 ∧ t.cores = s.cores := by
  have hexec : exec (.sysrst true) s = .next (resetRecorded 2 1 s false) := congrArg Host.Outcome.next (assertReset_narrower h (by decide))
  exact ⟨_, hexec, rfl, h, rfl⟩

end

/-- Settles O50. -/
theorem resetSourcesAssertTheirLevels : Obligations.ResetSourcesAssertTheirLevels := fun _ pc sp =>
  ⟨porst_next, fun h => ⟨sysrst_next h, wdog_next pc sp h, debugReset_next h,
    fun hoff hboot => ⟨cxlHot_next h hoff hboot, cxlLdn_next h hoff hboot⟩⟩, sysrst_narrower, debugReset_locked⟩

end Sys2Proof.Machine
end

section
/-! PROOFS. The release of a reset, and bring-up (R437, R440, R442, R446, R473, R524). -/

namespace Sys2Proof.Machine

open Sys2Proof

/-! ### What bring-up leaves of the device's state and of the level in force -/

/-- The device's state and the level in force stay. -/
structure BootKept (s t : State) : Prop where
  dev : t.dev = s.dev
  level : t.resets.level = s.resets.level

section
variable {s t u : State}

theorem BootKept.refl (s : State) : BootKept s s := ⟨rfl, rfl⟩

theorem RepairKept.boot (h : RepairKept t u) (h' : BootKept s t) : BootKept s u :=
  ⟨h.dev.trans h'.dev, (congrArg Resets.level h.resets).trans h'.level⟩

theorem bootKept_foldl {β : Type} {f : State → β → State} (l : List β) (hf : ∀ m b, BootKept s m → BootKept s (f m b)) (h : BootKept s t) :
    BootKept s (l.foldl f t) := foldl_keeps (P := BootKept s) f hf l h

theorem bootKept_ite {c : Prop} [Decidable c] (ht : BootKept s t) (hu : BootKept s u) : BootKept s (if c then t else u) := by
  split
  · exact ht
  · exact hu

theorem bootKept_raiseAlarm {reason source : Nat} {body : List Byte} {fault perFrame : Bool} (h : BootKept s t) :
    BootKept s (raiseAlarm t reason source body fault perFrame) := (repairKept_raiseAlarm (.refl t)).boot h

theorem bootKept_setPortState {p : Nat} {st : PortState} (h : BootKept s t) : BootKept s (setPortState t p st) := by
  obtain ⟨_, _, _, he⟩ := setPortState_eq t p st
  rw [he]
  exact ⟨h.dev, h.level⟩

theorem bootKept_modPort {p : Nat} {f : Port → Port} (h : BootKept s t) : BootKept s (t.modPort p f) := ⟨h.dev, h.level⟩

theorem bootKept_closePort {p : Nat} {st : PortState} (h : BootKept s t) : BootKept s (closePort t p st) := by
  have hstores {f : Port → Port} : BootKept s ((setPortState t p st).modPort p f) := bootKept_modPort (bootKept_setPortState h)
  unfold closePort
  extract_lets t1
  have h1 : BootKept s t1 := hstores
  split
  · obtain ⟨_, _, _, _, _, hlost⟩ := mtLost_eq t1
    rw [hlost]
    exact ⟨h1.dev, h1.level⟩
  · exact h1

theorem bootKept_computeZones (h : BootKept s t) : BootKept s (computeZones t) := (repairKept_computeZones (.refl t)).boot h

/-! ### Settings and calibration (R449 to R455) -/

theorem bootKept_writePortCfg {p v : Nat} (h : BootKept s t) : BootKept s (writePortCfg p v t) := by
  have hcfg : BootKept s (t.modPort p fun q => q.withCfg p v) := bootKept_modPort h
  unfold writePortCfg
  dsimp only
  split
  · exact hcfg
  · split
    · exact bootKept_closePort hcfg
    · exact bootKept_ite hcfg (bootKept_closePort hcfg)

theorem bootKept_applyProfile {b : List Byte} (h : BootKept s t) : BootKept s (applyProfile t b) := by
  unfold applyProfile
  exact bootKept_ite h (bootKept_modPort (bootKept_writePortCfg h))

theorem bootKept_applyEthIdent {b : List Byte} (h : BootKept s t) : BootKept s (applyEthIdent t b) := by
  unfold applyEthIdent writeEth
  exact bootKept_ite h (bootKept_ite (bootKept_modPort h) h)

theorem bootKept_applyInvSize {gib : Nat} (h : BootKept s t) : BootKept s (applyInvSize t gib) := by
  unfold applyInvSize
  exact bootKept_ite h ⟨h.dev, h.level⟩

theorem bootKept_timeEntry (a b c d e : Nat) (h : BootKept s t) :
    BootKept s (writeDither e (writePpsCfg d (writePtpCfg c (writeHoldoverMax b (writeJumpNs a t))))) := by
  have hjump (m : State) (hm : BootKept s m) : BootKept s (writeJumpNs a m) := ⟨hm.dev, hm.level⟩
  have hmax (m : State) (hm : BootKept s m) : BootKept s (writeHoldoverMax b m) := ⟨hm.dev, hm.level⟩
  have hptp (m : State) (hm : BootKept s m) : BootKept s (writePtpCfg c m) := ⟨hm.dev, hm.level⟩
  have hpps (m : State) (hm : BootKept s m) : BootKept s (writePpsCfg d m) := ⟨hm.dev, hm.level⟩
  have hdither (m : State) (hm : BootKept s m) : BootKept s (writeDither e m) := ⟨hm.dev, hm.level⟩
  exact hdither _ (hpps _ (hptp _ (hmax _ (hjump _ h))))

/-- An entry of the settings, whatever it sets (R451). -/
theorem bootKept_applyEntry {e : Nat × List Byte} (h : BootKept s t) : BootKept s (applyEntry t e) := by
  unfold applyEntry
  dsimp only
  split
  · exact bootKept_foldl _ (fun _ _ => bootKept_applyProfile) h
  · exact ⟨h.dev, h.level⟩
  · exact ⟨h.dev, h.level⟩
  · exact ⟨h.dev, h.level⟩
  · exact bootKept_timeEntry _ _ _ _ _ h
  · exact ⟨h.dev, h.level⟩
  · exact bootKept_foldl _ (fun _ _ => bootKept_applyEthIdent) h
  · exact ⟨h.dev, h.level⟩
  · exact ⟨h.dev, h.level⟩
  · exact ⟨h.dev, h.level⟩
  · have hsize : BootKept s (applyInvSize t (word e.2 0)) := bootKept_applyInvSize h
    exact ⟨hsize.dev, hsize.level⟩
  · exact ⟨h.dev, h.level⟩
  · exact ⟨h.dev, h.level⟩
  · exact h

theorem bootKept_applySettings (h : BootKept s t) : BootKept s (applySettings t) := by
  have hentries (l : List (Nat × List Byte)) (m : State) (hm : BootKept s m) : BootKept s (computeZones (l.foldl applyEntry m)) :=
    bootKept_computeZones (bootKept_foldl l (fun _ _ => bootKept_applyEntry) hm)
  unfold applySettings
  refine hentries _ _ ?_
  split
  · exact bootKept_applyInvSize ⟨h.dev, h.level⟩
  · exact ⟨h.dev, h.level⟩

theorem bootKept_markTorn (h : BootKept s t) : BootKept s (markTorn t) := by
  have hone (m : State) (hm : BootKept s m) (b : Bool) : BootKept s (if b then raiseAlarm m 0x0C11 0 else m) :=
    bootKept_ite (bootKept_raiseAlarm hm) hm
  unfold markTorn
  extract_lets a b src t1 t2
  have h1 : BootKept s t1 := ⟨h.dev, h.level⟩
  have h2 : BootKept s t2 := hone t1 h1 a
  exact hone t2 h2 b

theorem bootKept_loadDevice {powerOn : Bool} (h : BootKept s t) : BootKept s (loadDevice t powerOn) := by
  unfold loadDevice
  exact bootKept_ite ⟨h.dev, h.level⟩ ⟨h.dev, h.level⟩

theorem bootKept_chooseSettings {powerOn : Bool} (h : BootKept s t) : BootKept s (chooseSettings t powerOn) := by
  have htorn := bootKept_markTorn h
  unfold chooseSettings
  exact bootKept_ite (bootKept_raiseAlarm (bootKept_loadDevice ⟨htorn.dev, htorn.level⟩)) (bootKept_loadDevice ⟨htorn.dev, htorn.level⟩)

theorem bootKept_applyCal {c : CalItem} (h : BootKept s t) : BootKept s (applyCal t c) := by
  unfold applyCal
  exact bootKept_ite ⟨h.dev, h.level⟩ (bootKept_raiseAlarm ⟨h.dev, h.level⟩)

theorem bootKept_applyPhy {p : Nat} (h : BootKept s t) : BootKept s (applyPhy t p) := by
  unfold applyPhy
  exact bootKept_modPort h

theorem bootKept_calibrate {bad : Bool} (h : BootKept s t) : BootKept s (calibrate t bad) := by
  have hphy (l : List Nat) (m : State) (hm : BootKept s m) : BootKept s (l.foldl applyPhy m) :=
    bootKept_foldl l (fun _ _ => bootKept_applyPhy) hm
  unfold calibrate
  refine hphy _ _ ?_
  split
  · exact bootKept_raiseAlarm ⟨h.dev, h.level⟩
  · exact bootKept_foldl _ (fun _ _ => bootKept_applyCal) ⟨h.dev, h.level⟩

/-! ### Self-test (R310 to R312) -/

theorem bootKept_enterRetired {cores regions : List Nat} (h : BootKept s t) : BootKept s (enterRetired t cores regions) := by
  unfold enterRetired
  exact bootKept_ite ⟨h.dev, h.level⟩ ⟨h.dev, h.level⟩

theorem bootKept_selfTest {f : BootFindings} (h : BootKept s t) : BootKept s (selfTest t f) := by
  have hpcs (l : List Nat) (m : State) (hm : BootKept s m) : BootKept s (repairCellars (l.foldl retirePc m)) :=
    (repairKept_repairCellars (repairKept_foldl l (fun _ _ => repairKept_retirePc) (.refl m))).boot hm
  have hhealth (m : State) (hm : BootKept s m) : BootKept s (judgeHealth m) := ⟨hm.dev, hm.level⟩
  unfold selfTest
  exact hhealth _ (bootKept_enterRetired (hpcs _ _ (bootKept_computeZones h)))

/-! ### Ports and time (R197, R390) -/

theorem bootKept_sendIdentity {p : Nat} {reply : Bool} (h : BootKept s t) : BootKept s (sendIdentity t p reply) := ⟨h.dev, h.level⟩

theorem bootKept_enterDiscovery {p : Nat} (h : BootKept s t) : BootKept s (enterDiscovery t p) := by
  unfold enterDiscovery
  exact bootKept_sendIdentity (bootKept_setPortState (bootKept_modPort h))

theorem bootKept_trainPort {p : Nat} {r : TrainResult} (h : BootKept s t) : BootKept s (trainPort t p r) := by
  have hattempt {f : Port → Port} : BootKept s ((setPortState t p .training).modPort p f) := bootKept_modPort (bootKept_setPortState h)
  unfold trainPort
  dsimp only
  split
  · exact bootKept_ite (bootKept_setPortState (bootKept_modPort (bootKept_modPort hattempt))) (bootKept_enterDiscovery (bootKept_modPort hattempt))
  · exact bootKept_ite (bootKept_raiseAlarm (bootKept_setPortState (bootKept_modPort hattempt)))
      (bootKept_setPortState (bootKept_modPort hattempt))

theorem bootKept_trainPorts {lanes : List (Nat × Nat)} (h : BootKept s t) : BootKept s (trainPorts t lanes) := by
  unfold trainPorts
  exact bootKept_foldl _ (fun _ _ hm => bootKept_trainPort hm) ⟨h.dev, h.level⟩

theorem bootKept_setMtState {st : TimeState} (h : BootKept s t) : BootKept s (setMtState t st) := by
  obtain ⟨_, _, he⟩ := setMtState_eq t st
  rw [he]
  exact ⟨h.dev, h.level⟩

theorem BootKept.time {time : Time} (h : BootKept s t) : BootKept s { t with time := time } := ⟨h.dev, h.level⟩

theorem bootKept_acquireMt (h : BootKept s t) : BootKept s (acquireMt t) := by
  have hacq : BootKept s (setMtState t .acquire) := bootKept_setMtState h
  unfold acquireMt
  dsimp only
  split
  · exact hacq
  · exact (bootKept_setMtState (bootKept_ite hacq.time hacq)).time

/-! ### The end of bring-up (R446) -/

/-- Bring-up is done: the device is idle, at step 9, with no level in force. -/
structure BootDone (t : State) : Prop where
  dev : t.dev = .idle
  step : t.resets.bootStep = 9
  level : t.resets.level = none

theorem bootDone_raiseAlarm {reason source : Nat} {body : List Byte} {fault perFrame : Bool} (h : BootDone t) :
    BootDone (raiseAlarm t reason source body fault perFrame) := by
  obtain ⟨hdev, -, hresets, -, -⟩ := repairKept_raiseAlarm (s := t) (reason := reason) (source := source) (body := body) (fault := fault)
    (perFrame := perFrame) (.refl t)
  exact ⟨hdev.trans h.dev, by rw [hresets]; exact h.step, by rw [hresets]; exact h.level⟩

theorem keepBackup_eq (s : State) : ∃ backup, keepBackup s = { s with resets := { s.resets with backup := backup } } := ⟨_, rfl⟩

theorem bootDone_enterIdle (hstep : t.resets.bootStep = 9) (hlevel : t.resets.level = none) : BootDone (keepBackup (enterIdle t)) := by
  obtain ⟨hdev, -, hresets, -, -⟩ := enterIdle_kept t
  obtain ⟨_, hbackup⟩ := keepBackup_eq (enterIdle t)
  rw [hbackup]
  refine ⟨hdev, ?_, ?_⟩
  · exact (congrArg Resets.bootStep hresets).trans hstep
  · exact (congrArg Resets.level hresets).trans hlevel

theorem bootKept_setLtState {st : TimeState} (h : BootKept s t) : BootKept s (setLtState t st) := by
  obtain ⟨_, he⟩ := setLtState_eq t st
  rw [he]
  exact ⟨h.dev, h.level⟩

theorem bootKept_raiseCounter {first : Bool} (h : BootKept s t) : BootKept s (raiseCounter t first) := by
  unfold raiseCounter
  exact bootKept_ite ⟨h.dev, h.level⟩ h

theorem finishBoot_done {f : BootFindings} {failed : Nat} {first : Bool} (h : t.resets.level = none) : BootDone (finishBoot t f failed first) := by
  have hheaders (m : State) (hm : BootKept t m) : BootKept t (recoverHeaders m) := ⟨hm.dev, hm.level⟩
  have hline (m : State) (hm : BootDone m) : BootDone (State.alertLine m) := ⟨hm.dev, hm.step, hm.level⟩
  unfold finishBoot
  extract_lets t1 t2 t3 srcR srcA t4 t5 t6
  have h1 : BootKept t t1 := bootKept_acquireMt (bootKept_trainPorts (.refl t))
  have h2 : BootKept t t2 := bootKept_ite (bootKept_setLtState h1) h1
  have h3 : BootKept t t3 := hheaders _ (bootKept_raiseCounter h2)
  have h5 : BootDone t5 := bootDone_enterIdle rfl (h3.level.trans h)
  have h6 : BootDone t6 := foldl_keeps (P := BootDone) _ (fun _ _ => bootDone_raiseAlarm) _ h5
  refine hline _ ?_
  split
  · exact bootDone_raiseAlarm h6
  · exact h6

/-- Bring-up has ended: in `IDLE` after step 9, or in `BOOT` with the step that failed. -/
structure BootEnded (t : State) : Prop where
  level : t.resets.level = none
  ended : (t.dev = .idle ∧ t.resets.bootStep = 9) ∨ (t.dev = .boot ∧ 1 ≤ t.resets.bootFail ∧ t.resets.bootFail ≤ 5)

theorem BootDone.ended (h : BootDone t) : BootEnded t := ⟨h.level, .inl ⟨h.dev, h.step⟩⟩

theorem bootFails_ended {n : Nat} (hdev : t.dev = .boot) (hlevel : t.resets.level = none) (hn : 1 ≤ n ∧ n ≤ 5) : BootEnded (bootFails t n) :=
  ⟨hlevel, .inr ⟨hdev, hn⟩⟩

theorem finishBoot_late {f : BootFindings} {failed : Nat} {first : Bool} {time : Nat} (h : t.resets.level = none) :
    BootEnded (finishBoot (t.advanceTo time) f failed first) := by
  have hlevel : (t.advanceTo time).resets.level = none := by
    obtain ⟨_, hadv⟩ := State.advanceTo_eq t time
    rw [hadv]
    exact h
  exact (finishBoot_done hlevel).ended

theorem bringUp_ended {f : BootFindings} {powerOn : Bool} (h : t.resets.level = none) : BootEnded (bringUp t f powerOn) := by
  unfold bringUp
  extract_lets s0
  have h0 : s0.dev = .boot ∧ s0.resets.level = none := ⟨rfl, h⟩
  split
  · next hstep => exact bootFails_ended h0.1 h0.2 (by omega)
  · split
    split
    · exact bootFails_ended h0.1 h0.2 (by decide)
    · extract_lets first bad s1 s2 src s3 s4
      have h1 : BootKept s0 s1 := ⟨rfl, rfl⟩
      have h2 : BootKept s0 s2 := bootKept_calibrate (bootKept_applySettings (bootKept_chooseSettings h1))
      have h3 : BootKept s0 s3 := ⟨h2.dev, h2.level⟩
      have h4 : BootKept s0 s4 := bootKept_selfTest h3
      split
      · exact bootFails_ended (h3.dev.trans h0.1) (h3.level.trans h0.2) (by decide)
      · split
        · exact bootFails_ended (h4.dev.trans h0.1) (h4.level.trans h0.2) (by decide)
        · exact finishBoot_late (h4.level.trans h0.2)

theorem bringUp_firstStep {f : BootFindings} {powerOn : Bool} (h : f.failStep = 1) :
    (bringUp t f powerOn).dev = .boot ∧ (bringUp t f powerOn).resets.bootFail = 1 := by
  unfold bringUp
  dsimp only
  rw [if_pos (.inl h)]
  exact ⟨rfl, h⟩

/-! ### The release (R437, R442) -/

/-- The package as it is released: no source, and no level. -/
def released (s : State) : State := { s with resets := { s.resets with asserted := [], level := none, first := none } }

/-- Whether RESET_RELEASE finds no source asserted any more. -/
def Releasable (s : State) : Prop := s.resets.asserted.any (fun i => decide (i ≤ 2)) = false ∧ s.resets.tripped = false

theorem exec_resetRelease (f : BootFindings) (h : Releasable s) : exec (.resetRelease f) s =
    match s.resets.level with
    | none => .next s
    | some 0 => .next (bringUp (released s) f true)
    | some 1 => .next (bringUp { released s with resets := { (released s).resets with sysResets := s.resets.sysResets + 1 } } f false)
    | some _ => .next (releaseCore (released s)) := by
  have hopen : ¬ (s.resets.asserted.any (fun i => decide (i ≤ 2)) || s.resets.tripped) = true := by
    rw [h.1, h.2]
    exact Bool.false_ne_true
  change execResetRelease f s = _
  unfold execResetRelease
  dsimp only
  rw [if_neg hopen]
  rfl

theorem resetRelease_core (f : BootFindings) (h : Releasable s) (hlevel : s.resets.level = some 2) :
    ∃ t, exec (.resetRelease f) s = .next t ∧ t.dev = .idle ∧ t.cmd.suspended = false ∧ t.resets.level = none ∧
      t.resets.coreResets = s.resets.coreResets + 1 := by
  have hexec := exec_resetRelease f h
  rw [hlevel] at hexec
  obtain ⟨hdev, hcmd, hresets, -, -⟩ := enterIdle_kept { released s with
    frame := {}, cmd := { (released s).cmd with suspended := false },
    resets := { (released s).resets with coreResets := (released s).resets.coreResets + 1 } }
  obtain ⟨_, _, _, hfinish⟩ := finishCommand_eq (enterIdle { released s with
    frame := {}, cmd := { (released s).cmd with suspended := false },
    resets := { (released s).resets with coreResets := (released s).resets.coreResets + 1 } }) 0x80 stOk 0 []
  refine ⟨_, hexec, ?_⟩
  unfold releaseCore
  dsimp only
  rw [hfinish]
  refine ⟨hdev, ?_, ?_, ?_⟩
  · exact congrArg CmdWin.suspended hcmd
  · exact congrArg Resets.level hresets
  · exact congrArg Resets.coreResets hresets

theorem resetRelease_wider (f : BootFindings) (h : Releasable s) (hlevel : s.resets.level = some 0 ∨ s.resets.level = some 1) :
    ∃ t, exec (.resetRelease f) s = .next t ∧ BootEnded t ∧ (f.failStep = 1 → t.dev = .boot ∧ t.resets.bootFail = 1) := by
  have hexec := exec_resetRelease f h
  rcases hlevel with hlevel | hlevel
  · rw [hlevel] at hexec
    exact ⟨_, hexec, bringUp_ended rfl, bringUp_firstStep⟩
  · rw [hlevel] at hexec
    exact ⟨_, hexec, bringUp_ended rfl, bringUp_firstStep⟩

/-! ### ACTIVE and the TAP (R440, R524) -/

theorem activeToggle_next (h : s.firmwareRuns = true) :
    ∃ t, exec .activeToggle s = .next t ∧ t.pins = { s.pins with active := !s.pins.active } := by
  have hexec : exec .activeToggle s = .next { s.advanceTo (s.now + 500000) with
      pins := { (s.advanceTo (s.now + 500000)).pins with active := !(s.advanceTo (s.now + 500000)).pins.active } } := if_neg (by simp [h])
  obtain ⟨_, hadv⟩ := State.advanceTo_eq s (s.now + 500000)
  rw [hadv] at hexec
  exact ⟨_, hexec, rfl⟩

end

/-- Settles O51. -/
theorem releaseBringsTheDeviceUp : Obligations.ReleaseBringsTheDeviceUp := by
  intro s f code
  refine ⟨fun hsources htrip => ⟨resetRelease_core f ⟨hsources, htrip⟩, fun hlevel => ?_⟩, activeToggle_next,
    fun hcode => congrArg Host.Outcome.next (if_pos hcode)⟩
  obtain ⟨t, hexec, hended, hfirst⟩ := resetRelease_wider f ⟨hsources, htrip⟩ hlevel
  exact ⟨t, hexec, hended.level, hended.ended, hfirst⟩

end Sys2Proof.Machine
end

section
/-! PROOFS. Board management and security requests (R404, R408, R453, R461, R462, R464, R470, R487 to R489). -/

namespace Sys2Proof.Machine

open Sys2Proof

/-! ### Firmware copies (R461, R462) -/

/-- The copy that is not running is replaced; the running one stays. -/
theorem setOther_spec (x : Sec) (c : FwCopy) :
    (x.setOther c).other = c ∧ (x.setOther c).running = x.running ∧ (x.setOther c).runB = x.runB := by
  unfold Sec.setOther Sec.other Sec.running
  cases hb : x.runB with
  | true => simp
  | false => simp

/-- What writing an image into the copy that is not running leaves (R461). -/
structure Staged (x : Sec) (f : List Byte) (y : Sec) (reason : Nat) : Prop where
  other : y.other = fwCopyOf x f
  running : y.running = x.running
  staged : y.fwStaged = (reason == 0)

theorem stageFirmware_spec (s : State) (f : List Byte) : Staged s.sec f (stageFirmware s f).1.sec (stageFirmware s f).2 := by
  obtain ⟨hother, hrunning, -⟩ := setOther_spec s.sec (fwCopyOf s.sec f)
  unfold stageFirmware
  dsimp only
  exact ⟨hother, hrunning, rfl⟩

/-! ### MCTP and PLDM (R487 to R489) -/

section
variable {s : State}

theorem requestUpdate_next (hserves : s.servesMctp = true) (hnone : s.sec.pldmUpdate = false) (hhost : s.hostUpdates = false) :
    ∃ t, exec .requestUpdate s = .next t ∧ t.sec.pldmUpdate = true ∧ t.sec.pldmData = [] ∧ t.sec.other.activated = false ∧
      t.sec.running = s.sec.running := by
  obtain ⟨hother, hrunning, -⟩ := setOther_spec s.sec { s.sec.other with activated := false }
  have hexec : exec .requestUpdate s = .next (answer { s with
      sec := { s.sec.setOther { s.sec.other with activated := false } with pldmUpdate := true, pldmData := [] } } []) := by
    change execRequestUpdate s = _
    unfold execRequestUpdate
    rw [if_neg (by simp [hserves]), if_neg (by simp [hnone, hhost])]
  exact ⟨_, hexec, rfl, rfl, congrArg FwCopy.activated hother, hrunning⟩

theorem pldmFirmwareData_more (data : List Byte) (h : s.sec.pldmUpdate = true) :
    exec (.pldmFirmwareData data false) s = .next { s with sec := { s.sec with pldmData := s.sec.pldmData ++ data } } := by
  change execPldmFirmwareData data false s = _
  unfold execPldmFirmwareData
  rw [if_neg (by simp [h])]
  rfl

theorem pldmFirmwareData_last (data : List Byte) (h : s.sec.pldmUpdate = true) :
    ∃ t, exec (.pldmFirmwareData data true) s = .next t ∧ t.sec.other = fwCopyOf s.sec ((s.sec.pldmData ++ data).take 4190208) ∧
      t.sec.running = s.sec.running ∧ t.sec.pldmUpdate = t.sec.fwStaged := by
  obtain ⟨hother, hrunning, hstaged⟩ := stageFirmware_spec { s with sec := { s.sec with pldmData := [] } } ((s.sec.pldmData ++ data).take 4190208)
  have hexec : exec (.pldmFirmwareData data true) s =
      .next (answer { (stageFirmware { s with sec := { s.sec with pldmData := [] } } ((s.sec.pldmData ++ data).take 4190208)).1 with
        sec := { (stageFirmware { s with sec := { s.sec with pldmData := [] } } ((s.sec.pldmData ++ data).take 4190208)).1.sec with
          pldmUpdate := (stageFirmware { s with sec := { s.sec with pldmData := [] } } ((s.sec.pldmData ++ data).take 4190208)).2 == 0 } }
        (leBytes 2 (stageFirmware { s with sec := { s.sec with pldmData := [] } } ((s.sec.pldmData ++ data).take 4190208)).2)) := by
    change execPldmFirmwareData data true s = _
    unfold execPldmFirmwareData
    rw [if_neg (by simp [h])]
    rfl
  exact ⟨_, hexec, hother, hrunning, hstaged.symm⟩

theorem activateFirmware_next (h : s.sec.pldmUpdate = true) (hstaged : s.sec.fwStaged = true) :
    ∃ t, exec .activateFirmware s = .next t ∧ t.sec.pldmUpdate = false ∧ t.sec.actPending = true ∧ t.sec.other.activated = true ∧
      t.sec.running = s.sec.running := by
  obtain ⟨hother, hrunning, -⟩ := setOther_spec s.sec { s.sec.other with activated := true }
  have hexec : exec .activateFirmware s =
      .next (answer { activateStaged s with sec := { (activateStaged s).sec with pldmUpdate := false } } []) := by
    change execActivateFirmware s = _
    unfold execActivateFirmware
    rw [if_neg (by simp [h, hstaged])]
  exact ⟨_, hexec, rfl, rfl, congrArg FwCopy.activated hother, hrunning⟩

/-! ### Certificates and commits (R453, R464) -/

theorem signed_spec (c : Cert) : (s.signed c).body = c.body ∧ (s.signed c).signature.isSome = true := by
  unfold State.signed
  split
  · next h => exact ⟨rfl, h⟩
  · exact ⟨rfl, rfl⟩

theorem certSigned_next : ∃ t, exec .certSigned s = .next t ∧ t.inv.buffer = s.inv.buffer ∧
    ∀ c, s.inv.cert = some c → ∃ d, t.inv.cert = some d ∧ d.body = c.body ∧ d.signature.isSome = true := by
  have hcert : (signCertificates s).inv.cert = s.inv.cert.map s.signed := rfl
  refine ⟨_, rfl, rfl, fun c hc => ⟨s.signed c, ?_, signed_spec c⟩⟩
  rw [hcert, hc]
  rfl

theorem deviceDue_writeDevice : (writeDevice s).settings.deviceDue = s.settings.deviceDue := by
  unfold writeDevice writeCopy
  dsimp only
  split <;> rfl

theorem deviceCommitWritten_next (h : s.settings.deviceDue ≠ 0) :
    ∃ t, exec (.deviceCommitWritten true) s = .next t ∧ t.settings.deviceDue = s.settings.deviceDue - 1 := by
  have hexec : exec (.deviceCommitWritten true) s = .next (endCommit (writeDevice s)) := congrArg Host.Outcome.next (if_neg (by simp [h]))
  have hdue : (endCommit (writeDevice s)).settings.deviceDue = (writeDevice s).settings.deviceDue - 1 := rfl
  exact ⟨_, hexec, hdue.trans (congrArg (· - 1) deviceDue_writeDevice)⟩

theorem pldmRequest_next {ptype : Nat} (command : Nat) (data : List Byte) (hserves : s.servesMctp = true)
    (htype : ptype = 0 ∨ ptype = 2 ∨ ptype = 5) : ∃ t, exec (.pldmRequest ptype command data) s = .next t ∧
      t = { s with sec := { s.sec with lastResponse := t.sec.lastResponse }, freeCtr := s.freeCtr + 1 } := by
  have hexec : exec (.pldmRequest ptype command data) s = .next (answer s
      ([BitVec.ofNat 8 ptype, BitVec.ofNat 8 command] ++ data ++ (if ptype = 2 then s.sensorReadings else []))) := by
    refine congrArg Host.Outcome.next (if_pos ?_)
    rw [hserves]
    rcases htype with rfl | rfl | rfl <;> rfl
  exact ⟨_, hexec, rfl⟩

end

/-- Settles O52. -/
theorem boardManagementActs : Obligations.BoardManagementActs := fun _ _ _ command data =>
  ⟨fun hserves => ⟨⟨_, congrArg Host.Outcome.next (if_pos hserves), rfl⟩, ⟨_, congrArg Host.Outcome.next (if_pos hserves), rfl⟩,
    pldmRequest_next command data hserves, requestUpdate_next hserves⟩,
    fun h => ⟨pldmFirmwareData_more data h, pldmFirmwareData_last data h, activateFirmware_next h⟩,
    certSigned_next, deviceCommitWritten_next, congrArg Host.Outcome.next (if_pos (.inr rfl))⟩

/-! ### SPDM (R404, R408, R470) -/

section
variable {s : State}

/-- Only the answer, and the free values that it takes, differ. -/
def Answered (s t : State) : Prop := t = { s with sec := { s.sec with lastResponse := t.sec.lastResponse }, freeCtr := t.freeCtr }

theorem answered_answer (content : List Byte) : Answered s (answer s content) := rfl

theorem answered_signed (n : Nat) (content : List Byte) : Answered s (answer (s.useFree n) content) := rfl

theorem onDoe_next (f : State → State) (h : s.servesDoe = true) : onDoe s f = .next (f s) := congrArg Host.Outcome.next (if_pos h)

theorem inSession_next {n : Nat} (f : State → State) (h : s.servesDoe = true) (hn : n ∈ s.sec.sessions) : inSession n s f = .next (f s) := by
  unfold inSession
  rw [onDoe_next _ h, if_pos (List.contains_iff_mem.mpr hn)]

/-- A request of the mailbox whose rule changes only the answer. -/
theorem doe_answers {f : State → State} (h : s.servesDoe = true) (hf : Answered s (f s)) : ∃ t, onDoe s f = .next t ∧ Answered s t :=
  ⟨_, onDoe_next f h, hf⟩

/-- A request inside an open session whose rule changes only the answer. -/
theorem session_answers {n : Nat} {f : State → State} (h : s.servesDoe = true) (hn : n ∈ s.sec.sessions) (hf : Answered s (f s)) :
    ∃ t, inSession n s f = .next t ∧ Answered s t := ⟨_, inSession_next f h hn, hf⟩

theorem spdmGetMeasurements_next (idx : Nat) (nonce : List Byte) (h : s.servesDoe = true) :
    ∃ t, exec (.spdmGetMeasurements idx nonce) s = .next t ∧ Answered s t := by
  change ∃ t, execSpdmGetMeasurements idx nonce s = .next t ∧ _
  unfold execSpdmGetMeasurements
  refine doe_answers h ?_
  split
  · exact answered_signed ..
  · split
    · exact answered_signed ..
    · exact answered_answer ..

/-- The requests that the responder answers outside a session change only its answer. -/
theorem spdmRequests_next (off len idx : Nat) (nonce : List Byte) (h : s.servesDoe = true) :
    ∀ c ∈ [Instr.spdmGetVersion, .spdmGetCapabilities, .spdmNegotiateAlgorithms, .spdmGetCertificate 0 off len, .spdmChallenge 0 nonce,
        .spdmGetMeasurements 0xFF nonce, .spdmGetMeasurements idx nonce], ∃ t, exec c s = .next t ∧ Answered s t := by
  simp only [List.forall_mem_cons]
  refine ⟨?_, ?_, ?_, ?_, ?_, spdmGetMeasurements_next _ _ h, spdmGetMeasurements_next _ _ h, fun _ hc => absurd hc List.not_mem_nil⟩
  · change ∃ t, execSpdmGetVersion s = .next t ∧ _
    unfold execSpdmGetVersion
    exact doe_answers h (answered_answer _)
  · change ∃ t, execSpdmGetCapabilities s = .next t ∧ _
    unfold execSpdmGetCapabilities
    exact doe_answers h (answered_answer _)
  · change ∃ t, execSpdmNegotiateAlgorithms s = .next t ∧ _
    unfold execSpdmNegotiateAlgorithms
    exact doe_answers h (answered_answer _)
  · change ∃ t, execSpdmGetCertificate 0 off len s = .next t ∧ _
    unfold execSpdmGetCertificate
    exact doe_answers h (answered_answer _)
  · change ∃ t, execSpdmChallenge 0 nonce s = .next t ∧ _
    unfold execSpdmChallenge
    exact doe_answers h (answered_signed ..)

theorem spdmKeyExchange_next (h : s.servesDoe = true) (hnone : s.sec.sessions = []) :
    ∃ t, exec .spdmKeyExchange s = .next t ∧ t.sec.sessions = [1] := by
  have hfirst : [1, 2].find? (fun n => !s.sec.sessions.contains n) = some 1 := by
    rw [hnone]
    rfl
  have hexec : exec .spdmKeyExchange s = .next (answer { s.useFree 3309 with sec := { s.sec with sessions := insertNat 1 s.sec.sessions } }
      (leBytes 1 1 ++ s.freeBytes 3309)) := by
    change execSpdmKeyExchange s = _
    unfold execSpdmKeyExchange
    rw [onDoe_next _ h, hfirst]
  exact ⟨_, hexec, congrArg (insertNat 1) hnone⟩

/-- The requests inside an open session change only the answer. -/
theorem sessionRequests_next {n : Nat} (h : s.servesDoe = true) (hn : n ∈ s.sec.sessions) :
    ∀ c ∈ [Instr.spdmFinish n, .spdmKeyUpdate n, .spdmHeartbeat n], ∃ t, exec c s = .next t ∧ Answered s t := by
  simp only [List.forall_mem_cons]
  refine ⟨?_, ?_, ?_, fun _ hc => absurd hc List.not_mem_nil⟩
  · change ∃ t, execSpdmFinish n s = .next t ∧ _
    unfold execSpdmFinish
    exact session_answers h hn (answered_answer _)
  · change ∃ t, execSpdmKeyUpdate n s = .next t ∧ _
    unfold execSpdmKeyUpdate
    exact session_answers h hn (answered_answer _)
  · change ∃ t, execSpdmHeartbeat n s = .next t ∧ _
    unfold execSpdmHeartbeat
    exact session_answers h hn (answered_answer _)

theorem spdmEndSession_next {n : Nat} (h : s.servesDoe = true) (hn : n ∈ s.sec.sessions) :
    ∃ t, exec (.spdmEndSession n) s = .next t ∧ n ∉ t.sec.sessions ∧ ∀ m, m ≠ n → (m ∈ t.sec.sessions ↔ m ∈ s.sec.sessions) := by
  have hexec : exec (.spdmEndSession n) s =
      .next (answer { s with sec := { s.sec with sessions := s.sec.sessions.filter (fun m => m != n) } } (ascii "END_SESSION")) := by
    change execSpdmEndSession n s = _
    unfold execSpdmEndSession
    rw [inSession_next _ h hn]
  refine ⟨_, hexec, ?_⟩
  change n ∉ s.sec.sessions.filter (fun m => m != n) ∧ ∀ m, m ≠ n → (m ∈ s.sec.sessions.filter (fun m => m != n) ↔ m ∈ s.sec.sessions)
  refine ⟨fun hmem => ?_, fun m hm => ?_⟩
  · simpa using (List.mem_filter.mp hmem).2
  · rw [List.mem_filter, and_iff_left (by simpa using hm)]

theorem ideKm_next {n proto : Nat} (h : s.servesDoe = true) (hn : n ∈ s.sec.sessions) (hp : proto ≤ 2) :
    ∃ t, exec (.ideKm n proto) s = .next t ∧ proto ∈ t.sec.ideStreams ∧ t.sec.sessions = s.sec.sessions := by
  have hexec : exec (.ideKm n proto) s =
      .next (answer { s with sec := { s.sec with ideStreams := insertNat proto s.sec.ideStreams } } (ascii "IDE_KM")) := by
    change execIdeKm n proto s = _
    unfold execIdeKm
    rw [inSession_next _ h hn, if_neg (Nat.not_lt.mpr hp)]
  exact ⟨_, hexec, (mem_insertNat proto proto _).mpr (.inl rfl), rfl⟩

end

/-- Settles O53. -/
theorem spdmRequestsAreAnswered : Obligations.SpdmRequestsAreAnswered := fun _ off len idx _ _ nonce h =>
  ⟨spdmRequests_next off len idx nonce h, spdmKeyExchange_next h, fun hn => ⟨sessionRequests_next h hn, spdmEndSession_next h hn, ideKm_next h hn⟩⟩

end Sys2Proof.Machine
end
